-- ==== Sys2Proof/Word.lean ====
section
/-! DEFINITION. The word types of the machine: a 64-bit register or double, a byte, and the sparse tables that hold
anything indexed by a number. -/

namespace Sys2Proof

/-- A double: a general register's value, a control-space register, a memory double (R45, R31, R47). -/
abbrev Word := BitVec 64

/-- A byte of memory (R47). -/
abbrev Byte := BitVec 8

/-- A sparse table from numbers to values, kept in rising order of the number. -/
abbrev Tab (α : Type) := List (Nat × α)

end Sys2Proof
end

