-- ==== Sys2Proof/Syntax.lean ====
section
/-! DEFINITION. The commands: one constructor of `Instr` for each row of spec/opcode_table.json, with the row's operands.
What the environment of the block decides (an error that a memory code finds, the outcome of a transfer, what a host
command holds) is an operand. -/

namespace Sys2Proof

/-- A Facet core, 0 to 53 (R20). -/
abbrev CoreId := Fin 54
/-- A Prong sequencer (R26). -/
abbrev SeqId := Fin 34
/-- A flash channel. -/
abbrev ChanId := Fin 32
/-- A general register (R45). -/
abbrev RegIdx := Fin 32
/-- A Chain endpoint number (R20). -/
abbrev Endpoint := BitVec 7
/-- A clasp (R104). -/
abbrev ClaspId := Fin 76
/-- An in-flight slot (R137). -/
abbrev SlotId := BitVec 15
/-- A bead (R174). -/
abbrev BeadId := BitVec 15
/-- A khash key slot that firmware writes, 1 to 3 (R96): 0 stands for slot 1. -/
abbrev KeySlot := Fin 3

/-- What the memory code yields on the reads of an access (R409, R414), with the DRAM device that the error is
attributed to, 31 where it is not attributed (`MEC_ELOG1.DEV`). -/
inductive Ecc where
  | clean
  | corrected (dev : BitVec 5)
  | uncorrectable (dev : BitVec 5)
  /-- The copy read of a mirrored Light region is uncorrectable, the other copy is good (R409). -/
  | otherCopy (dev : BitVec 5)
  deriving DecidableEq, Repr

/-- The causes with which a clasp breaks by itself (R115, R109). -/
inductive BreakCause where
  | islandReset | coreReset | islandStalled | coreStalled | disagreement
  deriving DecidableEq, Repr

/-- What is wrong with the data pointer of a command, if anything (R134). -/
inductive PtrFault where
  | none | prpOffset | sglType | sglSegment | sglLength | hostRead
  deriving DecidableEq, Repr

/-- A submission queue entry as fetched: command dwords 0 to 3 and 10 to 15, the metadata and data pointers of dwords 4 to 9,
and what walking the data pointer finds (R134, R136, R137). -/
structure NvmeCmd where
  dw0 : BitVec 32
  nsid : BitVec 32
  dw2 : BitVec 32
  dw3 : BitVec 32
  dw10 : BitVec 32
  dw11 : BitVec 32
  dw12 : BitVec 32
  dw13 : BitVec 32
  dw14 : BitVec 32
  dw15 : BitVec 32
  ptr : PtrFault
  mptr : BitVec 64 := 0
  dptr : BitVec 128 := 0
  deriving DecidableEq, Repr

/-- One entry of a Dataset Management range list: context attributes, start and length. -/
structure DsmRange where
  attrs : BitVec 32
  slba : BitVec 64
  nlb : BitVec 32
  deriving DecidableEq, Repr

/-- A controller reset's cause (R165). -/
inductive ControllerResetCause where
  | enableCleared | functionLevel | hotReset | linkDisable
  deriving DecidableEq, Repr

/-- Which read of host memory meets an error (R123, R134). -/
inductive HostRead where
  /-- The fetch of SQ entries of a queue. -/
  | fetch (sq : BitVec 16)
  /-- A Dataset Management range list. -/
  | rangeList (slot : SlotId)
  /-- A pull of a unit's data. -/
  | data (slot : SlotId)
  deriving DecidableEq, Repr

/-- How a read of host memory ends with an error (R123). -/
inductive ReadError where
  | poisoned | unsupportedRequest | completerAbort
  deriving DecidableEq, Repr

/-- What the host does to the function's configuration space, or to BAR0 beside the registers that have rows of their own (R121,
R124, R125; log entry 150). -/
inductive HostAccess where
  /-- A configuration read of the header. -/
  | identity
  /-- Device Control: payload and read request size codes, tag bits, completion timeout code and disable. -/
  | deviceControl (mps mrrs tags timeout : BitVec 4) (timeoutOff : Bool)
  /-- Power management: D0 (0) or D3hot (3). -/
  | powerState (d : BitVec 2)
  /-- MSI-X control: enable and function mask. -/
  | msixControl (enable mask : Bool)
  /-- Ones written to the AER status registers, uncorrectable and correctable. -/
  | clearAer (uncor cor : BitVec 32)
  /-- A read of a dword of BAR0. -/
  | readBar (off : BitVec 18)
  /-- A write of a dword of the MSI-X table. -/
  | writeMsix (vector : BitVec 11) (dword : BitVec 2) (value : BitVec 32)
  deriving DecidableEq, Repr

/-- One unit pulled from the host: its doubles (512 of data, then up to 8 of host metadata) (R139). -/
structure PulledUnit where
  data : List Word
  hostMeta : List Word
  deriving DecidableEq, Repr

/-- One entry of a read-data message (R141). -/
structure ReadEntry where
  unit : BitVec 16
  bead : BitVec 16
  sector : BitVec 8
  sectors : BitVec 8
  deriving DecidableEq, Repr

/-- An error that the code finds as something reads a bead (R591): the double, of 528 (512 of data, then 16 of metadata), and whether
it is uncorrectable. A stored poison is met without it. -/
structure BeadError where
  bead : BeadId
  double : Fin 528
  fatal : Bool
  deriving DecidableEq, Repr

/-- A request to the engine's encryption service (R454): bead, namespace index, LBA of the bead's first data byte, reply
mailbox and sector mask. -/
structure EncryptReq where
  bead : BeadId
  nsIndex : BitVec 8
  lba : BitVec 48
  mbx : BitVec 4
  mask : BitVec 8
  deriving DecidableEq, Repr

/-- Where the scrubber reads (R407, R418): a DRAM block by address, or a double of an SRAM by identifier, instance and
byte offset. -/
inductive ScrubPlace where
  | dram (addr : BitVec 40)
  | sram (id : BitVec 4) (inst : BitVec 6) (off : BitVec 40)
  deriving DecidableEq, Repr

/-- Where a handshake stays incomplete (R428, R429). -/
inductive StallPlace where
  | core (n : CoreId)
  | flashIsland (channel : Fin 32)
  | ddr5 (chan : Fin 2)
  | scrubber
  | pcie
  /-- A unit whose stall is fatal, by its endpoint number (R429, R430). -/
  | other (ep : Endpoint)
  deriving DecidableEq, Repr


/-- Where firmware places a stripe (R363, R368): the open band of the use by its serial (any other number opens a new band),
the row and the stripe's number in the row. `failed` is the die whose member program fails there, if one does (R377). -/
structure StripeAt where
  band : BitVec 45
  row : BitVec 12
  j : BitVec 7
  failed : Option (BitVec 9)
  deriving DecidableEq, Repr

/-- A block by number: the PPA above its page field (R198). -/
abbrev BlockId := BitVec 26

/-- What a patrol pass finds (R396, R397): slots that fail to decode or fail their tag check, members located by a mismatch,
stripes whose mismatch is not located, pages with an early warning, and the counts and duration of the summary. -/
structure PassFindings where
  failed : List (BitVec 40)
  located : List (BitVec 40)
  unlocated : List (BitVec 64)
  warnings : List (BitVec 40)
  checked : BitVec 32
  pages : BitVec 32
  ms : BitVec 32
  complete : Bool
  byReset : Bool
  byMode : Bool
  deriving DecidableEq, Repr

/-- How the read of one unit goes (R331, R378): the further erasures of its slot's stripe beside members on lost dies, the slot
itself counted when it fails every stage; whether it took soft senses; whether its corrected bits exceed the early-warning
threshold. -/
structure UnitRead where
  bad : BitVec 5
  soft : Bool
  warn : Bool
  deriving DecidableEq, Repr

/-- A package, as its verification reports it (R486 to R488): its signatures, manifests and set of components verify; its parts
and stepping fit; the owner signing key under which its owner-signed components verify, if it has any; the security versions of kinds 1 to 7; the measurements of indexes 2 to 7; the version of the Facet image;
the entry and activation entry addresses of the core images. -/
structure Package where
  signed : Bool
  fits : Bool
  owner : Option (BitVec 384)
  secVer : List Nat
  measures : List (BitVec 384)
  version : BitVec 32
  entry : BitVec 16
  actEntry : BitVec 16
  deriving DecidableEq, Repr

/-- Where a copy of an image slot lies (R484): die index, first and second block. -/
structure CopyAt where
  die : BitVec 16
  first : BitVec 16
  second : BitVec 16
  deriving DecidableEq, Repr

/-- A method of an Opal session, or one that needs none, decoded (R457 to R460). Ranges are numbered as R455, authorities as log
entry 73 says. -/
inductive OpalMethod where
  /-- Sets ReadLocked and WriteLocked, each where it is given. -/
  | setLocks (range : BitVec 9) (read write : Option Bool)
  /-- Sets the lock enables, and whether LockOnReset lists power cycle and hardware reset. -/
  | setEnables (range : BitVec 9) (read write onReset : Bool)
  /-- Defines a locking range, or with length 0 removes it. -/
  | setRange (range : BitVec 9) (nsIndex : BitVec 8) (start len : BitVec 64)
  | setUsers (range : BitVec 9) (users : List (BitVec 7))
  | genKey (range : BitVec 9)
  | setPin (authority : BitVec 7) (pin : BitVec 256)
  | setTryLimit (authority : BitVec 7) (limit : BitVec 8)
  | resetTries (authority : BitVec 7)
  | enable (authority : BitVec 7) (on : Bool)
  | activate
  | startTransaction
  | endTransaction (commit : Bool)
  | endSession
  | revert
  | revertSp
  | psidRevert
  | blockSid
  /-- Reads or writes the Additional DataStore table. -/
  | readData (off : BitVec 20) (len : BitVec 16)
  | writeData (off : BitVec 20) (bytes : List (BitVec 8))
  deriving DecidableEq, Repr

/-- What carries a keyed-session or SPDM message (R462, R467): the management bus, or Security Send and Receive. -/
inductive Carrier where
  | bus | host
  deriving DecidableEq, Repr

/-- An enrolment (R465, R489): an owner key with its mask and iteration count, or the owner image keys, with whether the request
carries a good signature of the key enrolled before. -/
inductive Enrolment where
  | key (id : BitVec 3) (value : BitVec 256) (mask : BitVec 5) (iterations : BitVec 32)
  | image (signing : BitVec 384) (proved : Bool)
  deriving DecidableEq, Repr

/-- What a start finds (R25, R290, R469, R492, R493, R497): the crystal runs; RECOV_N is low; cores that fail their self-test;
slots of which no copy can be read; the row of the first of Signet's tests that fails, 0 none; sequencers whose load fails its
check; whether the start record can be made durable. -/
structure BootReport where
  crystal : Bool
  recovLow : Bool
  failedCores : List CoreId
  unreadable : List (BitVec 2)
  signetTest : BitVec 8
  seqFailed : List SeqId
  recordOk : Bool
  deriving DecidableEq, Repr
/-- The commands of the block, in the order of spec/opcode_table.json. -/
inductive Instr where
  /-- POWER_ON (R570). VAON rises through 0.70 V, Solitaire starts and the power-up sequence begins. -/
  | powerOn (addr : BitVec 2) (perstLow : Bool)
  /-- POWER_ON_RESET_END (R570). Power-on reset ends after rails, VCORE and crystal are ready, or without the crystal after 4 ms. -/
  | powerOnResetEnd (report : BootReport)
  /-- PERST_N_ASSERT (R41). PERST_N falls and causes a device reset. -/
  | perstNAssert
  /-- PERST_N_RELEASE (R570). PERST_N is released; a start through Boot begins at the later of this and the end of power-on reset. -/
  | perstNRelease (report : BootReport)
  /-- RAIL_BELOW_MINIMUM (R571). A rail monitor sees a rail below its minimum and asserts internal reset as a power loss. -/
  | railBelowMinimum (vaon : Bool)
  /-- VLKT_LOW (R521). VLKT falls below 1.71 V, setting VLKTLOW and refusing new Locket programs and erases. -/
  | vlktLow (mv : BitVec 11)
  /-- MODE_REQUEST (R42). A write of ARC_MODE.GO requests the mode or health change named in REQ. -/
  | modeRequest (who : Endpoint) (req : BitVec 4)
  /-- PACE_UPDATE (R29). The speed monitor updates ARC_PACE.RATE every 1 ms. -/
  | paceUpdate (rate : BitVec 16) (crystal : Bool)
  /-- OPERATING_POINT_UPDATE (R30). Firmware requests the lowest VCORE that meets its rate, at least every 100 ms or on a 3 % change. -/
  | operatingPointUpdate (who : Endpoint) (mv : BitVec 10)
  /-- AVS_VOLTAGE_WRITE (R572). A write of PWR_AVS.REQ sends a voltage request to the regulator over AVSBus. -/
  | avsVoltageWrite (who : Endpoint) (value : Word)
  /-- AVS_TRANSACTION_DONE (R572). An AVSBus transaction ends, updating PG, READ or ERR. -/
  | avsTransactionDone (mv : BitVec 10) (good ok : Bool)
  /-- CHAIN_DELIVERY (R22). A Chain message reaches its destination mailbox or hardware endpoint. -/
  | chainDelivery (src dst : Endpoint)
  /-- SEND_LIMIT_EXPIRY (R83). A csend held back longer than FCT_SENDLIM raises a Chain fault. -/
  | sendLimitExpiry (core : CoreId)
  /-- TX_LIMIT_EXPIRY (R87). A transaction open longer than FCT_TXLIM aborts with trap 0x07. -/
  | txLimitExpiry (core : CoreId)
  /-- WATCHDOG_EXPIRY (R68). A core's watchdog interval expires, trapping or setting WDPEND. -/
  | watchdogExpiry (core : CoreId)
  /-- ILLEGAL_OPCODE (R54). An instruction with an unassigned or illegal opcode or field takes trap 0x01. -/
  | illegalOpcode (core : CoreId) (f : Ecc) (word : BitVec 32)
  /-- ADD (R55). gd = a + b modulo 2^64. -/
  | add (core : CoreId) (f : Ecc) (gd ga gb : RegIdx)
  /-- SUB (R55). gd = a - b modulo 2^64. -/
  | sub (core : CoreId) (f : Ecc) (gd ga gb : RegIdx)
  /-- AND (R55). gd = a AND b. -/
  | and (core : CoreId) (f : Ecc) (gd ga gb : RegIdx)
  /-- OR (R55). gd = a OR b. -/
  | or (core : CoreId) (f : Ecc) (gd ga gb : RegIdx)
  /-- XOR (R55). gd = a XOR b. -/
  | xor (core : CoreId) (f : Ecc) (gd ga gb : RegIdx)
  /-- NOR (R55). gd = NOT (a OR b). -/
  | nor (core : CoreId) (f : Ecc) (gd ga gb : RegIdx)
  /-- SLL (R55). gd = a shifted left by b[5:0]. -/
  | sll (core : CoreId) (f : Ecc) (gd ga gb : RegIdx)
  /-- SRL (R55). gd = a shifted right by b[5:0] with zero fill. -/
  | srl (core : CoreId) (f : Ecc) (gd ga gb : RegIdx)
  /-- SRA (R55). gd = a shifted right by b[5:0] with sign fill. -/
  | sra (core : CoreId) (f : Ecc) (gd ga gb : RegIdx)
  /-- ROL (R55). gd = a rotated left by b[5:0]. -/
  | rol (core : CoreId) (f : Ecc) (gd ga gb : RegIdx)
  /-- SLT (R55). gd = 1 if a < b signed. -/
  | slt (core : CoreId) (f : Ecc) (gd ga gb : RegIdx)
  /-- SLTU (R55). gd = 1 if a < b unsigned. -/
  | sltu (core : CoreId) (f : Ecc) (gd ga gb : RegIdx)
  /-- MUL (R55). gd = low 64 bits of a × b. -/
  | mul (core : CoreId) (f : Ecc) (gd ga gb : RegIdx)
  /-- MULH (R55). gd = high 64 bits of a × b, signed. -/
  | mulh (core : CoreId) (f : Ecc) (gd ga gb : RegIdx)
  /-- MULHU (R55). gd = high 64 bits of a × b, unsigned. -/
  | mulhu (core : CoreId) (f : Ecc) (gd ga gb : RegIdx)
  /-- DIV (R56). Signed division that never traps. -/
  | div (core : CoreId) (f : Ecc) (gd ga gb : RegIdx)
  /-- REM (R56). Signed remainder that never traps. -/
  | rem (core : CoreId) (f : Ecc) (gd ga gb : RegIdx)
  /-- DIVU (R56). Unsigned division that never traps. -/
  | divu (core : CoreId) (f : Ecc) (gd ga gb : RegIdx)
  /-- REMU (R56). Unsigned remainder that never traps. -/
  | remu (core : CoreId) (f : Ecc) (gd ga gb : RegIdx)
  /-- MIN (R55). gd = smaller of a and b, signed. -/
  | min (core : CoreId) (f : Ecc) (gd ga gb : RegIdx)
  /-- MAX (R55). gd = larger of a and b, signed. -/
  | max (core : CoreId) (f : Ecc) (gd ga gb : RegIdx)
  /-- MINU (R55). gd = smaller of a and b, unsigned. -/
  | minu (core : CoreId) (f : Ecc) (gd ga gb : RegIdx)
  /-- MAXU (R55). gd = larger of a and b, unsigned. -/
  | maxu (core : CoreId) (f : Ecc) (gd ga gb : RegIdx)
  /-- CLZ (R55). gd = count of leading zeros of a. -/
  | clz (core : CoreId) (f : Ecc) (gd ga : RegIdx)
  /-- CTZ (R55). gd = count of trailing zeros of a. -/
  | ctz (core : CoreId) (f : Ecc) (gd ga : RegIdx)
  /-- POPC (R55). gd = count of ones in a. -/
  | popc (core : CoreId) (f : Ecc) (gd ga : RegIdx)
  /-- BSWAP (R55). gd = a with its bytes reversed. -/
  | bswap (core : CoreId) (f : Ecc) (gd ga : RegIdx)
  /-- PTEST (R55). gd = 1 if ga is poisoned, never poisoned itself. -/
  | ptest (core : CoreId) (f : Ecc) (gd ga : RegIdx)
  /-- PCLR (R55). gd = a with poison clear. -/
  | pclr (core : CoreId) (f : Ecc) (gd ga : RegIdx)
  /-- JR (R55). Jump to the address in ga. -/
  | jr (core : CoreId) (f : Ecc) (ga : RegIdx)
  /-- CALLR (R55). Write the link and jump to the address in ga. -/
  | callr (core : CoreId) (f : Ecc) (gd ga : RegIdx)
  /-- ADDI (R57). gd = a + sext(imm). -/
  | addi (core : CoreId) (f : Ecc) (gd ga : RegIdx) (imm : BitVec 16)
  /-- ANDI (R57). gd = a AND zext(imm). -/
  | andi (core : CoreId) (f : Ecc) (gd ga : RegIdx) (imm : BitVec 16)
  /-- ORI (R57). gd = a OR zext(imm). -/
  | ori (core : CoreId) (f : Ecc) (gd ga : RegIdx) (imm : BitVec 16)
  /-- XORI (R57). gd = a XOR zext(imm). -/
  | xori (core : CoreId) (f : Ecc) (gd ga : RegIdx) (imm : BitVec 16)
  /-- SLTI (R57). gd = 1 if a < sext(imm) signed. -/
  | slti (core : CoreId) (f : Ecc) (gd ga : RegIdx) (imm : BitVec 16)
  /-- SLTIU (R57). gd = 1 if a < sext(imm) unsigned. -/
  | sltiu (core : CoreId) (f : Ecc) (gd ga : RegIdx) (imm : BitVec 16)
  /-- SLLI (R57). gd = a shifted left by imm[5:0]. -/
  | slli (core : CoreId) (f : Ecc) (gd ga : RegIdx) (sh : BitVec 6)
  /-- SRLI (R57). gd = a shifted right by imm[5:0], zero fill. -/
  | srli (core : CoreId) (f : Ecc) (gd ga : RegIdx) (sh : BitVec 6)
  /-- SRAI (R57). gd = a shifted right by imm[5:0], sign fill. -/
  | srai (core : CoreId) (f : Ecc) (gd ga : RegIdx) (sh : BitVec 6)
  /-- LUI (R57). gd = zext(imm) shifted left by 16. -/
  | lui (core : CoreId) (f : Ecc) (gd : RegIdx) (imm : BitVec 16)
  /-- INS32 (R57). gd = a with bits [47:32] replaced by imm. -/
  | ins32 (core : CoreId) (f : Ecc) (gd ga : RegIdx) (imm : BitVec 16)
  /-- INS48 (R57). gd = a with bits [63:48] replaced by imm. -/
  | ins48 (core : CoreId) (f : Ecc) (gd ga : RegIdx) (imm : BitVec 16)
  /-- MULI (R57). gd = low 64 bits of a × sext(imm). -/
  | muli (core : CoreId) (f : Ecc) (gd ga : RegIdx) (imm : BitVec 16)
  /-- LPA (R57). gd = this instruction's address + sext(imm) × 4. -/
  | lpa (core : CoreId) (f : Ecc) (gd : RegIdx) (imm : BitVec 16)
  /-- CMPEQI (R57). gd = 1 if a = sext(imm). -/
  | cmpeqi (core : CoreId) (f : Ecc) (gd ga : RegIdx) (imm : BitVec 16)
  /-- LB (R58). Load a sign-extended byte. -/
  | lb (core : CoreId) (f : Ecc) (gd ga : RegIdx) (imm : BitVec 16) (ecc : Ecc)
  /-- LBU (R58). Load a zero-extended byte. -/
  | lbu (core : CoreId) (f : Ecc) (gd ga : RegIdx) (imm : BitVec 16) (ecc : Ecc)
  /-- LH (R58). Load a sign-extended half. -/
  | lh (core : CoreId) (f : Ecc) (gd ga : RegIdx) (imm : BitVec 16) (ecc : Ecc)
  /-- LHU (R58). Load a zero-extended half. -/
  | lhu (core : CoreId) (f : Ecc) (gd ga : RegIdx) (imm : BitVec 16) (ecc : Ecc)
  /-- LW (R58). Load a sign-extended word. -/
  | lw (core : CoreId) (f : Ecc) (gd ga : RegIdx) (imm : BitVec 16) (ecc : Ecc)
  /-- LWU (R58). Load a zero-extended word. -/
  | lwu (core : CoreId) (f : Ecc) (gd ga : RegIdx) (imm : BitVec 16) (ecc : Ecc)
  /-- LD (R58). Load a double. -/
  | ld (core : CoreId) (f : Ecc) (gd ga : RegIdx) (imm : BitVec 16) (ecc : Ecc)
  /-- LDR (R58). Load a double at ga + gb. -/
  | ldr (core : CoreId) (f : Ecc) (gd ga gb : RegIdx) (ecc : Ecc)
  /-- SB (R58). Store the low byte of gs. -/
  | sb (core : CoreId) (f : Ecc) (gs ga : RegIdx) (imm : BitVec 16) (ecc : Ecc)
  /-- SH (R58). Store the low half of gs. -/
  | sh (core : CoreId) (f : Ecc) (gs ga : RegIdx) (imm : BitVec 16) (ecc : Ecc)
  /-- SW (R58). Store the low word of gs. -/
  | sw (core : CoreId) (f : Ecc) (gs ga : RegIdx) (imm : BitVec 16) (ecc : Ecc)
  /-- SD (R58). Store the double gs. -/
  | sd (core : CoreId) (f : Ecc) (gs ga : RegIdx) (imm : BitVec 16) (ecc : Ecc)
  /-- SDR (R58). Store a double at ga + gb. -/
  | sdr (core : CoreId) (f : Ecc) (gs ga gb : RegIdx) (ecc : Ecc)
  /-- SDP (R58). Store gs and mark the double poisoned. -/
  | sdp (core : CoreId) (f : Ecc) (gs ga : RegIdx) (imm : BitVec 16) (ecc : Ecc)
  /-- ZL (R60). Write zeros with valid check bits to an aligned 64-byte block. -/
  | zl (core : CoreId) (f : Ecc) (ga : RegIdx) (imm : BitVec 16) (ecc : Ecc)
  /-- BEQ (R61). Branch if a = b. -/
  | beq (core : CoreId) (f : Ecc) (ga gb : RegIdx) (off : BitVec 16)
  /-- BNE (R61). Branch if a ≠ b. -/
  | bne (core : CoreId) (f : Ecc) (ga gb : RegIdx) (off : BitVec 16)
  /-- BLT (R61). Branch if a < b signed. -/
  | blt (core : CoreId) (f : Ecc) (ga gb : RegIdx) (off : BitVec 16)
  /-- BGE (R61). Branch if a ≥ b signed. -/
  | bge (core : CoreId) (f : Ecc) (ga gb : RegIdx) (off : BitVec 16)
  /-- BLTU (R61). Branch if a < b unsigned. -/
  | bltu (core : CoreId) (f : Ecc) (ga gb : RegIdx) (off : BitVec 16)
  /-- BGEU (R61). Branch if a ≥ b unsigned. -/
  | bgeu (core : CoreId) (f : Ecc) (ga gb : RegIdx) (off : BitVec 16)
  /-- BPO (R61). Branch if ga is poisoned, without the poison biting. -/
  | bpo (core : CoreId) (f : Ecc) (ga : RegIdx) (off : BitVec 16)
  /-- JUMP (R61). Go to the target unconditionally. -/
  | jump (core : CoreId) (f : Ecc) (off : BitVec 26)
  /-- CALL (R61). Write the link into g31 and go to the target. -/
  | call (core : CoreId) (f : Ecc) (off : BitVec 26)
  /-- ASWAP (R62). Atomically swap memory with b. -/
  | aswap (core : CoreId) (f : Ecc) (gd ga gb : RegIdx) (ecc : Ecc)
  /-- AADD (R62). Atomically add b to memory. -/
  | aadd (core : CoreId) (f : Ecc) (gd ga gb : RegIdx) (ecc : Ecc)
  /-- AAND (R62). Atomically AND b into memory. -/
  | aand (core : CoreId) (f : Ecc) (gd ga gb : RegIdx) (ecc : Ecc)
  /-- AOR (R62). Atomically OR b into memory. -/
  | aor (core : CoreId) (f : Ecc) (gd ga gb : RegIdx) (ecc : Ecc)
  /-- AXOR (R62). Atomically XOR b into memory. -/
  | axor (core : CoreId) (f : Ecc) (gd ga gb : RegIdx) (ecc : Ecc)
  /-- AMAXU (R62). Atomically keep the larger unsigned value. -/
  | amaxu (core : CoreId) (f : Ecc) (gd ga gb : RegIdx) (ecc : Ecc)
  /-- AMINU (R62). Atomically keep the smaller unsigned value. -/
  | aminu (core : CoreId) (f : Ecc) (gd ga gb : RegIdx) (ecc : Ecc)
  /-- CAS (R62). Atomic compare-and-swap returning the old value. -/
  | cas (core : CoreId) (f : Ecc) (gd ga gb : RegIdx) (ecc : Ecc)
  /-- SVC (R63). Take trap 0x0A, a service call to Signet. -/
  | svc (core : CoreId) (f : Ecc)
  /-- BRK (R63). Take trap 0x09, a breakpoint. -/
  | brk (core : CoreId) (f : Ecc)
  /-- LEAVE (R70). Return from a trap, handling BPSUP and a pending watchdog. -/
  | leave (core : CoreId) (f : Ecc)
  /-- FENCE (R52). Wait until earlier stores are visible and loads have returned. -/
  | fence (core : CoreId) (f : Ecc)
  /-- CTLGET (R63). Read a control register. -/
  | ctlget (core : CoreId) (f : Ecc) (gd : RegIdx) (cr : BitVec 5)
  /-- CTLPUT (R63). Write a control register. -/
  | ctlput (core : CoreId) (f : Ecc) (cr : BitVec 5) (ga : RegIdx)
  /-- CTLSET (R63). OR a value into a control register. -/
  | ctlset (core : CoreId) (f : Ecc) (cr : BitVec 5) (ga : RegIdx)
  /-- CTLCLR (R63). Clear bits of a control register. -/
  | ctlclr (core : CoreId) (f : Ecc) (cr : BitVec 5) (ga : RegIdx)
  /-- CSEND (R80). Send 64 bytes as a Chain message, waiting under back-pressure. -/
  | csend (core : CoreId) (f : Ecc) (gr ge : RegIdx) (mbx : BitVec 4) (ecc : Ecc)
  /-- CSENDNB (R80). Send a Chain message without waiting, reporting whether it was sent. -/
  | csendnb (core : CoreId) (f : Ecc) (gr ge : RegIdx) (mbx : BitVec 4) (ecc : Ecc)
  /-- CRECV (R80). Wait for and receive a message from a mailbox. -/
  | crecv (core : CoreId) (f : Ecc) (gr ge : RegIdx) (mbx : BitVec 4)
  /-- CRECVNB (R80). Receive a message from a mailbox without waiting. -/
  | crecvnb (core : CoreId) (f : Ecc) (gr ge : RegIdx) (mbx : BitVec 4)
  /-- CPOLL (R80). Report the state of the core's mailboxes. -/
  | cpoll (core : CoreId) (f : Ecc) (gr : RegIdx)
  /-- CWAIT (R80). Wait until a mailbox in the mask holds a message. -/
  | cwait (core : CoreId) (f : Ecc) (gr ge : RegIdx)
  /-- TBEGIN (R85). Open a transaction. -/
  | tbegin (core : CoreId) (f : Ecc)
  /-- TCOMMIT (R88). Write a checkpoint and apply every held effect as one step. -/
  | tcommit (core : CoreId) (f : Ecc)
  /-- TABORT (R85). Abandon the open transaction with trap 0x07. -/
  | tabort (core : CoreId) (f : Ecc) (ga : RegIdx)
  /-- TRESUME (R90). Load the core's last valid checkpoint and continue there. -/
  | tresume (core : CoreId) (f : Ecc)
  /-- TSTATE (R87). Read the transaction state word. -/
  | tstate (core : CoreId) (f : Ecc) (gd : RegIdx)
  /-- MLOOK (R93). Look up, pin, unpin or mark dirty a map page in the directory. -/
  | mlook (core : CoreId) (f : Ecc) (gd ga gb : RegIdx) (dir : Ecc)
  /-- BALLOC (R94). Allocate a bead for a requester class under R180. -/
  | balloc (core : CoreId) (f : Ecc) (gd ga : RegIdx)
  /-- BFREE (R92). Release a bead to the pool. -/
  | bfree (core : CoreId) (f : Ecc) (ga : RegIdx)
  /-- BGIVE (R94). Transfer a bead's grant to another endpoint. -/
  | bgive (core : CoreId) (f : Ecc) (gd ga gb : RegIdx)
  /-- CRCL (R95). CRC-32C update over 64 bytes. -/
  | crcl (core : CoreId) (f : Ecc) (gd ga gb : RegIdx) (ecc : Ecc)
  /-- CRCBD (R95). CRC-32C update over a bead's 4,096 data bytes. -/
  | crcbd (core : CoreId) (f : Ecc) (gd ga gb : RegIdx) (ecc : Ecc)
  /-- CRCD (R95). CRC-32C update over 8 bytes. -/
  | crcd (core : CoreId) (f : Ecc) (gd ga gb : RegIdx)
  /-- CRCW (R95). CRC-32C update over 4 bytes. -/
  | crcw (core : CoreId) (f : Ecc) (gd ga gb : RegIdx)
  /-- KHASH (R96). SipHash-2-4 of a under a key slot. -/
  | khash (core : CoreId) (f : Ecc) (gd ga gb : RegIdx)
  /-- GFMUL (R97). Multiply each byte by a scalar in GF(2^8). -/
  | gfmul (core : CoreId) (f : Ecc) (gd ga gb : RegIdx)
  /-- GFMULV (R97). Multiply bytes pairwise in GF(2^8). -/
  | gfmulv (core : CoreId) (f : Ecc) (gd ga gb : RegIdx)
  /-- FCT_MBX_WRITE (R102). A write sets a core's mailbox depths, refused when limits would be broken. -/
  | fctMbxWrite (who : Endpoint) (core : CoreId) (value : Word)
  /-- FCT_HKEY_WRITE (R101). A write of the high word makes a khash key slot take effect. -/
  | fctHkeyWrite (who : Endpoint) (slot : KeySlot) (high : Bool) (value : Word)
  /-- REGISTER_WRITE (R31). A write to a control-space register that has no behaviour of its own beyond its checks. -/
  | registerWrite (who : Endpoint) (off : BitVec 23) (value : Word)
  /-- CLASP_BREAK (R115). One side of a clasp is reset or stalls and the clasp goes to BROKEN. -/
  | claspBreak (c : ClaspId) (cause : BreakCause) (lost : Nat)
  /-- CLP_CLOSE (R116). Firmware writes CLOSE, starting the close handshake. -/
  | clpClose (who : Endpoint) (c : ClaspId)
  /-- CLP_OPEN (R114). Firmware opens a CLOSED clasp on purpose. -/
  | clpOpen (who : Endpoint) (c : ClaspId)
  /-- ISLAND_LEAVES_RESET (R116). The reset side of a clasp leaves reset and, with AUTO = 1, the close handshake starts. -/
  | islandLeavesReset (c : ClaspId)
  /-- CLOSE_HANDSHAKE_DONE (R116). The close words are compared and the clasp enters CLOSED or BROKEN. -/
  | closeHandshakeDone (c : ClaspId) (agree : Bool)
  /-- EVENT_LANE_TOGGLE (R107). A pulse on an event lane crosses or is merged into CLP_EVM. -/
  | eventLaneToggle (c : ClaspId) (lane : BitVec 5) (ackEnded : Bool)
  /-- SQ_TAIL_DOORBELL (R132). A host write to an SQ tail doorbell. -/
  | sqTailDoorbell (y : BitVec 16) (value : BitVec 32)
  /-- CQ_HEAD_DOORBELL (R132). A host write to a CQ head doorbell. -/
  | cqHeadDoorbell (y : BitVec 16) (value : BitVec 32)
  /-- FETCH_TURN (R133). The engine arbitrates among SQs and issues a fetch read. -/
  | fetchTurn
  /-- SQ_ENTRY_ARRIVAL (R134). Fetched command entries arrive and are checked, entered in the hazard table and dispatched. -/
  | sqEntryArrival (sq : BitVec 16) (cmd : NvmeCmd)
  /-- DSM_RANGE_LIST_ARRIVAL (R138). A Dataset Management range list arrives in a bead and its hazard entry is made. -/
  | dsmRangeListArrival (slot : SlotId) (ranges : List DsmRange) (err : Bool)
  /-- HQE_DISP_WRITE (R135). A dispatch table entry is written; commands waiting for a valid entry are dispatched. -/
  | hqeDispWrite (who : Endpoint) (entry : BitVec 8) (value : Word)
  /-- WRITE_DATA_GRANT (R139). The bead pool grants a group of beads to the engine and the host pull starts. -/
  | writeDataGrant (slot : SlotId)
  /-- WRITE_DATA_PULL_DONE (R139). The beads of a group are full and the engine sends write-data-ready. -/
  | writeDataPullDone (slot : SlotId) (units : List PulledUnit)
  /-- REPULL (R140). A core asks the engine to pull a unit again into a named bead. -/
  | repull (src : Endpoint) (slot unit bead : BitVec 16)
  /-- READ_DATA (R141). A core returns read data in beads for the engine to transfer. -/
  | readData (src : Endpoint) (slot : BitVec 16) (count : BitVec 8) (entries : List ReadEntry)
  /-- READ_TRANSFER_DONE (R141). A bead's transfer to the host ends and the bead returns to the pool. -/
  | readTransferDone (slot : SlotId) (bead : BeadId) (errors : List BeadError)
  /-- COMPLETION (R142). A core sends a completion message for a slot. -/
  | completion (src : Endpoint) (slot : BitVec 16) (status : BitVec 16) (flags : BitVec 8) (dw0 dw1 : BitVec 32)
  /-- COMPLETION_POST (R142). The engine posts the completion entry once transfers are issued and the CQ has room. -/
  | completionPost (slot : SlotId)
  /-- CC_WRITE (R136). A host write to CC that changes EN or SHN sends notice 0x06. -/
  | ccWrite (value : BitVec 32) (aqa : BitVec 32)
  /-- CONTROLLER_RESET (R165). FLR, hot reset, link disable or clearing CC.EN discards every slot and deletes the I/O queues. -/
  | controllerReset (cause : ControllerResetCause)
  /-- ENCRYPT_REQUEST (R454). A core asks the engine to encrypt a bead it built, in place. -/
  | encryptRequest (src : Endpoint) (req : EncryptReq) (errors : List BeadError)
  /-- CONFIG_REQUEST (R124). A PCI configuration request, answered with CRS until HQE_PCID is locked. -/
  | configRequest (access : HostAccess)
  /-- PCID_LOCK_TIMEOUT (R124). 1.0 s after L0 without LOCK the device answers configuration normally. -/
  | pcidLockTimeout
  /-- LINK_STATE_CHANGE (R136). The PCIe link changes state and the engine sends notice 0x05. -/
  | linkStateChange (rate : BitVec 3) (width : BitVec 5) (flit : Bool) (l0pw : BitVec 5) (ltssm : BitVec 6)
  /-- CREATE_IO_SQ (R131). The engine executes Create I/O SQ. -/
  | createIoSq (slot : SlotId)
  /-- CREATE_IO_CQ (R131). The engine executes Create I/O CQ. -/
  | createIoCq (slot : SlotId)
  /-- DELETE_IO_SQ (R164). The engine stops fetching from an SQ and sends cancels for its slots. -/
  | deleteIoSq (slot : SlotId)
  /-- DELETE_IO_SQ_DONE (R164). Delete I/O SQ completes once every slot of the SQ is free. -/
  | deleteIoSqDone (slot : SlotId)
  /-- DELETE_IO_CQ (R131). The engine executes Delete I/O CQ, refusing it while an SQ uses the CQ. -/
  | deleteIoCq (slot : SlotId)
  /-- GET_LOG_PAGE (R128). Admin command returning a standard or vendor log page. -/
  | getLogPage (slot : SlotId)
  /-- IDENTIFY (R129). Admin command returning Identify data. -/
  | identify (slot : SlotId)
  /-- ABORT (R163). Admin Abort, completed at once without aborting the named command. -/
  | abort (slot : SlotId)
  /-- SET_FEATURES (R127). Admin command setting a supported feature. -/
  | setFeatures (slot : SlotId)
  /-- POWER_MANAGEMENT_FEATURE (R529). Set Features Power Management selects a power state and may start sleep entry. -/
  | powerManagementFeature (slot : SlotId) (l12 : Bool)
  /-- TIMESTAMP_FEATURE (R541). Set Features Timestamp re-anchors the Timestamp and may extend band ages. -/
  | timestampFeature (slot : SlotId) (beads : List BeadId)
  /-- GET_FEATURES (R127). Admin command returning a feature value. -/
  | getFeatures (slot : SlotId)
  /-- ASYNC_EVENT_REQUEST (R126). Admin Asynchronous Event Request held until an event. -/
  | asyncEventRequest (slot : SlotId)
  /-- NAMESPACE_MANAGEMENT (R247). Admin command creating, resizing or deleting a namespace. -/
  | namespaceManagement (slot : SlotId) (beads : List BeadId)
  /-- NAMESPACE_ATTACHMENT (R171). Admin command attaching or detaching a namespace. -/
  | namespaceAttachment (slot : SlotId) (beads : List BeadId)
  /-- FIRMWARE_IMAGE_DOWNLOAD (R499). Admin command receiving a piece of a firmware package. -/
  | firmwareImageDownload (slot : SlotId) (beads : List BeadId)
  /-- FIRMWARE_COMMIT_REPLACE (R500). Firmware Commit CA 000b writes the download to a slot. -/
  | firmwareCommitReplace (slot : SlotId) (package : Option Package) (copies : List CopyAt)
  /-- FIRMWARE_COMMIT_REPLACE_NEXT (R500). Firmware Commit CA 001b writes the slot and makes it next-start. -/
  | firmwareCommitReplaceNext (slot : SlotId) (package : Option Package) (copies : List CopyAt)
  /-- FIRMWARE_COMMIT_NEXT_START (R500). Firmware Commit CA 010b makes an existing slot next-start. -/
  | firmwareCommitNextStart (slot : SlotId) (readable : Bool)
  /-- FIRMWARE_COMMIT_ACTIVATE (R500). Firmware Commit CA 011b activates an existing slot now. -/
  | firmwareCommitActivate (slot : SlotId) (readable : Bool)
  /-- DEVICE_SELF_TEST (R126). Admin Device Self-test command. -/
  | deviceSelfTest (slot : SlotId)
  /-- NVME_MI_SEND (R560). Admin NVMe-MI Send tunnelling an NVMe-MI request. -/
  | nvmeMiSend (slot : SlotId)
  /-- NVME_MI_RECEIVE (R560). Admin NVMe-MI Receive returning an NVMe-MI response. -/
  | nvmeMiReceive (slot : SlotId)
  /-- FORMAT_NVM (R170). Admin Format NVM of the affected namespaces. -/
  | formatNvm (slot : SlotId)
  /-- SECURITY_SEND (R457). Admin Security Send carried to Signet. -/
  | securitySend (slot : SlotId) (beads : List BeadId)
  /-- SECURITY_RECEIVE (R457). Admin Security Receive carried to Signet. -/
  | securityReceive (slot : SlotId)
  /-- SANITIZE_BLOCK_ERASE (R473). Sanitize replaces keys and erases every good block. -/
  | sanitizeBlockErase (slot : SlotId)
  /-- SANITIZE_OVERWRITE (R473). Sanitize replaces keys and overwrites every page with the pattern. -/
  | sanitizeOverwrite (slot : SlotId)
  /-- SANITIZE_CRYPTO_ERASE (R473). Sanitize replaces every MEK and deallocates the units. -/
  | sanitizeCryptoErase (slot : SlotId)
  /-- SANITIZE_EXIT_FAILURE_MODE (R475). Sanitize Exit Failure Mode leaves the failed state when AUSE = 1. -/
  | sanitizeExitFailureMode (slot : SlotId)
  /-- SCHEDULED_ACTIVATION (R504). Vendor admin command scheduling an activation at time T. -/
  | scheduledActivation (slot : SlotId) (readable : Bool)
  /-- SCHEDULED_ACTIVATION_CANCEL (R504). A Scheduled Activation with cancel ends the pending one with 0/0x07. -/
  | scheduledActivationCancel (slot : SlotId)
  /-- NVM_FLUSH (R158). Flush, completed with success at dispatch. -/
  | nvmFlush (slot : SlotId)
  /-- NVM_WRITE (R150). Write, placed in staging or directly in TLC and completed at each portion's commit point. -/
  | nvmWrite (slot : SlotId) (beads : List BeadId) (directAt stagingAt : List StripeAt)
  /-- NVM_READ (R153). Read, completed when every unit's data is issued to the host. -/
  | nvmRead (slot : SlotId) (reads : List UnitRead) (mirrorAt : Option StripeAt)
  /-- WRITE_UNCORRECTABLE (R219). Write Uncorrectable marks every unit in range poisoned. -/
  | writeUncorrectable (slot : SlotId)
  /-- NVM_COMPARE (R153). Compare reads every unit and compares it. -/
  | nvmCompare (slot : SlotId) (beads : List BeadId) (reads : List UnitRead)
  /-- WRITE_ZEROES (R218). Write Zeroes sets units to trimmed or written-as-zeros. -/
  | writeZeroes (slot : SlotId)
  /-- DATASET_MANAGEMENT (R218). Dataset Management, deallocating ranges when the attribute is set. -/
  | datasetManagement (slot : SlotId)
  /-- NVM_VERIFY (R153). Verify reads and checks every unit without transferring data. -/
  | nvmVerify (slot : SlotId) (reads : List UnitRead)
  /-- BPM_ENABLE (R178). A write of BPM_CTL.EN makes every non-retired bead free. -/
  | bpmEnable (who : Endpoint)
  /-- FREELIST_READY (R179). The threaded free list is built and BPM_STAT.READY becomes 1. -/
  | freelistReady
  /-- BPM_RETIRE_WRITE (R189). A write to BPM_RETIRE retires a free bead. -/
  | bpmRetireWrite (who : Endpoint) (bead : BeadId)
  /-- BEAD_COPY (R185). The manager copies a bead on request and replies. -/
  | beadCopy (src : Endpoint) (fromBead toBead : BeadId) (mbx : BitVec 4) (errors : List BeadError)
  /-- MAP_FILLED (R210). MAP_CMD FILLED makes a loading page clean. -/
  | mapFilled (who : Endpoint) (mpn : BitVec 32)
  /-- MAP_BUILT (R210). MAP_CMD BUILT makes a loading page dirty without reading flash. -/
  | mapBuilt (who : Endpoint) (mpn : BitVec 32)
  /-- MAP_ABANDON (R210). MAP_CMD ABANDON empties a loading way. -/
  | mapAbandon (who : Endpoint) (mpn : BitVec 32)
  /-- MAP_SNAP (R210). MAP_CMD SNAP marks a dirty page busy for copying out. -/
  | mapSnap (who : Endpoint) (mpn : BitVec 32)
  /-- MAP_COPIED (R210). MAP_CMD COPIED clears DIRTY and sets WB. -/
  | mapCopied (who : Endpoint) (mpn : BitVec 32)
  /-- MAP_WRITTEN (R210). MAP_CMD WRITTEN clears WB. -/
  | mapWritten (who : Endpoint) (mpn : BitVec 32)
  /-- MAP_EVICT (R210). MAP_CMD EVICT empties a clean unpinned page. -/
  | mapEvict (who : Endpoint) (mpn : BitVec 32)
  /-- MAP_PREFETCH (R210). MAP_CMD PREFETCH claims a way for an absent page and sends a miss message. -/
  | mapPrefetch (who : Endpoint) (mpn : BitVec 32)
  /-- MAP_REINIT (R210). MAP_CMD REINIT empties every way of a set. -/
  | mapReinit (who : Endpoint) (mpn : BitVec 32)
  /-- MAP_WRITEBACK (R212). The map task writes a dirty page back to flash. -/
  | mapWriteback (mpn : BitVec 32) (place : StripeAt)
  /-- JOURNAL_FLUSH_START (R222). A journal flush starts on age, count or an early request. -/
  | journalFlushStart
  /-- JOURNAL_FLUSH_DURABLE (R222). All units of a flush are programmed and it becomes durable. -/
  | journalFlushDurable
  /-- MAP_TABLE_SNAPSHOT (R223). Every 10 s the map page table snapshot is written into a system band. -/
  | mapTableSnapshot
  /-- FOLD (R216). Staged units of the oldest staging block move into TLC stripes. -/
  | fold (place : StripeAt) (warned : List (BitVec 40))
  /-- RECLAMATION (R235). The reclaim task picks a victim band and relocates its valid units. -/
  | reclamation (place : StripeAt) (warned : List (BitVec 40))
  /-- BAND_REFRESH_DUE (R237). A closed band becomes refresh-due by age or wear and is relocated. -/
  | bandRefreshDue (band : BitVec 45)
  /-- BLOCK_RELOCATION (R237). A single block's valid units are relocated after many reads or early warnings. -/
  | blockRelocation (block : BlockId) (place : StripeAt) (warned : List (BitVec 40))
  /-- BLOCK_ERASE (R233). Firmware erases released blocks in release order under the erase fence. -/
  | blockErase (block : BlockId) (good : Bool)
  /-- SKETCH_CLEAR (R240). All read-hot sketch counters clear at each 10 ms boundary. -/
  | sketchClear
  /-- HOT_CACHE_EVICT (R241). A cached unit not hit for 100 ms is evicted. -/
  | hotCacheEvict (ns : BitVec 8) (unit : BitVec 48)
  /-- WEAR_STAGE_RISE (R248). The wear stage rises when its condition holds and is logged. -/
  | wearStageRise
  /-- WEAR_SUMMARY (R250). Every 24 power-on hours firmware logs the wear summary. -/
  | wearSummary
  /-- RECOVERY (R266). Recovery rebuilds the map from snapshot, journal, tag scan and stripe journal. -/
  | recovery (bad warned : List (BitVec 40)) (failed : List BlockId) (rebuilt : BitVec 16) (again : Bool)
  /-- MAP_PAGE_REPLAY (R268). Map pages are brought current from the replay index after ready. -/
  | mapPageReplay (mpn : BitVec 32)
  /-- PFAIL_N_ASSERT (R273). PFAIL_N held low 1 µs stops new programs and triggers an early flush. -/
  | pfailNAssert
  /-- PFAIL_N_RELEASE (R274). PFAIL_N high for 1 ms resumes programs and erases. -/
  | pfailNRelease
  /-- PFAIL_N_STUCK (R274). PFAIL_N low for 100 ms is treated as faulty and ignored until reset. -/
  | pfailNStuck
  /-- PSQ_BRING_UP (R281). Setting PSQ_CTL.EN starts SDR reset and parameter-page reads on each CE. -/
  | psqBringUp (who : Endpoint) (q : SeqId)
  /-- PSQ_APPLY_RATE (R310). PSQ_RATE.APPLY starts full training at the new mode and rate. -/
  | psqApplyRate (who : Endpoint) (q : SeqId) (mode : BitVec 2) (mts : BitVec 12)
  /-- PSQ_TRAIN_FULL (R283). PSQ_TRAIN.FULL starts full training of the channel. -/
  | psqTrainFull (who : Endpoint) (q : SeqId)
  /-- PSQ_RETRIM (R282). PSQ_TRAIN.RETRIM starts a receive re-trim. -/
  | psqRetrim (who : Endpoint) (q : SeqId)
  /-- RETRIM_PERIODIC (R282). A receive re-trim starts every 1 s. -/
  | retrimPeriodic (q : SeqId)
  /-- RETRIM_TEMPERATURE (R282). A receive re-trim starts after a 10 °C junction change. -/
  | retrimTemperature (q : SeqId)
  /-- TRAINING_DONE (R283). Training or re-trim ends and CEOK reports the passing CEs. -/
  | trainingDone (q : SeqId) (good : Bool) (ceok : BitVec 4) (luns : BitVec 16)
  /-- PSQ_READ (R297). Sequencer request READ senses a page and passes slots to the Loupe channel. -/
  | psqRead (q : SeqId) (lookup : Ecc)
  /-- PSQ_PROG (R298). Sequencer request PROG transfers beads and confirms a one-shot or single-level program. -/
  | psqProg (q : SeqId)
  /-- PSQ_ERASE (R299). Sequencer request ERASE erases a block. -/
  | psqErase (q : SeqId)
  /-- PSQ_FEATS (R293). Sequencer request LUN Set Features. -/
  | psqFeats (q : SeqId)
  /-- PSQ_FEATG (R293). Sequencer request LUN Get Features. -/
  | psqFeatg (q : SeqId)
  /-- PSQ_STATUS (R293). Sequencer request Read Status Enhanced. -/
  | psqStatus (q : SeqId)
  /-- PSQ_RESET_LUN (R293). Sequencer request Reset LUN. -/
  | psqResetLun (q : SeqId)
  /-- PSQ_PARAM (R293). Sequencer request reading the parameter page into bead 0. -/
  | psqParam (q : SeqId)
  /-- PSQ_CUSTOMER (R289). Sequencer request 0x20-0x2F running customer microcode. -/
  | psqCustomer (q : SeqId)
  /-- DIE_OPERATION_COMPLETE (R295). A die reports ready and the sequencer sends the reply. -/
  | dieOperationComplete (q : SeqId) (lun : BitVec 4) (busyNs : BitVec 32) (pass : Bool) (data : List Byte) (errors : List BeadError)
  /-- PLANE_HOLD_TIMEOUT (R293). A held plane of a multi-plane PROG not followed within 100 µs is answered 0x07. -/
  | planeHoldTimeout (q : SeqId) (lun : BitVec 4)
  /-- DIE_TIMEOUT (R302). A die operation timer expires, Reset LUN is issued and status 0x03 returned. -/
  | dieTimeout (q : SeqId) (lun : BitVec 4) (resetOk : Bool)
  /-- SEQUENCER_FAILURE (R303). A sequencer fails by watchdog, stall, halt or overrun and the channel is switched to a spare. -/
  | sequencerFailure (q : SeqId)
  /-- SPARE_LOAD_DONE (R304). Signet finishes loading the spare and its clasps close. -/
  | spareLoadDone (q : SeqId) (good : Bool)
  /-- MICRO_NEXT (R285). Microword NEXT executes for ARG + 1 or c0 + 1 clocks. -/
  | microNext (q : SeqId) (seen expired : Bool) (status : BitVec 8)
  /-- MICRO_BR (R285). Microword BR branches on a condition. -/
  | microBr (q : SeqId) (seen expired : Bool) (status : BitVec 8)
  /-- MICRO_WAIT (R285). Microword WAIT waits for a condition or a timer. -/
  | microWait (q : SeqId) (seen expired : Bool) (status : BitVec 8)
  /-- MICRO_LOOP (R285). Microword LOOP decrements a counter and branches. -/
  | microLoop (q : SeqId) (seen expired : Bool) (status : BitVec 8)
  /-- MICRO_FAR (R285). Microword FAR jumps to ARG × 2. -/
  | microFar (q : SeqId) (seen expired : Bool) (status : BitVec 8)
  /-- MICRO_CALL (R285). Microword CALL jumps and pushes a return address. -/
  | microCall (q : SeqId) (seen expired : Bool) (status : BitVec 8)
  /-- MICRO_RET (R285). Microword RET returns to the popped address. -/
  | microRet (q : SeqId) (seen expired : Bool) (status : BitVec 8)
  /-- MICRO_END (R285). Microword END ends the request with a status. -/
  | microEnd (q : SeqId) (seen expired : Bool) (status : BitVec 8)
  /-- SLOT_CAPTURE (R318). A slot transfer is captured, its marks found and the slot framed. -/
  | slotCapture (chan : ChanId) (bytes : List Byte)
  /-- SLOT_DECODE_DONE (R327). An LDPC decoder finishes a slot and the bead and result word are written. -/
  | slotDecodeDone (chan : ChanId) (full : Bool)
  /-- ASY_RECORD (R346). Assay takes a learning record, discarding or accepting it. -/
  | asyRecord (ecc : Ecc)
  /-- ASY_LOAD (R348). ASY_CTL.LOAD starts reading the table and building the applied table. -/
  | asyLoad (who : Endpoint)
  /-- ASY_LOAD_DONE (R348). The load ends and ASY_STAT.READY becomes 1. -/
  | asyLoadDone
  /-- ASY_SNAP (R349). ASY_CTL.SNAP starts a copy of every entry. -/
  | asySnap (who : Endpoint)
  /-- ASY_SNAP_DONE (R349). The copy completes and SNAPOK becomes 1. -/
  | asySnapDone
  /-- ASY_ACQ (R350). ASY_CTL.ACQ sets N = 0 in every entry. -/
  | asyAcq (who : Endpoint)
  /-- ASY_FREEZE (R352). ASY_ECMD operation 1 sets the frozen flag. -/
  | asyFreeze (who : Endpoint) (allg : Bool)
  /-- ASY_THAW (R352). ASY_ECMD operation 2 clears the frozen flag. -/
  | asyThaw (who : Endpoint) (allg : Bool)
  /-- ASY_RESEED (R352). ASY_ECMD operation 3 reseeds the entry to zero. -/
  | asyReseed (who : Endpoint) (allg : Bool)
  /-- PAR_ENC (R373). Parity job ENC writes P and Q from the data beads. -/
  | parEnc (errors : List BeadError)
  /-- PAR_REC1 (R373). Parity job REC1 rebuilds one position. -/
  | parRec1 (errors : List BeadError)
  /-- PAR_REC2 (R373). Parity job REC2 rebuilds two positions. -/
  | parRec2 (errors : List BeadError)
  /-- PAR_CHECK (R373). Parity job CHECK compares and locates mismatches. -/
  | parCheck (errors : List BeadError)
  /-- PAR_JOB_DONE (R374). A parity job ends and the engine replies. -/
  | parJobDone
  /-- LUN_OFFLINE_TIMEOUT (R380). A LUN offline for 1 s makes its die lost. -/
  | lunOfflineTimeout (die : BitVec 9)
  /-- STRIPE_REPAIR (R382). A stripe with a slot failure on a good die is relocated within 10 s. -/
  | stripeRepair (places : List StripeAt) (warned : List (BitVec 40))
  /-- REBUILD (R383). Firmware rebuilds stripes of lost dies by relocating their valid units. -/
  | rebuild (places : List StripeAt) (warned : List (BitVec 40))
  /-- RESHAPE (R392). Reshape moves stripes to a new shape while serving I/O. -/
  | reshape (target : BitVec 5) (places : List StripeAt) (warned : List (BitVec 40))
  /-- PATROL_LAP (R395). Patrol reads and checks every closed stripe. -/
  | patrolLap (found : PassFindings)
  /-- RANGE_PASS (R397). A task requests a patrol pass over a range of stripes and gets a summary. -/
  | rangePass (first last : BitVec 64) (found : PassFindings)
  /-- STRIPE_JOURNAL_WRITE (R389). Records are written to all live stripe-journal copies. -/
  | stripeJournalWrite (failed : Option (Fin 3)) (die : BitVec 9)
  /-- SCRUB_ACCESS (R418). The scrubber reads, corrects and writes back one block or double in idle time. -/
  | scrubAccess (place : ScrubPlace) (ecc : Ecc)
  /-- MEC_DMARK_WRITE (R415). Firmware marks a DRAM device through MEC_DMARK. -/
  | mecDmarkWrite (who : Endpoint) (value : Word)
  /-- CE_SUMMARY (R419). Once per second firmware logs an Info record of correctable counts. -/
  | ceSummary
  /-- SCRUB_LAP_WARNING (R421). A lap longer than LAPWARN raises a Notice record. -/
  | scrubLapWarning (dram : Bool)
  /-- STALL_REPORT (R428). A handshake incomplete beyond its window is reported and attributed. -/
  | stallReport (place : StallPlace)
  /-- FLT_DECL_WRITE (R431). Firmware declares a core failed through FLT_DECL. -/
  | fltDeclWrite (who : Endpoint) (core : BitVec 6)
  /-- DDR5_RETRAIN_DONE (R437). A broken DDR5 island re-trains and re-closes and cut-off requests are reissued. -/
  | ddr5RetrainDone (chan : Fin 2)
  /-- INJECTOR_ARM (R440). A write sets ARM on an injector while GATE = 1. -/
  | injectorArm (who : Endpoint) (inj : Fin 8) (value : Word)
  /-- INJECTOR_TICK (R440). For kinds with no event stream, each microsecond after arming is an event. -/
  | injectorTick (inj : Fin 8)
  /-- SVC_RANDOM (R449). Signet service 0x01 returns random bytes. -/
  | svcRandom (src : Endpoint)
  /-- SVC_SECSEND (R449). Signet service 0x02 handles a Security Send payload. -/
  | svcSecsend (src : Endpoint)
  /-- SVC_SECRECV (R449). Signet service 0x03 produces Security Receive data. -/
  | svcSecrecv (src : Endpoint)
  /-- SVC_MGMT (R449). Signet service 0x04 handles an SPDM or keyed-session message. -/
  | svcMgmt (src : Endpoint)
  /-- SVC_NSKEY (R449). Signet service 0x05 creates, deletes or crypto-erases namespace keys. -/
  | svcNskey (src : Endpoint)
  /-- SVC_SANSTEP (R474). Signet service 0x06 performs the Signet part of a sanitize step. -/
  | svcSanstep (src : Endpoint) (ok : Bool) (bad : List BlockId) (ats : List StripeAt)
  /-- SVC_RELOAD (R449). Signet service 0x07 schedules a reload of a core's instruction store. -/
  | svcReload (src : Endpoint)
  /-- SVC_SELFTEST (R449). Signet service 0x08 runs the self-tests again. -/
  | svcSelftest (src : Endpoint) (failed : BitVec 8)
  /-- SVC_READY (R449). Signet service 0x09 ends Boot into the health level or Sanitize. -/
  | svcReady (src : Endpoint)
  /-- ENTROPY_HEALTH_FAIL (R470). A continuous entropy health test fails in service. -/
  | entropyHealthFail
  /-- OPAL_START_SESSION (R458). StartSession opens an Opal session for an authority. -/
  | opalStartSession (authority : BitVec 7) (pin : BitVec 256) (write : Bool)
  /-- OPAL_METHOD (R460). An Opal method within the session changes locks, PINs or keys. -/
  | opalMethod (m : OpalMethod)
  /-- OPAL_SESSION_TIMEOUT (R458). An Opal session closes after 30 s without a method. -/
  | opalSessionTimeout
  /-- KS_OPEN (R463). A keyed-session OPEN is answered with CHAL. -/
  | ksOpen (via : Carrier) (keyId : BitVec 3) (privs : BitVec 5) (nr : BitVec 256)
  /-- KS_PROVE (R463). A keyed-session PROVE is checked and answered with GRANT. -/
  | ksProve (via : Carrier) (proof : BitVec 384)
  /-- KS_CLOSE (R464). A keyed-session CLOSE ends the session. -/
  | ksClose (via : Carrier) (seq : BitVec 32) (macOk : Bool)
  /-- KS_IDLE_TIMEOUT (R464). A keyed session ends after 300 s without a message. -/
  | ksIdleTimeout
  /-- KS_LIFETIME_EXPIRY (R464). A keyed session ends after 8 h in all. -/
  | ksLifetimeExpiry
  /-- KS_LOG_READ (R465). Keyed-session command reading event records and vendor log pages. -/
  | ksLogRead (via : Carrier) (seq : BitVec 32) (macOk : Bool) (lid lsp : BitVec 8) (rae : Bool) (off len : BitVec 32)
  /-- KS_DRAIN (R168). Keyed-session command requesting Quiesce by queue drain. -/
  | ksDrain (via : Carrier) (seq : BitVec 32) (macOk : Bool)
  /-- KS_RELEASE (R168). Keyed-session command releasing the queue drain. -/
  | ksRelease (via : Carrier) (seq : BitVec 32) (macOk : Bool)
  /-- KS_INJECT (R465). Keyed-session command passing injector settings to firmware. -/
  | ksInject (via : Carrier) (seq : BitVec 32) (macOk : Bool) (setting : BitVec 512)
  /-- KS_ENROL (R465). Keyed-session command enrolling an owner key or image keys. -/
  | ksEnrol (via : Carrier) (seq : BitVec 32) (macOk : Bool) (what : Enrolment)
  /-- KS_REVOKE (R465). Keyed-session command revoking an owner key. -/
  | ksRevoke (via : Carrier) (seq : BitVec 32) (macOk : Bool) (id : BitVec 3)
  /-- KS_APPROVED_MODE (R472). Keyed-session command setting or clearing approved mode. -/
  | ksApprovedMode (via : Carrier) (seq : BitVec 32) (macOk : Bool) (on : Bool)
  /-- KS_ZEROISE (R471). Keyed-session command zeroising user secrets. -/
  | ksZeroise (via : Carrier) (seq : BitVec 32) (macOk : Bool)
  /-- KS_PSID_READ (R465). Keyed-session command reading the PSID. -/
  | ksPsidRead (via : Carrier) (seq : BitVec 32) (macOk : Bool)
  /-- SPDM_GET_VERSION (R467). SPDM GET_VERSION request. -/
  | spdmGetVersion (via : Carrier)
  /-- SPDM_GET_CAPABILITIES (R467). SPDM GET_CAPABILITIES request. -/
  | spdmGetCapabilities (via : Carrier) (version : BitVec 8)
  /-- SPDM_NEGOTIATE_ALGORITHMS (R467). SPDM NEGOTIATE_ALGORITHMS request. -/
  | spdmNegotiateAlgorithms (via : Carrier) (asym hash : BitVec 32)
  /-- SPDM_GET_DIGESTS (R467). SPDM GET_DIGESTS request. -/
  | spdmGetDigests (via : Carrier)
  /-- SPDM_GET_CERTIFICATE (R467). SPDM GET_CERTIFICATE request. -/
  | spdmGetCertificate (via : Carrier) (slot : BitVec 2) (off len : BitVec 16)
  /-- SPDM_CHALLENGE (R467). SPDM CHALLENGE answered within 20 ms. -/
  | spdmChallenge (via : Carrier) (slot : BitVec 2) (nonce : BitVec 256) (summary : BitVec 8)
  /-- SPDM_GET_MEASUREMENTS (R468). SPDM GET_MEASUREMENTS returning signed measurement blocks. -/
  | spdmGetMeasurements (via : Carrier) (index : BitVec 8) (signed : Bool) (nonce : BitVec 256)
  /-- SPDM_SET_CERTIFICATE (R467). SPDM SET_CERTIFICATE storing an owner chain. -/
  | spdmSetCertificate (via : Carrier) (slot : BitVec 2) (chain : List (BitVec 8)) (leafOk : Bool)
  /-- CORE_PARK (R502). A core parks for activation by a message to Signet mailbox 1. -/
  | corePark (core : CoreId)
  /-- ACTIVATION_DRAIN_TIMEOUT (R167). A drain not finished within 4 ms abandons the activation. -/
  | activationDrainTimeout
  /-- ACTIVATION_RELEASE (R503). At step 1 + 36 ms every held unit is released on the new images. -/
  | activationRelease (seqFailed : List SeqId) (recordOk : Bool)
  /-- SCHEDULED_ACTIVATION_TIME (R504). The Timestamp clock reaches T and the activation starts. -/
  | scheduledActivationTime
  /-- ROM_BEGIN (R506). ROM Recovery BEGIN with total length and target slot. -/
  | romBegin (via : Carrier) (len : BitVec 32) (target : BitVec 4)
  /-- ROM_DATA (R506). ROM Recovery DATA piece. -/
  | romData (via : Carrier) (off len : BitVec 32)
  /-- ROM_END (R506). ROM Recovery END verifies the package and starts writing it. -/
  | romEnd (via : Carrier) (package : Option Package)
  /-- ROM_STATUS (R507). ROM Recovery status request. -/
  | romStatus (via : Carrier)
  /-- ROM_RESET (R506). ROM Recovery RESET causes a device reset. -/
  | romReset (via : Carrier) (report : BootReport)
  /-- ROM_PACKAGE_WRITTEN (R506). The ROM finishes writing the package and the directory. -/
  | romPackageWritten (good : Bool) (copies : List CopyAt)
  /-- LOCKET_WINDOW_LOAD (R513). A Locket window load reads a codeword, suspending an erase of another sector. -/
  | locketWindowLoad (core : CoreId) (f : Ecc) (gd ga : RegIdx) (imm : BitVec 16) (ecc : Ecc)
  /-- LKT_UNLOCK (R515). A key write advances the Locket command sequence of a port. -/
  | lktUnlock (who : Endpoint) (value : Word)
  /-- LKT_SEQUENCE_TIMEOUT (R515). A gap over 10 µs ends the sequence with result 1. -/
  | lktSequenceTimeout (signet : Bool)
  /-- LKT_PROGRAM (R516). Locket PROGRAM writes one whole codeword. -/
  | lktProgram (who : Endpoint) (value : Word)
  /-- LKT_PROGRAM_DONE (R516). A Locket program verifies and sets DONE. -/
  | lktProgramDone (verified : Bool)
  /-- LKT_ERASE (R517). Locket ERASE clears a sector. -/
  | lktErase (who : Endpoint) (value : Word)
  /-- LKT_ERASE_DONE (R517). A Locket erase completes and clears INDET. -/
  | lktEraseDone (good : Bool)
  /-- LKT_ERASE_RESUME (R517). A suspended erase resumes after 2 µs with nothing pending. -/
  | lktEraseResume
  /-- LKT_CHECK (R520). Locket CHECK returns a codeword with its corrected bits and markers. -/
  | lktCheck (who : Endpoint) (value : Word) (ecc : Ecc)
  /-- LKT_WAIT_UPDATE (R519). Firmware recomputes LKT_WAIT.WS every 100 ms or on change. -/
  | lktWaitUpdate (who : Endpoint) (period : BitVec 16) (valid : Bool) (vaon : BitVec 10)
  /-- LOCKET_SCAN (R522). Signet CHECKs every written codeword at start and every 24 hours. -/
  | locketScan (found : List (BitVec 17 × Ecc))
  /-- PWR_SLEEP_GO (R532). A write of PWR_CTL.GO makes Solitaire perform the final entry step. -/
  | pwrSleepGo (who : Endpoint) (value : Word)
  /-- SLEEP_ENTRY_OVERRUN (R532). An entry step over its bound abandons the entry. -/
  | sleepEntryOverrun
  /-- WAKE_MANAGEMENT_BUS (R536). A management-bus write to the address ends in STOP and wakes the device. -/
  | wakeManagementBus (bytes : List (BitVec 8))
  /-- WAKE_PCIE (R535). PCIe activity or CLKREQ_N wakes the device. -/
  | wakePcie
  /-- WAKE_ALARM (R538). The ring alarm wakes the device for maintenance. -/
  | wakeAlarm
  /-- WAKE_POWER_GOOD (R537). The regulator reports power good during wake and the crystal starts. -/
  | wakePowerGood (mv : BitVec 10)
  /-- WAKE_CRYSTAL_STABLE (R537). The crystal is stable; arrays power up and the mode is restored or Boot starts. -/
  | wakeCrystalStable (count : BitVec 48) (report : BootReport)
  /-- WAKE_ATTEMPT_FAIL (R539). Power good or crystal is late by 2 ms and the wake is retried or fails. -/
  | wakeAttemptFail (count : BitVec 48) (report : BootReport)
  /-- PAD_HOLD_RELEASE (R534). A write to PAD_HOLD releases a pad group. -/
  | padHoldRelease (who : Endpoint) (value : Word)
  /-- TMR_STAMP_WRITE (R546). A write to TMR_STAMP re-anchors the Timestamp and clears EST and SYNCH. -/
  | tmrStampWrite (who : Endpoint) (value : Word)
  /-- EVR_LOG_MESSAGE (R548). The event recorder takes a record message and accepts it into the ring. -/
  | evrLogMessage (src : Endpoint) (mbx : BitVec 4) (sub : BitVec 12) (payload : BitVec 512)
  /-- EVR_CONTINUATION_TIMEOUT (R550). A held first record with no continuation within 1 ms is discarded. -/
  | evrContinuationTimeout (src : Endpoint)
  /-- EVR_ENABLE (R553). Setting EVR_CTL.EN moves held records into the ring. -/
  | evrEnable (who : Endpoint)
  /-- COUNTER_CODEWORD_WRITE (R556). Signet writes an operating-counter codeword every 6 minutes and on events. -/
  | counterCodewordWrite
  /-- LOG_SNAPSHOT_EXPIRY (R557). A page 0xC0 snapshot lapses after 60 s. -/
  | logSnapshotExpiry (mgmt : Bool)
  /-- LIFETIME_COUNT_SAVE (R558). Firmware saves the health-log lifetime counts every 60 s. -/
  | lifetimeCountSave
  /-- ALERT_RESPONSE_READ (R561). A read of the SMBus Alert Response Address returns the address and releases MB_ALERT_N. -/
  | alertResponseRead
  /-- MCTP_SET_ENDPOINT_ID (R559). MCTP control command Set Endpoint ID. -/
  | mctpSetEndpointId (op : BitVec 2) (eid : BitVec 8)
  /-- MCTP_GET_ENDPOINT_ID (R559). MCTP control command Get Endpoint ID. -/
  | mctpGetEndpointId
  /-- MCTP_GET_VERSION_SUPPORT (R559). MCTP control command Get MCTP Version Support. -/
  | mctpGetVersionSupport (type : BitVec 8)
  /-- MCTP_GET_MESSAGE_TYPE_SUPPORT (R559). MCTP control command Get Message Type Support. -/
  | mctpGetMessageTypeSupport
  /-- MCTP_GET_VENDOR_MESSAGE_SUPPORT (R559). MCTP control command Get Vendor Defined Message Support. -/
  | mctpGetVendorMessageSupport (selector : BitVec 8)
  /-- MI_READ_DATA_STRUCTURE (R560). NVMe-MI Read NVMe-MI Data Structure. -/
  | miReadDataStructure (nmd0 : BitVec 32)
  /-- MI_SUBSYSTEM_HEALTH_POLL (R560). NVMe-MI NVM Subsystem Health Status Poll. -/
  | miSubsystemHealthPoll
  /-- MI_CONTROLLER_HEALTH_POLL (R560). NVMe-MI Controller Health Status Poll. -/
  | miControllerHealthPoll (nmd0 : BitVec 32)
  /-- MI_CONFIGURATION_GET (R560). NVMe-MI Configuration Get. -/
  | miConfigurationGet (nmd0 : BitVec 32)
  /-- MI_CONFIGURATION_SET (R560). NVMe-MI Configuration Set of frequency or transmission unit. -/
  | miConfigurationSet (nmd0 nmd1 : BitVec 32)
  /-- MI_TUNNELLED_ADMIN (R560). An admin command tunnelled over NVMe-MI. -/
  | miTunnelledAdmin (cmd : NvmeCmd)
  /-- THERMAL_LIMIT (R583). Firmware limits power at 121 °C or 124 °C and lifts it 3 °C lower. -/
  | thermalLimit (composite : Int)
  /-- THERMAL_TRIP (R583). A sensor at 130 °C for 1 ms trips a fatal fault. -/
  | thermalTrip
  /-- NVM_SUBSYSTEM_RESET (R125). A host write of NSSR in BAR0 causes a device reset and a pass through Boot. -/
  | nvmSubsystemReset (report : BootReport)
  /-- HOST_READ_ERROR (R123). A poisoned, Unsupported Request or Completer Abort completion for a read of host memory ends that transfer with Data Transfer Error. -/
  | hostReadError (target : HostRead) (error : ReadError)
  /-- COMPLETION_TIMEOUT (R123). A read of host memory gets no completion within the completion timeout range and the transfer ends with Data Transfer Error. -/
  | completionTimeout (target : HostRead)
  /-- INTERRUPT_COALESCING_TIME (R142). The aggregation time of the Interrupt Coalescing feature runs out and the pending MSI-X write for a vector is issued. -/
  | interruptCoalescingTime (vector : BitVec 11)
  /-- DIRECT_GROUP_TIMEOUT (R214). No further direct portion arrives within 200 µs of the first of a wordline group, so the remaining pages are filled with fold units. -/
  | directGroupTimeout (places : List StripeAt)
  /-- STAGING_STRIPE_TIMEOUT (R376). A staging stripe is issued 4 µs after its first unit is ready, with its remaining slots padded. -/
  | stagingStripeTimeout (place : StripeAt)
  /-- HEALTH_SUMMARY (R438). Every 24 power-on hours firmware logs the health summary of FCT_SPARE, ARC_PQFENCE, marked devices and FCT_TAKE. -/
  | healthSummary (src : CoreId)
  /-- VLKT_RESTORED (R521). VLKT returns above 1.71 V, VLKTLOW clears and Locket programs and erases are accepted again. -/
  | vlktRestored (mv : BitVec 11)
  /-- MB_TRANSACTION_DURING_WAKE (R536). A further management-bus transaction to the device's address during wake is not acknowledged, and the wake-buffer message reports the loss. -/
  | mbTransactionDuringWake
  /-- NVME_MI_INVALID_OPCODE (R560). An NVMe-MI VPD Read, VPD Write, Reset or other unaccepted command or tunnelled admin opcode is answered with Invalid Command Opcode. -/
  | nvmeMiInvalidOpcode (op : BitVec 8) (tunnelled : Bool)
  deriving DecidableEq, Repr

end Sys2Proof
end

