-- ==== Sys2Proof/Decode.lean ====
section
/-! DEFINITION. The words of the Facet instructions: their formats, the words that are illegal, the word that each command of
a core stands for, and the command that a word spells (R53 to R55, R57, R58, R61 to R63, R80, R85, R92). The rows of
spec/opcode_table.json themselves give no bits. -/

namespace Sys2Proof

/-! ### Formats (R53) -/

/-- The fields of an instruction word. -/
def wMajor (w : BitVec 32) : Nat := (w >>> 26).toNat
def wD (w : BitVec 32) : Nat := (w >>> 21).toNat % 32
def wA (w : BitVec 32) : Nat := (w >>> 16).toNat % 32
def wB (w : BitVec 32) : Nat := (w >>> 11).toNat % 32
def wFunc (w : BitVec 32) : Nat := w.toNat % 2 ^ 11
def wMbx (w : BitVec 32) : Nat := w.toNat / 2 ^ 12 % 16
def wSub (w : BitVec 32) : Nat := w.toNat % 2 ^ 12
def wOp (w : BitVec 32) : Nat := w.toNat % 2 ^ 6
def wCr (w : BitVec 32) : Nat := w.toNat / 2 ^ 6 % 32
def wImm (w : BitVec 32) : Nat := w.toNat % 2 ^ 16
def wOff26 (w : BitVec 32) : Nat := w.toNat % 2 ^ 26

/-- A word of Format A, of Formats I and B, of Format J and of Format C, from its fields. -/
def wordA (major gd ga gb func : Nat) : Nat := major * 2 ^ 26 + gd * 2 ^ 21 + ga * 2 ^ 16 + gb * 2 ^ 11 + func
def wordI (major d a imm : Nat) : Nat := major * 2 ^ 26 + d * 2 ^ 21 + a * 2 ^ 16 + imm
def wordJ (major off : Nat) : Nat := major * 2 ^ 26 + off
def wordC (gr ge mbx sub : Nat) : Nat := wordI 0x3C gr ge (mbx * 2 ^ 12 + sub)

/-- The word of a system instruction (R63). -/
def systemWord (gd ga cr op : Nat) : Nat := wordA 0x3E gd ga 0 (cr * 2 ^ 6 + op)

/-! ### Illegal words (R53, R54, R67) -/

/-- The detail for a Format A word: the function is among `fs`, each with the fields that are zero for it. -/
def formatA (w : BitVec 32) (fs : List (Nat × Bool × Bool × Bool)) : Option Nat :=
  match fs.find? (fun e => e.1 == wFunc w) with
  | none => some 2
  | some e => if (e.2.1 && wD w != 0) || (e.2.2.1 && wA w != 0) || (e.2.2.2 && wB w != 0) then some 3 else none

/-- Functions of major 0x00 with their zero fields `gd`, `ga`, `gb` (R55): `callr` has none, and does not read `gb`. -/
def aluFuncs : List (Nat × Bool × Bool × Bool) :=
  ((List.range 0x17).map fun k => (k, false, false, false)) ++
    [(0x17, false, false, true), (0x18, false, false, true), (0x19, false, false, true), (0x1A, false, false, true),
     (0x20, false, false, true), (0x21, false, false, true), (0x30, true, false, true), (0x31, false, false, false)]

/-- Functions of majors 0x30, 0x34 and 0x38 (R62, R85, R92). -/
def atomicFuncs : List (Nat × Bool × Bool × Bool) :=
  [0, 1, 2, 3, 4, 5, 6, 8].map fun k => (k, false, false, false)
def assistFuncs : List (Nat × Bool × Bool × Bool) :=
  [(0, false, false, false), (1, false, false, true), (2, true, false, true)] ++
    [3, 4, 5, 6, 7, 8, 9, 10].map fun k => (k, false, false, false)
def txFuncs : List (Nat × Bool × Bool × Bool) :=
  [(0, true, true, true), (1, true, true, true), (2, true, false, true), (3, true, true, true), (4, false, true, true)]

/-- The detail for a Chain word (R80). -/
def chainDetail (w : BitVec 32) : Option Nat :=
  let sub := wSub w
  let mbx := wMbx w
  if sub = 0 ∨ sub = 1 ∨ sub = 0x10 ∨ sub = 0x11 then none
  else if sub = 0x20 then (if wA w != 0 || mbx != 0 then some 3 else none)
  else if sub = 0x21 then (if mbx != 0 then some 3 else none)
  else some 2

/-- The detail for a system word (R63, R64): a non-zero zero field comes before the control-register number and type, which the
instructions themselves check (log entry 140). -/
def systemDetail (w : BitVec 32) : Option Nat :=
  let op := wOp w
  let cr := wCr w
  if op = 1 ∨ op = 2 ∨ op = 3 ∨ op = 4 then
    (if cr != 0 || wD w != 0 || wA w != 0 || wB w != 0 then some 3 else none)
  else if op = 0x10 then (if wA w != 0 || wB w != 0 then some 3 else none)
  else if op = 0x11 ∨ op = 0x12 ∨ op = 0x13 then (if wD w != 0 || wB w != 0 then some 3 else none)
  else some 2

/-- The detail of trap 0x01 that an instruction word takes by itself; none for a word that spells an instruction (R53,
R54, R67). -/
def illegalDetail (w : BitVec 32) : Option Nat :=
  let m := wMajor w
  if m = 0x3F then some 4
  else if m = 0 then formatA w aluFuncs
  else if 7 ≤ m ∧ m ≤ 9 then (if w.toNat / 2 ^ 6 % 2 ^ 10 != 0 then some 3 else none)
  else if m = 0x0A ∨ m = 0x0E then (if wA w != 0 then some 3 else none)
  else if m ≤ 0x16 then none
  else if m = 0x17 ∨ m = 0x1C then (if wFunc w != 0 then some 3 else none)
  else if m = 0x1E then (if wD w != 0 then some 3 else none)
  else if m ≤ 0x1D then none
  else if m = 0x1F then some 1
  else if m ≤ 0x25 then none
  else if m = 0x26 then (if wA w != 0 then some 3 else none)
  else if m = 0x28 ∨ m = 0x29 then none
  else if m = 0x30 then formatA w atomicFuncs
  else if m = 0x34 then formatA w assistFuncs
  else if m = 0x38 then formatA w txFuncs
  else if m = 0x3C then chainDetail w
  else if m = 0x3E then systemDetail w
  else some 1


/-! ### The word of each command of a core -/

/-- The word of the instruction that a core executes; none for the other commands. LOCKET_WINDOW_LOAD is a load by any of the
load instructions, whose words stand with those. -/
def facetWordNat : Instr → Option Nat
  | .add _ _ gd ga gb => some (wordA 0 gd ga gb 0x0)
  | .sub _ _ gd ga gb => some (wordA 0 gd ga gb 0x1)
  | .and _ _ gd ga gb => some (wordA 0 gd ga gb 0x2)
  | .or _ _ gd ga gb => some (wordA 0 gd ga gb 0x3)
  | .xor _ _ gd ga gb => some (wordA 0 gd ga gb 0x4)
  | .nor _ _ gd ga gb => some (wordA 0 gd ga gb 0x5)
  | .sll _ _ gd ga gb => some (wordA 0 gd ga gb 0x6)
  | .srl _ _ gd ga gb => some (wordA 0 gd ga gb 0x7)
  | .sra _ _ gd ga gb => some (wordA 0 gd ga gb 0x8)
  | .rol _ _ gd ga gb => some (wordA 0 gd ga gb 0x9)
  | .slt _ _ gd ga gb => some (wordA 0 gd ga gb 0xA)
  | .sltu _ _ gd ga gb => some (wordA 0 gd ga gb 0xB)
  | .mul _ _ gd ga gb => some (wordA 0 gd ga gb 0xC)
  | .mulh _ _ gd ga gb => some (wordA 0 gd ga gb 0xD)
  | .mulhu _ _ gd ga gb => some (wordA 0 gd ga gb 0xE)
  | .div _ _ gd ga gb => some (wordA 0 gd ga gb 0xF)
  | .rem _ _ gd ga gb => some (wordA 0 gd ga gb 0x10)
  | .divu _ _ gd ga gb => some (wordA 0 gd ga gb 0x11)
  | .remu _ _ gd ga gb => some (wordA 0 gd ga gb 0x12)
  | .min _ _ gd ga gb => some (wordA 0 gd ga gb 0x13)
  | .max _ _ gd ga gb => some (wordA 0 gd ga gb 0x14)
  | .minu _ _ gd ga gb => some (wordA 0 gd ga gb 0x15)
  | .maxu _ _ gd ga gb => some (wordA 0 gd ga gb 0x16)
  | .clz _ _ gd ga => some (wordA 0 gd ga 0 0x17)
  | .ctz _ _ gd ga => some (wordA 0 gd ga 0 0x18)
  | .popc _ _ gd ga => some (wordA 0 gd ga 0 0x19)
  | .bswap _ _ gd ga => some (wordA 0 gd ga 0 0x1A)
  | .ptest _ _ gd ga => some (wordA 0 gd ga 0 0x20)
  | .pclr _ _ gd ga => some (wordA 0 gd ga 0 0x21)
  | .jr _ _ ga => some (wordA 0 0 ga 0 0x30)
  | .callr _ _ gd ga => some (wordA 0 gd ga 0 0x31)
  | .addi _ _ gd ga imm => some (wordI 0x1 gd ga imm.toNat)
  | .andi _ _ gd ga imm => some (wordI 0x2 gd ga imm.toNat)
  | .ori _ _ gd ga imm => some (wordI 0x3 gd ga imm.toNat)
  | .xori _ _ gd ga imm => some (wordI 0x4 gd ga imm.toNat)
  | .slti _ _ gd ga imm => some (wordI 0x5 gd ga imm.toNat)
  | .sltiu _ _ gd ga imm => some (wordI 0x6 gd ga imm.toNat)
  | .ins32 _ _ gd ga imm => some (wordI 0xB gd ga imm.toNat)
  | .ins48 _ _ gd ga imm => some (wordI 0xC gd ga imm.toNat)
  | .muli _ _ gd ga imm => some (wordI 0xD gd ga imm.toNat)
  | .cmpeqi _ _ gd ga imm => some (wordI 0xF gd ga imm.toNat)
  | .slli _ _ gd ga sh => some (wordI 0x7 gd ga sh.toNat)
  | .srli _ _ gd ga sh => some (wordI 0x8 gd ga sh.toNat)
  | .srai _ _ gd ga sh => some (wordI 0x9 gd ga sh.toNat)
  | .lui _ _ gd imm => some (wordI 0xA gd 0 imm.toNat)
  | .lpa _ _ gd imm => some (wordI 0xE gd 0 imm.toNat)
  | .lb _ _ gd ga imm _ => some (wordI 0x10 gd ga imm.toNat)
  | .lbu _ _ gd ga imm _ => some (wordI 0x11 gd ga imm.toNat)
  | .lh _ _ gd ga imm _ => some (wordI 0x12 gd ga imm.toNat)
  | .lhu _ _ gd ga imm _ => some (wordI 0x13 gd ga imm.toNat)
  | .lw _ _ gd ga imm _ => some (wordI 0x14 gd ga imm.toNat)
  | .lwu _ _ gd ga imm _ => some (wordI 0x15 gd ga imm.toNat)
  | .ld _ _ gd ga imm _ => some (wordI 0x16 gd ga imm.toNat)
  | .ldr _ _ gd ga gb _ => some (wordA 0x17 gd ga gb 0)
  | .sb _ _ gs ga imm _ => some (wordI 0x18 gs ga imm.toNat)
  | .sh _ _ gs ga imm _ => some (wordI 0x19 gs ga imm.toNat)
  | .sw _ _ gs ga imm _ => some (wordI 0x1A gs ga imm.toNat)
  | .sd _ _ gs ga imm _ => some (wordI 0x1B gs ga imm.toNat)
  | .sdp _ _ gs ga imm _ => some (wordI 0x1D gs ga imm.toNat)
  | .sdr _ _ gs ga gb _ => some (wordA 0x1C gs ga gb 0)
  | .zl _ _ ga imm _ => some (wordI 0x1E 0 ga imm.toNat)
  | .beq _ _ ga gb off => some (wordI 0x20 ga gb off.toNat)
  | .bne _ _ ga gb off => some (wordI 0x21 ga gb off.toNat)
  | .blt _ _ ga gb off => some (wordI 0x22 ga gb off.toNat)
  | .bge _ _ ga gb off => some (wordI 0x23 ga gb off.toNat)
  | .bltu _ _ ga gb off => some (wordI 0x24 ga gb off.toNat)
  | .bgeu _ _ ga gb off => some (wordI 0x25 ga gb off.toNat)
  | .bpo _ _ ga off => some (wordI 0x26 ga 0 off.toNat)
  | .jump _ _ off => some (wordJ 0x28 off.toNat)
  | .call _ _ off => some (wordJ 0x29 off.toNat)
  | .aswap _ _ gd ga gb _ => some (wordA 0x30 gd ga gb 0x0)
  | .aadd _ _ gd ga gb _ => some (wordA 0x30 gd ga gb 0x1)
  | .aand _ _ gd ga gb _ => some (wordA 0x30 gd ga gb 0x2)
  | .aor _ _ gd ga gb _ => some (wordA 0x30 gd ga gb 0x3)
  | .axor _ _ gd ga gb _ => some (wordA 0x30 gd ga gb 0x4)
  | .amaxu _ _ gd ga gb _ => some (wordA 0x30 gd ga gb 0x5)
  | .aminu _ _ gd ga gb _ => some (wordA 0x30 gd ga gb 0x6)
  | .cas _ _ gd ga gb _ => some (wordA 0x30 gd ga gb 0x8)
  | .mlook _ _ gd ga gb _ => some (wordA 0x34 gd ga gb 0)
  | .balloc _ _ gd ga => some (wordA 0x34 gd ga 0 1)
  | .bfree _ _ ga => some (wordA 0x34 0 ga 0 2)
  | .crcl _ _ gd ga gb _ => some (wordA 0x34 gd ga gb 4)
  | .crcbd _ _ gd ga gb _ => some (wordA 0x34 gd ga gb 5)
  | .bgive _ _ gd ga gb => some (wordA 0x34 gd ga gb 3)
  | .crcd _ _ gd ga gb => some (wordA 0x34 gd ga gb 6)
  | .crcw _ _ gd ga gb => some (wordA 0x34 gd ga gb 7)
  | .khash _ _ gd ga gb => some (wordA 0x34 gd ga gb 8)
  | .gfmul _ _ gd ga gb => some (wordA 0x34 gd ga gb 9)
  | .gfmulv _ _ gd ga gb => some (wordA 0x34 gd ga gb 10)
  | .tbegin _ _ => some (wordA 0x38 0 0 0 0)
  | .tcommit _ _ => some (wordA 0x38 0 0 0 1)
  | .tabort _ _ ga => some (wordA 0x38 0 ga 0 2)
  | .tresume _ _ => some (wordA 0x38 0 0 0 3)
  | .tstate _ _ gd => some (wordA 0x38 gd 0 0 4)
  | .csend _ _ gr ge mbx _ => some (wordC gr ge mbx.toNat 0)
  | .csendnb _ _ gr ge mbx _ => some (wordC gr ge mbx.toNat 1)
  | .crecv _ _ gr ge mbx => some (wordC gr ge mbx.toNat 0x10)
  | .crecvnb _ _ gr ge mbx => some (wordC gr ge mbx.toNat 0x11)
  | .cpoll _ _ gr => some (wordC gr 0 0 0x20)
  | .cwait _ _ gr ge => some (wordC gr ge 0 0x21)
  | .svc _ _ => some (systemWord 0 0 0 1)
  | .brk _ _ => some (systemWord 0 0 0 2)
  | .leave _ _ => some (systemWord 0 0 0 3)
  | .fence _ _ => some (systemWord 0 0 0 4)
  | .ctlget _ _ gd cr => some (systemWord gd 0 cr.toNat 0x10)
  | .ctlput _ _ cr ga => some (systemWord 0 ga cr.toNat 0x11)
  | .ctlset _ _ cr ga => some (systemWord 0 ga cr.toNat 0x12)
  | .ctlclr _ _ cr ga => some (systemWord 0 ga cr.toNat 0x13)
  | _ => none

/-- The word of the instruction that a core executes. -/
def facetWord (i : Instr) : Option (BitVec 32) := (facetWordNat i).map (BitVec.ofNat 32)

/-! ### The command that a word spells -/

/-- The register fields. -/
def rD (w : BitVec 32) : RegIdx := Fin.ofNat 32 (wD w)
def rA (w : BitVec 32) : RegIdx := Fin.ofNat 32 (wA w)
def rB (w : BitVec 32) : RegIdx := Fin.ofNat 32 (wB w)
def iImm (w : BitVec 32) : BitVec 16 := BitVec.ofNat 16 (wImm w)
def iMbx (w : BitVec 32) : BitVec 4 := BitVec.ofNat 4 (wMbx w)
def iCr (w : BitVec 32) : BitVec 5 := BitVec.ofNat 5 (wCr w)

/-- Major 0x00 (R55). -/
def aluOf (n : CoreId) (f : Ecc) (w : BitVec 32) : Option Instr :=
  match wFunc w with
  | 0x0 => some (.add n f (rD w) (rA w) (rB w))
  | 0x1 => some (.sub n f (rD w) (rA w) (rB w))
  | 0x2 => some (.and n f (rD w) (rA w) (rB w))
  | 0x3 => some (.or n f (rD w) (rA w) (rB w))
  | 0x4 => some (.xor n f (rD w) (rA w) (rB w))
  | 0x5 => some (.nor n f (rD w) (rA w) (rB w))
  | 0x6 => some (.sll n f (rD w) (rA w) (rB w))
  | 0x7 => some (.srl n f (rD w) (rA w) (rB w))
  | 0x8 => some (.sra n f (rD w) (rA w) (rB w))
  | 0x9 => some (.rol n f (rD w) (rA w) (rB w))
  | 0xA => some (.slt n f (rD w) (rA w) (rB w))
  | 0xB => some (.sltu n f (rD w) (rA w) (rB w))
  | 0xC => some (.mul n f (rD w) (rA w) (rB w))
  | 0xD => some (.mulh n f (rD w) (rA w) (rB w))
  | 0xE => some (.mulhu n f (rD w) (rA w) (rB w))
  | 0xF => some (.div n f (rD w) (rA w) (rB w))
  | 0x10 => some (.rem n f (rD w) (rA w) (rB w))
  | 0x11 => some (.divu n f (rD w) (rA w) (rB w))
  | 0x12 => some (.remu n f (rD w) (rA w) (rB w))
  | 0x13 => some (.min n f (rD w) (rA w) (rB w))
  | 0x14 => some (.max n f (rD w) (rA w) (rB w))
  | 0x15 => some (.minu n f (rD w) (rA w) (rB w))
  | 0x16 => some (.maxu n f (rD w) (rA w) (rB w))
  | 0x17 => some (.clz n f (rD w) (rA w))
  | 0x18 => some (.ctz n f (rD w) (rA w))
  | 0x19 => some (.popc n f (rD w) (rA w))
  | 0x1A => some (.bswap n f (rD w) (rA w))
  | 0x20 => some (.ptest n f (rD w) (rA w))
  | 0x21 => some (.pclr n f (rD w) (rA w))
  | 0x30 => some (.jr n f (rA w))
  | 0x31 => some (.callr n f (rD w) (rA w))
  | _ => none

/-- Major 0x30 (R62). -/
def atomicOf (n : CoreId) (f : Ecc) (e : Ecc) (w : BitVec 32) : Option Instr :=
  match wFunc w with
  | 0x0 => some (.aswap n f (rD w) (rA w) (rB w) e)
  | 0x1 => some (.aadd n f (rD w) (rA w) (rB w) e)
  | 0x2 => some (.aand n f (rD w) (rA w) (rB w) e)
  | 0x3 => some (.aor n f (rD w) (rA w) (rB w) e)
  | 0x4 => some (.axor n f (rD w) (rA w) (rB w) e)
  | 0x5 => some (.amaxu n f (rD w) (rA w) (rB w) e)
  | 0x6 => some (.aminu n f (rD w) (rA w) (rB w) e)
  | 0x8 => some (.cas n f (rD w) (rA w) (rB w) e)
  | _ => none

/-- Major 0x34 (R92). -/
def assistOf (n : CoreId) (f : Ecc) (e : Ecc) (w : BitVec 32) : Option Instr :=
  match wFunc w with
  | 0x0 => some (.mlook n f (rD w) (rA w) (rB w) e)
  | 0x1 => some (.balloc n f (rD w) (rA w))
  | 0x2 => some (.bfree n f (rA w))
  | 0x4 => some (.crcl n f (rD w) (rA w) (rB w) e)
  | 0x5 => some (.crcbd n f (rD w) (rA w) (rB w) e)
  | 0x3 => some (.bgive n f (rD w) (rA w) (rB w))
  | 0x6 => some (.crcd n f (rD w) (rA w) (rB w))
  | 0x7 => some (.crcw n f (rD w) (rA w) (rB w))
  | 0x8 => some (.khash n f (rD w) (rA w) (rB w))
  | 0x9 => some (.gfmul n f (rD w) (rA w) (rB w))
  | 0xA => some (.gfmulv n f (rD w) (rA w) (rB w))
  | _ => none

/-- Major 0x38 (R85). -/
def txOf (n : CoreId) (f : Ecc) (w : BitVec 32) : Option Instr :=
  match wFunc w with
  | 0x0 => some (.tbegin n f)
  | 0x1 => some (.tcommit n f)
  | 0x2 => some (.tabort n f (rA w))
  | 0x3 => some (.tresume n f)
  | 0x4 => some (.tstate n f (rD w))
  | _ => none

/-- Major 0x3C (R80). -/
def chainOf (n : CoreId) (f : Ecc) (e : Ecc) (w : BitVec 32) : Option Instr :=
  match wSub w with
  | 0x0 => some (.csend n f (rD w) (rA w) (iMbx w) e)
  | 0x1 => some (.csendnb n f (rD w) (rA w) (iMbx w) e)
  | 0x10 => some (.crecv n f (rD w) (rA w) (iMbx w))
  | 0x11 => some (.crecvnb n f (rD w) (rA w) (iMbx w))
  | 0x20 => some (.cpoll n f (rD w))
  | 0x21 => some (.cwait n f (rD w) (rA w))
  | _ => none

/-- Major 0x3E (R63). -/
def systemOf (n : CoreId) (f : Ecc) (w : BitVec 32) : Option Instr :=
  match wOp w with
  | 0x1 => some (.svc n f)
  | 0x2 => some (.brk n f)
  | 0x3 => some (.leave n f)
  | 0x4 => some (.fence n f)
  | 0x10 => some (.ctlget n f (rD w) (iCr w))
  | 0x11 => some (.ctlput n f (iCr w) (rA w))
  | 0x12 => some (.ctlset n f (iCr w) (rA w))
  | 0x13 => some (.ctlclr n f (iCr w) (rA w))
  | _ => none

/-- The instruction of a word by its major opcode (R54). -/
def majorOf (n : CoreId) (f e : Ecc) (w : BitVec 32) : Option Instr :=
  match wMajor w with
  | 0x0 => aluOf n f w
  | 0x1 => some (.addi n f (rD w) (rA w) (iImm w))
  | 0x2 => some (.andi n f (rD w) (rA w) (iImm w))
  | 0x3 => some (.ori n f (rD w) (rA w) (iImm w))
  | 0x4 => some (.xori n f (rD w) (rA w) (iImm w))
  | 0x5 => some (.slti n f (rD w) (rA w) (iImm w))
  | 0x6 => some (.sltiu n f (rD w) (rA w) (iImm w))
  | 0x7 => some (.slli n f (rD w) (rA w) (BitVec.ofNat 6 (wOp w)))
  | 0x8 => some (.srli n f (rD w) (rA w) (BitVec.ofNat 6 (wOp w)))
  | 0x9 => some (.srai n f (rD w) (rA w) (BitVec.ofNat 6 (wOp w)))
  | 0xA => some (.lui n f (rD w) (iImm w))
  | 0xB => some (.ins32 n f (rD w) (rA w) (iImm w))
  | 0xC => some (.ins48 n f (rD w) (rA w) (iImm w))
  | 0xD => some (.muli n f (rD w) (rA w) (iImm w))
  | 0xE => some (.lpa n f (rD w) (iImm w))
  | 0xF => some (.cmpeqi n f (rD w) (rA w) (iImm w))
  | 0x10 => some (.lb n f (rD w) (rA w) (iImm w) e)
  | 0x11 => some (.lbu n f (rD w) (rA w) (iImm w) e)
  | 0x12 => some (.lh n f (rD w) (rA w) (iImm w) e)
  | 0x13 => some (.lhu n f (rD w) (rA w) (iImm w) e)
  | 0x14 => some (.lw n f (rD w) (rA w) (iImm w) e)
  | 0x15 => some (.lwu n f (rD w) (rA w) (iImm w) e)
  | 0x16 => some (.ld n f (rD w) (rA w) (iImm w) e)
  | 0x17 => some (.ldr n f (rD w) (rA w) (rB w) e)
  | 0x18 => some (.sb n f (rD w) (rA w) (iImm w) e)
  | 0x19 => some (.sh n f (rD w) (rA w) (iImm w) e)
  | 0x1A => some (.sw n f (rD w) (rA w) (iImm w) e)
  | 0x1B => some (.sd n f (rD w) (rA w) (iImm w) e)
  | 0x1C => some (.sdr n f (rD w) (rA w) (rB w) e)
  | 0x1D => some (.sdp n f (rD w) (rA w) (iImm w) e)
  | 0x1E => some (.zl n f (rA w) (iImm w) e)
  | 0x20 => some (.beq n f (rD w) (rA w) (iImm w))
  | 0x21 => some (.bne n f (rD w) (rA w) (iImm w))
  | 0x22 => some (.blt n f (rD w) (rA w) (iImm w))
  | 0x23 => some (.bge n f (rD w) (rA w) (iImm w))
  | 0x24 => some (.bltu n f (rD w) (rA w) (iImm w))
  | 0x25 => some (.bgeu n f (rD w) (rA w) (iImm w))
  | 0x26 => some (.bpo n f (rD w) (iImm w))
  | 0x28 => some (.jump n f (BitVec.ofNat 26 (wOff26 w)))
  | 0x29 => some (.call n f (BitVec.ofNat 26 (wOff26 w)))
  | 0x30 => atomicOf n f e w
  | 0x34 => assistOf n f e w
  | 0x38 => txOf n f w
  | 0x3C => chainOf n f e w
  | 0x3E => systemOf n f w
  | _ => none

/-- The command that core `n` executes for a word: none for an illegal one. `f` and `e` are what the memory code yields on the
fetch and on the access, which the word does not say. -/
def facetOf (n : CoreId) (f e : Ecc) (w : BitVec 32) : Option Instr :=
  if (illegalDetail w).isSome then none else majorOf n f e w

/-! ### The opcode table -/

/-- The command that a word spells by the bits of spec/opcode_table.json: its rows give no bits, so no word spells one. -/
def decodeTableWord (_nbits _w : Nat) : Option Instr := none

end Sys2Proof
end

