-- ==== Sys2Proof/Config.lean ====
section
/-! DEFINITION. What one device fixes and the spec leaves open: constants without a body, so that no proof can see what
they are. -/

namespace Sys2Proof

/-- A fresh free value: the `n`-th value that the spec leaves open (log entry 1). -/
opaque Config.freeWord : Nat → BitVec 64

/-- What a byte of memory that nothing has written holds (R60, R412; log entry 5). -/
opaque Config.unwritten : Nat → BitVec 8

/-- Whether a double that was never written whole reads as poisoned (R60, R412; log entry 5). -/
opaque Config.unwrittenPoison : Nat → Bool

/-- The CRC-16 that the Chain inserts as `CHK` over header bits [63:16] and the payload; R21 states no polynomial
(log entry 11). -/
opaque Config.chainCrc : BitVec 48 → BitVec 512 → BitVec 16

/-- What the payload of a takeover notice holds, for the failed core and the spare; R79 and R90 name the notice and no
content (log entry 15). -/
opaque Config.takeoverNotice : Nat → Nat → BitVec 512

/-- Which payload bits an injected Chain corruption flips: the mask for the given free value and bit count (R441; log
entry 36). -/
opaque Config.flipMask : Nat → Nat → BitVec 512

/-- Which bits of a slot's payload and parity an injected slot error inverts, for the given free value and bit count (R441;
log entry 36). -/
opaque Config.flipSlot : Nat → Nat → List Nat

/-- The per-device layout seed held in khash key slot 0 (R96; log entry 7). -/
opaque Config.layoutSeed : BitVec 128

/-- The values of keyed-session keys 0 and 1, provisioned at manufacture (R462; log entry 39). -/
opaque Config.ahnotKey : Nat → BitVec 256

/-- SHA-384 over bytes (R7, R447; log entry 39): the standard names it and the spec gives no arithmetic. -/
opaque Config.sha384 : List (BitVec 8) → BitVec 384

/-- HMAC-SHA-384 and HKDF-SHA-384 as R463 uses them: key, message (log entry 39). -/
opaque Config.hmac384 : List (BitVec 8) → List (BitVec 8) → BitVec 384

/-- A signature by the identity key over bytes (R448, R495; log entry 39). -/
opaque Config.identitySign : List (BitVec 8) → BitVec 768

/-- AES-256-XTS of one data unit under the MEK of a range at a generation, with the tweak: encryption and decryption (R452;
log entry 39). -/
opaque Config.xtsEncrypt : Nat → Nat → Nat → List (BitVec 64) → List (BitVec 64)
opaque Config.xtsDecrypt : Nat → Nat → Nat → List (BitVec 64) → List (BitVec 64)

/-- The digest of a PIN of an authority, and of the PIN with which each authority is manufactured (R447, R457; log entry 39). -/
opaque Config.pinDigest : Nat → BitVec 256 → BitVec 384
opaque Config.madePin : Nat → BitVec 384

/-- The PSID of the label (R465; log entry 39). -/
opaque Config.psid : List (BitVec 8)

/-- The device certificate and the Device CA certificate in DER, the hash of the root certificate, and the hash of the identity
public key (R450, R451, R467; log entry 39). -/
opaque Config.deviceCert : List (BitVec 8)
opaque Config.caCert : List (BitVec 8)
opaque Config.rootHash : BitVec 384
opaque Config.identityHash : BitVec 384

/-- Mailbox and subject of the map task's filled message: the spec names the message and lays nothing out (R209; log entry
157). -/
opaque Config.filledMbx : Nat
opaque Config.filledSub : Nat

/-- Ahnot's PCI vendor identifier, whose number the spec does not state (R124, R462; log entry 39). -/
opaque Config.vendorId : BitVec 16

/-- Bytes of request data of an NVMe-MI Send other than Configuration Set, by its dwords 10 to 12: the spec does not say where
the length stands (R139; log entry 151). -/
opaque Config.miSendBytes : BitVec 32 → BitVec 32 → BitVec 32 → Nat

/-- The golden package: the measurements of indexes 2 to 7, the version of its Facet image, and the entry and activation entry
addresses of its core images (R486, R487, R503; log entry 40). -/
opaque Config.goldenMeasure : Nat → BitVec 384
opaque Config.goldenVersion : BitVec 32
opaque Config.goldenEntry : BitVec 16
opaque Config.goldenActEntry : BitVec 16

/-- The measurement of the ROM, index 1 (R468; log entry 39). -/
opaque Config.romDigest : BitVec 384

/-- Level 0 discovery of the Opal subsystem, by locking enabled, locked and Block SID (R457; log entry 73). -/
opaque Config.level0 : Bool → Bool → Bool → List (BitVec 8)

/-- The LDPC parity of 4,192 payload bytes: 484 bytes; the matrix is supplied outside the spec (R314; log entry 41). -/
opaque Config.ldpcParity : List (BitVec 8) → List (BitVec 8)

/-- The hard decoder, from the LLR signs (true: bit 1), and the soft decoder, from the LLRs and the iteration limit, with
the iterations it takes (R327; log entry 41): the payload, or none. -/
opaque Config.hardDecode : List Bool → Option (List (BitVec 8))
opaque Config.softDecode : Nat → List Int → Option (List (BitVec 8)) × Nat

/-- A quotient that falls between two steps of the detector's fixed-point arithmetic, and a tie of its rounding: numerator,
divisor (R325 states no direction; log entry 41). -/
opaque Config.roundOpen : Int → Int → Int

/-- The free-list link of a free bead to the next one, whose encoding the spec does not state (R174, R179; log entry 166). -/
opaque Config.freeLink : Option Nat → BitVec 64

/-- Records of the firmware and of Signet whose kind, core or body the spec does not state: kind number, core and body by
event and argument (log entry 44). -/
opaque Config.recordKind : Nat → Nat
opaque Config.recordCore : Nat → Nat
opaque Config.recordBody : Nat → Nat → BitVec 256

end Sys2Proof
end

