-- ==== Sys2Proof/Machine/Parts.lean ====
section
/-! DEFINITION. The three parts and the quantities by which they differ (R1, R2, R20, R25, R26). -/

namespace Sys2Proof.Machine

/-- The part that the option fuses name (R1, R35). -/
inductive Part where
  | ahm4832 | ahm4824 | ahm4816
  deriving DecidableEq, Repr

/-- Active flash channels (R1). -/
def Part.channels : Part → Nat
  | .ahm4832 => 32 | .ahm4824 => 24 | .ahm4816 => 16

/-- Enabled Facet cores per cluster, spare included (R1). -/
def Part.coresPer : Part → Nat
  | .ahm4832 => 9 | .ahm4824 => 7 | .ahm4816 => 5

/-- Dies at most: 16 for each channel (R1). -/
def Part.dies (p : Part) : Nat := 16 * p.channels

/-- Data members of a Filigree stripe at first use (R1). -/
def Part.shape : Part → Nat
  | .ahm4816 => 14 | _ => 16

/-- User capacity with 2 Tbit dies, bytes (R1). -/
def Part.userBytes : Part → Nat
  | .ahm4832 => 100000000000000 | .ahm4824 => 75000000000000 | .ahm4816 => 49200000000000

/-- The device number by which the part is known (R124) and `ARC_OPT.PART` (R35). -/
def Part.device : Part → Nat
  | .ahm4832 => 0x4832 | .ahm4824 => 0x4824 | .ahm4816 => 0x4816
def Part.code : Part → Nat
  | .ahm4832 => 0x32 | .ahm4824 => 0x24 | .ahm4816 => 0x16

/-- The part uses the threaded free list (R1, R35). -/
def Part.freeList : Part → Bool
  | .ahm4816 => true | _ => false

/-- Sequencer `s` is enabled (R26, R36). -/
def Part.seqOn (p : Part) (s : Nat) : Bool := s < p.channels || s == 32 || s == 33

/-- Core `n` is enabled (R36). -/
def Part.coreOn (p : Part) (n : Nat) : Bool := n < 54 && n % 9 < p.coresPer

def ceilDiv (a b : Nat) : Nat := (a + b - 1) / b

/-- `committed` of R245: the blocks that the allocated units need in stripes of `k` data members, staging and the allowance. -/
def committedBlocks (raw wordlines k units : Nat) : Nat :=
  ceilDiv (ceilDiv units (wordlines * 12) * (k + 2)) k + ceilDiv (raw * 2) 100 + ceilDiv (raw * 5) 1000

/-- A control clasp: one that carries event, value and counter lanes (R104, R105). -/
def controlClasp (c : Nat) : Bool := c == 1 || c == 3 || c == 5 || c == 6 || c == 7 || (9 ≤ c && c % 2 == 1)

end Sys2Proof.Machine
end

