-- ==== Sys2Proof/Machine/RegTable.lean ====
section
/-! DEFINITION. The control-space registers, from the register tables of spec/ (R32 to R37, R100, R101, R119, R120,
R146, R147, R191, R192, R226, R227, R309, R310, R337, R338, R358, R359, R401, R402, R423, R424, R444, R445, R479, R480,
R524, R525, R543, R544, R563, R564 and the PAD and TMR tables): where each register is (R31), which fields it has, and
each field's type (R10) and reset value. -/

namespace Sys2Proof.Machine

/-- The field types of R10; `RSVD` bits belong to no field. -/
inductive FieldType where
  | ro | rw | wo | w1c | w1s
  deriving DecidableEq, Repr

/-- A field of a register row: lowest bit, width, type, reset value (R10). -/
structure FieldSpec where
  lo : Nat
  width : Nat
  type : FieldType
  reset : Nat
  deriving DecidableEq, Repr

/-- One row of a register table: the offset of the first register from 0x04_0000_0000, the stride and count of the
blocks that repeat it, the stride and count of its own index, and its fields (R31). -/
structure RegRow where
  base : Nat
  blockStride : Nat
  blocks : Nat
  stride : Nat
  count : Nat
  fields : List FieldSpec
  deriving DecidableEq, Repr

/-- A named field: control-space offset of its register, lowest bit, width. -/
structure Fld where
  off : Nat
  lo : Nat
  width : Nat
  deriving DecidableEq, Repr

/-- `ARC_MODE` (R33): operating mode, health level, mode requests. -/
abbrev rARC_MODE : Nat := 0x0
abbrev fARC_MODE_CUR : Fld := ⟨rARC_MODE, 0, 4⟩
abbrev fARC_MODE_PREV : Fld := ⟨rARC_MODE, 4, 4⟩
abbrev fARC_MODE_HEALTH : Fld := ⟨rARC_MODE, 8, 4⟩
abbrev fARC_MODE_CAUSE : Fld := ⟨rARC_MODE, 16, 8⟩
abbrev fARC_MODE_REQ : Fld := ⟨rARC_MODE, 24, 4⟩
abbrev fARC_MODE_GO : Fld := ⟨rARC_MODE, 28, 1⟩
abbrev fARC_MODE_REFUSED : Fld := ⟨rARC_MODE, 29, 1⟩
abbrev fARC_MODE_CHANGED : Fld := ⟨rARC_MODE, 30, 1⟩
abbrev fARC_MODE_CHANGES : Fld := ⟨rARC_MODE, 32, 32⟩

/-- `ARC_ID` (R34): die identity, 128 bits, read as two 64-bit words at 0x010 and 0x018. -/
abbrev rARC_ID : Nat := 0x10
abbrev fARC_ID_LOT : Fld := ⟨rARC_ID, 0, 64⟩

/-- `ARC_ID1` (R34): die identity, high word. -/
abbrev rARC_ID1 : Nat := 0x18
abbrev fARC_ID1_WAFER : Fld := ⟨rARC_ID1, 0, 5⟩
abbrev fARC_ID1_DIE_X : Fld := ⟨rARC_ID1, 8, 8⟩
abbrev fARC_ID1_DIE_Y : Fld := ⟨rARC_ID1, 16, 8⟩
abbrev fARC_ID1_STEP : Fld := ⟨rARC_ID1, 24, 8⟩
abbrev fARC_ID1_FMV : Fld := ⟨rARC_ID1, 32, 8⟩

/-- `ARC_OPT` (R35): option fuses. -/
abbrev rARC_OPT : Nat := 0x20
abbrev fARC_OPT_PART : Fld := ⟨rARC_OPT, 0, 8⟩
abbrev fARC_OPT_CHANNELS : Fld := ⟨rARC_OPT, 8, 6⟩
abbrev fARC_OPT_CORES : Fld := ⟨rARC_OPT, 16, 4⟩
abbrev fARC_OPT_FREELIST : Fld := ⟨rARC_OPT, 20, 1⟩
abbrev fARC_OPT_JTAG_OFF : Fld := ⟨rARC_OPT, 21, 1⟩

/-- `ARC_CHMAP` (R36): fused flash channels. -/
abbrev rARC_CHMAP : Nat := 0x28
abbrev fARC_CHMAP_EN : Fld := ⟨rARC_CHMAP, 0, 32⟩

/-- `ARC_COREMAP` (R36): fused and fenced Facet cores. -/
abbrev rARC_COREMAP : Nat := 0x30
abbrev fARC_COREMAP_EN : Fld := ⟨rARC_COREMAP, 0, 54⟩

/-- `ARC_PQMAP` (R36): fused Prong sequencers. -/
abbrev rARC_PQMAP : Nat := 0x38
abbrev fARC_PQMAP_EN : Fld := ⟨rARC_PQMAP, 0, 34⟩

/-- `ARC_PACE` (R37): speed monitor. -/
abbrev rARC_PACE : Nat := 0x40
abbrev fARC_PACE_RATE : Fld := ⟨rARC_PACE, 0, 16⟩
abbrev fARC_PACE_VALID : Fld := ⟨rARC_PACE, 16, 1⟩

/-- `ARC_PQFENCE` (R36): fenced Prong sequencers. -/
abbrev rARC_PQFENCE : Nat := 0x48
abbrev fARC_PQFENCE_FENCED : Fld := ⟨rARC_PQFENCE, 0, 34⟩

/-- `FCT_FENCE` (R101): fenced cores. -/
abbrev rFCT_FENCE : Nat := 0x10000
abbrev fFCT_FENCE_FENCED : Fld := ⟨rFCT_FENCE, 0, 54⟩

/-- `FCT_SPARE` (R101): spare of each cluster. -/
abbrev rFCT_SPARE : Nat := 0x10008
abbrev fFCT_SPARE_CORE0 : Fld := ⟨rFCT_SPARE, 0, 6⟩
abbrev fFCT_SPARE_CORE1 : Fld := ⟨rFCT_SPARE, 8, 6⟩
abbrev fFCT_SPARE_CORE2 : Fld := ⟨rFCT_SPARE, 16, 6⟩
abbrev fFCT_SPARE_CORE3 : Fld := ⟨rFCT_SPARE, 24, 6⟩
abbrev fFCT_SPARE_CORE4 : Fld := ⟨rFCT_SPARE, 32, 6⟩
abbrev fFCT_SPARE_CORE5 : Fld := ⟨rFCT_SPARE, 40, 6⟩
abbrev fFCT_SPARE_AVAIL0 : Fld := ⟨rFCT_SPARE, 7, 1⟩
abbrev fFCT_SPARE_AVAIL1 : Fld := ⟨rFCT_SPARE, 15, 1⟩
abbrev fFCT_SPARE_AVAIL2 : Fld := ⟨rFCT_SPARE, 23, 1⟩
abbrev fFCT_SPARE_AVAIL3 : Fld := ⟨rFCT_SPARE, 31, 1⟩
abbrev fFCT_SPARE_AVAIL4 : Fld := ⟨rFCT_SPARE, 39, 1⟩
abbrev fFCT_SPARE_AVAIL5 : Fld := ⟨rFCT_SPARE, 47, 1⟩

/-- `FCT_CKBASE` (R101): checkpoint area. -/
abbrev rFCT_CKBASE : Nat := 0x10010
abbrev fFCT_CKBASE_BASE : Fld := ⟨rFCT_CKBASE, 12, 10⟩

/-- `FCT_SENDLIM` (R101): send back-pressure limit. -/
abbrev rFCT_SENDLIM : Nat := 0x10018
abbrev fFCT_SENDLIM_LIMIT : Fld := ⟨rFCT_SENDLIM, 0, 20⟩

/-- `FCT_TXLIM` (R101): transaction time limit. -/
abbrev rFCT_TXLIM : Nat := 0x10020
abbrev fFCT_TXLIM_LIMIT : Fld := ⟨rFCT_TXLIM, 0, 8⟩

/-- `FCT_TAKE` (R101): takeover record. -/
abbrev rFCT_TAKE : Nat := 0x10028
abbrev fFCT_TAKE_COUNT : Fld := ⟨rFCT_TAKE, 0, 16⟩
abbrev fFCT_TAKE_FAILED : Fld := ⟨rFCT_TAKE, 16, 6⟩
abbrev fFCT_TAKE_SPARE : Fld := ⟨rFCT_TAKE, 24, 6⟩

/-- `FCT_CHERR` (R101): receive-side Chain faults. -/
abbrev rFCT_CHERR : Nat := 0x10030
abbrev fFCT_CHERR_CHK : Fld := ⟨rFCT_CHERR, 0, 16⟩
abbrev fFCT_CHERR_SEQ : Fld := ⟨rFCT_CHERR, 16, 16⟩
abbrev fFCT_CHERR_SRC : Fld := ⟨rFCT_CHERR, 32, 7⟩

/-- `FCT_HKEY` (R101): key slot k, for k = 1 to 3; low word, then high word at + 0x8. -/
abbrev rFCT_HKEY (i : Nat) : Nat := 0x10040 + i * 0x8
abbrev fFCT_HKEY_KEY (i : Nat) : Fld := ⟨(rFCT_HKEY i), 0, 64⟩

/-- `FCT_MBX` (R101): mailbox depths of core n. -/
abbrev rFCT_MBX (i : Nat) : Nat := 0x10100 + i * 0x10
abbrev fFCT_MBX_DEPTH0 (i : Nat) : Fld := ⟨(rFCT_MBX i), 0, 4⟩
abbrev fFCT_MBX_DEPTH1 (i : Nat) : Fld := ⟨(rFCT_MBX i), 4, 4⟩
abbrev fFCT_MBX_DEPTH2 (i : Nat) : Fld := ⟨(rFCT_MBX i), 8, 4⟩
abbrev fFCT_MBX_DEPTH3 (i : Nat) : Fld := ⟨(rFCT_MBX i), 12, 4⟩
abbrev fFCT_MBX_DEPTH4 (i : Nat) : Fld := ⟨(rFCT_MBX i), 16, 4⟩
abbrev fFCT_MBX_DEPTH5 (i : Nat) : Fld := ⟨(rFCT_MBX i), 20, 4⟩
abbrev fFCT_MBX_DEPTH6 (i : Nat) : Fld := ⟨(rFCT_MBX i), 24, 4⟩
abbrev fFCT_MBX_DEPTH7 (i : Nat) : Fld := ⟨(rFCT_MBX i), 28, 4⟩
abbrev fFCT_MBX_DEPTH8 (i : Nat) : Fld := ⟨(rFCT_MBX i), 32, 4⟩
abbrev fFCT_MBX_DEPTH9 (i : Nat) : Fld := ⟨(rFCT_MBX i), 36, 4⟩
abbrev fFCT_MBX_DEPTH10 (i : Nat) : Fld := ⟨(rFCT_MBX i), 40, 4⟩
abbrev fFCT_MBX_DEPTH11 (i : Nat) : Fld := ⟨(rFCT_MBX i), 44, 4⟩
abbrev fFCT_MBX_DEPTH12 (i : Nat) : Fld := ⟨(rFCT_MBX i), 48, 4⟩
abbrev fFCT_MBX_DEPTH13 (i : Nat) : Fld := ⟨(rFCT_MBX i), 52, 4⟩
abbrev fFCT_MBX_DEPTH14 (i : Nat) : Fld := ⟨(rFCT_MBX i), 56, 4⟩
abbrev fFCT_MBX_DEPTH15 (i : Nat) : Fld := ⟨(rFCT_MBX i), 60, 4⟩

/-- `FCT_TXS` (R101): transaction statistics of core n. -/
abbrev rFCT_TXS (i : Nat) : Nat := 0x10108 + i * 0x10
abbrev fFCT_TXS_COMMITS (i : Nat) : Fld := ⟨(rFCT_TXS i), 0, 32⟩
abbrev fFCT_TXS_ABORTS (i : Nat) : Fld := ⟨(rFCT_TXS i), 32, 16⟩
abbrev fFCT_TXS_LAST (i : Nat) : Fld := ⟨(rFCT_TXS i), 48, 8⟩

/-- `CLP_BRK0` (R120): broken clasps 0–63. -/
abbrev rCLP_BRK0 : Nat := 0x20000
abbrev fCLP_BRK0_BROKEN : Fld := ⟨rCLP_BRK0, 0, 64⟩

/-- `CLP_BRK1` (R120): broken clasps 64–75. -/
abbrev rCLP_BRK1 : Nat := 0x20008
abbrev fCLP_BRK1_BROKEN : Fld := ⟨rCLP_BRK1, 0, 12⟩

/-- `CLP_NOTE` (R120): break notice destination. -/
abbrev rCLP_NOTE : Nat := 0x20010
abbrev fCLP_NOTE_DST : Fld := ⟨rCLP_NOTE, 0, 7⟩
abbrev fCLP_NOTE_MBX : Fld := ⟨rCLP_NOTE, 8, 4⟩
abbrev fCLP_NOTE_EN : Fld := ⟨rCLP_NOTE, 12, 1⟩

/-- `CLP_STAT` (R120): state of clasp c. -/
abbrev rCLP_STAT (i : Nat) : Nat := 0x20100 + i * 0x20
abbrev fCLP_STAT_STATE (i : Nat) : Fld := ⟨(rCLP_STAT i), 0, 2⟩
abbrev fCLP_STAT_CAUSE (i : Nat) : Fld := ⟨(rCLP_STAT i), 4, 4⟩
abbrev fCLP_STAT_HELD (i : Nat) : Fld := ⟨(rCLP_STAT i), 8, 1⟩
abbrev fCLP_STAT_EPOCH (i : Nat) : Fld := ⟨(rCLP_STAT i), 16, 16⟩
abbrev fCLP_STAT_LCV (i : Nat) : Fld := ⟨(rCLP_STAT i), 32, 8⟩

/-- `CLP_CTL` (R120): control of clasp c. -/
abbrev rCLP_CTL (i : Nat) : Nat := 0x20108 + i * 0x20
abbrev fCLP_CTL_AUTO (i : Nat) : Fld := ⟨(rCLP_CTL i), 0, 1⟩
abbrev fCLP_CTL_CLOSE (i : Nat) : Fld := ⟨(rCLP_CTL i), 1, 1⟩
abbrev fCLP_CTL_OPEN (i : Nat) : Fld := ⟨(rCLP_CTL i), 2, 1⟩
abbrev fCLP_CTL_HOLD (i : Nat) : Fld := ⟨(rCLP_CTL i), 3, 1⟩

/-- `CLP_CNT` (R120): counts of clasp c. -/
abbrev rCLP_CNT (i : Nat) : Nat := 0x20110 + i * 0x20
abbrev fCLP_CNT_BREAKS (i : Nat) : Fld := ⟨(rCLP_CNT i), 0, 16⟩
abbrev fCLP_CNT_LOST (i : Nat) : Fld := ⟨(rCLP_CNT i), 16, 16⟩
abbrev fCLP_CNT_RETAKE (i : Nat) : Fld := ⟨(rCLP_CNT i), 32, 16⟩

/-- `CLP_EVM` (R120): merged bits of clasp c. -/
abbrev rCLP_EVM (i : Nat) : Nat := 0x20118 + i * 0x20
abbrev fCLP_EVM_MERGED (i : Nat) : Fld := ⟨(rCLP_EVM i), 0, 32⟩

/-- `HQE_LINK` (R147): link state. -/
abbrev rHQE_LINK : Nat := 0x30000
abbrev fHQE_LINK_RATE : Fld := ⟨rHQE_LINK, 0, 3⟩
abbrev fHQE_LINK_WIDTH : Fld := ⟨rHQE_LINK, 3, 5⟩
abbrev fHQE_LINK_FLIT : Fld := ⟨rHQE_LINK, 8, 1⟩
abbrev fHQE_LINK_L0PW : Fld := ⟨rHQE_LINK, 9, 5⟩
abbrev fHQE_LINK_LTSSM : Fld := ⟨rHQE_LINK, 14, 6⟩

/-- `HQE_CTL` (R147): engine control and controller status. -/
abbrev rHQE_CTL : Nat := 0x30008
abbrev fHQE_CTL_FETCH : Fld := ⟨rHQE_CTL, 0, 1⟩
abbrev fHQE_CTL_RDY : Fld := ⟨rHQE_CTL, 1, 1⟩
abbrev fHQE_CTL_CFS : Fld := ⟨rHQE_CTL, 2, 1⟩
abbrev fHQE_CTL_SHST : Fld := ⟨rHQE_CTL, 3, 2⟩

/-- `HQE_DCFG` (R147): dispatch configuration. -/
abbrev rHQE_DCFG : Nat := 0x30010
abbrev fHQE_DCFG_SHIFT : Fld := ⟨rHQE_DCFG, 0, 4⟩
abbrev fHQE_DCFG_AEP : Fld := ⟨rHQE_DCFG, 8, 7⟩
abbrev fHQE_DCFG_AMBX : Fld := ⟨rHQE_DCFG, 16, 4⟩
abbrev fHQE_DCFG_NMUL : Fld := ⟨rHQE_DCFG, 24, 8⟩

/-- `HQE_GRANT` (R147): write-data grant configuration. -/
abbrev rHQE_GRANT : Nat := 0x30018
abbrev fHQE_GRANT_CLASS : Fld := ⟨rHQE_GRANT, 0, 4⟩
abbrev fHQE_GRANT_SEGS : Fld := ⟨rHQE_GRANT, 4, 4⟩
abbrev fHQE_GRANT_UNITS : Fld := ⟨rHQE_GRANT, 8, 8⟩
abbrev fHQE_GRANT_ACLASS : Fld := ⟨rHQE_GRANT, 16, 4⟩

/-- `HQE_SLOT` (R147): slot use. -/
abbrev rHQE_SLOT : Nat := 0x30020
abbrev fHQE_SLOT_INUSE : Fld := ⟨rHQE_SLOT, 0, 16⟩
abbrev fHQE_SLOT_HIGH : Fld := ⟨rHQE_SLOT, 16, 16⟩
abbrev fHQE_SLOT_LIMIT : Fld := ⟨rHQE_SLOT, 32, 16⟩

/-- `HQE_HAZ` (R147): hazard table use. -/
abbrev rHQE_HAZ : Nat := 0x30028
abbrev fHQE_HAZ_ENTRIES : Fld := ⟨rHQE_HAZ, 0, 16⟩
abbrev fHQE_HAZ_HELD : Fld := ⟨rHQE_HAZ, 16, 16⟩
abbrev fHQE_HAZ_HOLDS : Fld := ⟨rHQE_HAZ, 32, 32⟩

/-- `HQE_PERR` (R147): error counts. -/
abbrev rHQE_PERR : Nat := 0x30030
abbrev fHQE_PERR_PARSE : Fld := ⟨rHQE_PERR, 0, 16⟩
abbrev fHQE_PERR_HOSTDMA : Fld := ⟨rHQE_PERR, 16, 16⟩
abbrev fHQE_PERR_STRAY : Fld := ⟨rHQE_PERR, 32, 16⟩
abbrev fHQE_PERR_DOORBELL : Fld := ⟨rHQE_PERR, 48, 16⟩

/-- `HQE_PCID` (R147): subsystem identifiers. -/
abbrev rHQE_PCID : Nat := 0x30038
abbrev fHQE_PCID_SSVID : Fld := ⟨rHQE_PCID, 0, 16⟩
abbrev fHQE_PCID_SSID : Fld := ⟨rHQE_PCID, 16, 16⟩
abbrev fHQE_PCID_LOCK : Fld := ⟨rHQE_PCID, 32, 1⟩

/-- `HQE_QSEL` (R147): queue selector. -/
abbrev rHQE_QSEL : Nat := 0x30040
abbrev fHQE_QSEL_QID : Fld := ⟨rHQE_QSEL, 0, 16⟩
abbrev fHQE_QSEL_CQ : Fld := ⟨rHQE_QSEL, 16, 1⟩

/-- `HQE_QINFO` (R147): selected queue, pointers. -/
abbrev rHQE_QINFO : Nat := 0x30048
abbrev fHQE_QINFO_SIZE : Fld := ⟨rHQE_QINFO, 0, 16⟩
abbrev fHQE_QINFO_HEAD : Fld := ⟨rHQE_QINFO, 16, 16⟩
abbrev fHQE_QINFO_TAIL : Fld := ⟨rHQE_QINFO, 32, 16⟩
abbrev fHQE_QINFO_CQID : Fld := ⟨rHQE_QINFO, 48, 16⟩

/-- `HQE_QATTR` (R147): selected queue, attributes. -/
abbrev rHQE_QATTR : Nat := 0x30050
abbrev fHQE_QATTR_VALID : Fld := ⟨rHQE_QATTR, 0, 1⟩
abbrev fHQE_QATTR_PRIO : Fld := ⟨rHQE_QATTR, 1, 2⟩
abbrev fHQE_QATTR_IV : Fld := ⟨rHQE_QATTR, 3, 11⟩
abbrev fHQE_QATTR_IEN : Fld := ⟨rHQE_QATTR, 14, 1⟩
abbrev fHQE_QATTR_PHASE : Fld := ⟨rHQE_QATTR, 15, 1⟩
abbrev fHQE_QATTR_INFLIGHT : Fld := ⟨rHQE_QATTR, 16, 16⟩

/-- `HQE_NOTE` (R147): notice destination. -/
abbrev rHQE_NOTE : Nat := 0x30058
abbrev fHQE_NOTE_DST : Fld := ⟨rHQE_NOTE, 0, 7⟩
abbrev fHQE_NOTE_MBX : Fld := ⟨rHQE_NOTE, 8, 4⟩

/-- `HQE_DISP` (R147): dispatch table entry i, 0–255. -/
abbrev rHQE_DISP (i : Nat) : Nat := 0x30100 + i * 0x8
abbrev fHQE_DISP_EP (i : Nat) : Fld := ⟨(rHQE_DISP i), 0, 7⟩
abbrev fHQE_DISP_MBX (i : Nat) : Fld := ⟨(rHQE_DISP i), 8, 4⟩
abbrev fHQE_DISP_VALID (i : Nat) : Fld := ⟨(rHQE_DISP i), 12, 1⟩

/-- `BPM_CTL` (R192): pool control. -/
abbrev rBPM_CTL : Nat := 0x40000
abbrev fBPM_CTL_EN : Fld := ⟨rBPM_CTL, 0, 1⟩
abbrev fBPM_CTL_MODE : Fld := ⟨rBPM_CTL, 1, 1⟩

/-- `BPM_STAT` (R192): pool state. -/
abbrev rBPM_STAT : Nat := 0x40008
abbrev fBPM_STAT_FREE : Fld := ⟨rBPM_STAT, 0, 16⟩
abbrev fBPM_STAT_SPARE : Fld := ⟨rBPM_STAT, 16, 16⟩
abbrev fBPM_STAT_LEVEL : Fld := ⟨rBPM_STAT, 32, 2⟩
abbrev fBPM_STAT_READY : Fld := ⟨rBPM_STAT, 34, 1⟩
abbrev fBPM_STAT_LOW : Fld := ⟨rBPM_STAT, 48, 16⟩

/-- `BPM_WARN` (R192): early-warning thresholds. -/
abbrev rBPM_WARN : Nat := 0x40010
abbrev fBPM_WARN_SOFT : Fld := ⟨rBPM_WARN, 0, 16⟩
abbrev fBPM_WARN_HARD : Fld := ⟨rBPM_WARN, 16, 16⟩
abbrev fBPM_WARN_HYST : Fld := ⟨rBPM_WARN, 32, 16⟩

/-- `BPM_NOTE` (R192): notice destination. -/
abbrev rBPM_NOTE : Nat := 0x40018
abbrev fBPM_NOTE_DST : Fld := ⟨rBPM_NOTE, 0, 7⟩
abbrev fBPM_NOTE_MBX : Fld := ⟨rBPM_NOTE, 8, 4⟩
abbrev fBPM_NOTE_EN : Fld := ⟨rBPM_NOTE, 12, 1⟩

/-- `BPM_ERR` (R192): error counts. -/
abbrev rBPM_ERR : Nat := 0x40020
abbrev fBPM_ERR_CE : Fld := ⟨rBPM_ERR, 0, 16⟩
abbrev fBPM_ERR_UE : Fld := ⟨rBPM_ERR, 16, 16⟩
abbrev fBPM_ERR_LAST : Fld := ⟨rBPM_ERR, 32, 15⟩
abbrev fBPM_ERR_RET : Fld := ⟨rBPM_ERR, 48, 7⟩

/-- `BPM_RETIRE` (R192): bead retirement. -/
abbrev rBPM_RETIRE : Nat := 0x40028
abbrev fBPM_RETIRE_BEAD : Fld := ⟨rBPM_RETIRE, 0, 15⟩

/-- `BPM_BSEL` (R192): bead selector. -/
abbrev rBPM_BSEL : Nat := 0x40030
abbrev fBPM_BSEL_BEAD : Fld := ⟨rBPM_BSEL, 0, 15⟩

/-- `BPM_BINFO` (R192): selected bead. -/
abbrev rBPM_BINFO : Nat := 0x40038
abbrev fBPM_BINFO_STATE : Fld := ⟨rBPM_BINFO, 0, 2⟩
abbrev fBPM_BINFO_OWNER : Fld := ⟨rBPM_BINFO, 8, 7⟩
abbrev fBPM_BINFO_CLASS : Fld := ⟨rBPM_BINFO, 16, 4⟩
abbrev fBPM_BINFO_UE : Fld := ⟨rBPM_BINFO, 20, 2⟩

/-- `BPM_CLS` (R192): class c configuration. -/
abbrev rBPM_CLS (i : Nat) : Nat := 0x40100 + i * 0x10
abbrev fBPM_CLS_RESERVE (i : Nat) : Fld := ⟨(rBPM_CLS i), 0, 16⟩
abbrev fBPM_CLS_QUOTA (i : Nat) : Fld := ⟨(rBPM_CLS i), 16, 16⟩
abbrev fBPM_CLS_BG (i : Nat) : Fld := ⟨(rBPM_CLS i), 32, 1⟩

/-- `BPM_CST` (R192): class c statistics. -/
abbrev rBPM_CST (i : Nat) : Nat := 0x40108 + i * 0x10
abbrev fBPM_CST_HELD (i : Nat) : Fld := ⟨(rBPM_CST i), 0, 16⟩
abbrev fBPM_CST_HIGH (i : Nat) : Fld := ⟨(rBPM_CST i), 16, 16⟩
abbrev fBPM_CST_REFUSE (i : Nat) : Fld := ⟨(rBPM_CST i), 32, 32⟩

/-- `MAP_CTL` (R227): enable. -/
abbrev rMAP_CTL : Nat := 0x50000
abbrev fMAP_CTL_EN : Fld := ⟨rMAP_CTL, 0, 1⟩

/-- `MAP_CFG` (R227): cache geometry. -/
abbrev rMAP_CFG : Nat := 0x50008
abbrev fMAP_CFG_SETBITS : Fld := ⟨rMAP_CFG, 0, 5⟩

/-- `MAP_DBASE` (R227): directory base. -/
abbrev rMAP_DBASE : Nat := 0x50010
abbrev fMAP_DBASE_BASE : Fld := ⟨rMAP_DBASE, 16, 24⟩

/-- `MAP_CBASE` (R227): frame base. -/
abbrev rMAP_CBASE : Nat := 0x50018
abbrev fMAP_CBASE_BASE : Fld := ⟨rMAP_CBASE, 16, 24⟩

/-- `MAP_NOTE` (R227): miss message destination. -/
abbrev rMAP_NOTE : Nat := 0x50020
abbrev fMAP_NOTE_DST : Fld := ⟨rMAP_NOTE, 0, 7⟩
abbrev fMAP_NOTE_MBX : Fld := ⟨rMAP_NOTE, 8, 4⟩

/-- `MAP_CMD` (R227): state command. -/
abbrev rMAP_CMD : Nat := 0x50028
abbrev fMAP_CMD_MPN : Fld := ⟨rMAP_CMD, 0, 32⟩
abbrev fMAP_CMD_OP : Fld := ⟨rMAP_CMD, 32, 4⟩

/-- `MAP_RESP` (R227): result of the last command. -/
abbrev rMAP_RESP : Nat := 0x50030
abbrev fMAP_RESP_STATUS : Fld := ⟨rMAP_RESP, 0, 2⟩
abbrev fMAP_RESP_PEND : Fld := ⟨rMAP_RESP, 2, 1⟩
abbrev fMAP_RESP_OP : Fld := ⟨rMAP_RESP, 8, 4⟩
abbrev fMAP_RESP_MPN : Fld := ⟨rMAP_RESP, 32, 32⟩

/-- `MAP_OCC` (R227): resident and dirty frames. -/
abbrev rMAP_OCC : Nat := 0x50038
abbrev fMAP_OCC_RESIDENT : Fld := ⟨rMAP_OCC, 0, 22⟩
abbrev fMAP_OCC_DIRTY : Fld := ⟨rMAP_OCC, 22, 22⟩

/-- `MAP_PINS` (R227): pinned and busy frames. -/
abbrev rMAP_PINS : Nat := 0x50040
abbrev fMAP_PINS_PINNED : Fld := ⟨rMAP_PINS, 0, 22⟩
abbrev fMAP_PINS_BUSY : Fld := ⟨rMAP_PINS, 22, 22⟩

/-- `MAP_HITS` (R227): lookups that hit. -/
abbrev rMAP_HITS : Nat := 0x50048
abbrev fMAP_HITS_COUNT : Fld := ⟨rMAP_HITS, 0, 64⟩

/-- `MAP_MISS` (R227): misses. -/
abbrev rMAP_MISS : Nat := 0x50050
abbrev fMAP_MISS_MISSES : Fld := ⟨rMAP_MISS, 0, 32⟩
abbrev fMAP_MISS_SETFULL : Fld := ⟨rMAP_MISS, 32, 32⟩

/-- `MAP_ERR` (R227): directory errors. -/
abbrev rMAP_ERR : Nat := 0x50058
abbrev fMAP_ERR_UE : Fld := ⟨rMAP_ERR, 0, 16⟩
abbrev fMAP_ERR_SET : Fld := ⟨rMAP_ERR, 16, 18⟩

/-- `PSQ_CTL` (R310): control. -/
abbrev rPSQ_CTL (s : Nat) : Nat := 0x100000 + s * 0x10000
abbrev fPSQ_CTL_EN (s : Nat) : Fld := ⟨(rPSQ_CTL s), 0, 1⟩
abbrev fPSQ_CTL_CHAN (s : Nat) : Fld := ⟨(rPSQ_CTL s), 1, 6⟩
abbrev fPSQ_CTL_HOLDREQ (s : Nat) : Fld := ⟨(rPSQ_CTL s), 7, 1⟩

/-- `PSQ_STAT` (R310): state. -/
abbrev rPSQ_STAT (s : Nat) : Nat := 0x100008 + s * 0x10000
abbrev fPSQ_STAT_STATE (s : Nat) : Fld := ⟨(rPSQ_STAT s), 0, 3⟩
abbrev fPSQ_STAT_PC (s : Nat) : Fld := ⟨(rPSQ_STAT s), 8, 12⟩
abbrev fPSQ_STAT_ACTIVE (s : Nat) : Fld := ⟨(rPSQ_STAT s), 24, 7⟩
abbrev fPSQ_STAT_STEPS (s : Nat) : Fld := ⟨(rPSQ_STAT s), 32, 32⟩

/-- `PSQ_RATE` (R310): interface mode and rate. -/
abbrev rPSQ_RATE (s : Nat) : Nat := 0x100010 + s * 0x10000
abbrev fPSQ_RATE_MODE (s : Nat) : Fld := ⟨(rPSQ_RATE s), 0, 2⟩
abbrev fPSQ_RATE_MTS (s : Nat) : Fld := ⟨(rPSQ_RATE s), 8, 12⟩
abbrev fPSQ_RATE_APPLY (s : Nat) : Fld := ⟨(rPSQ_RATE s), 20, 1⟩

/-- `PSQ_TRAIN` (R310): training. -/
abbrev rPSQ_TRAIN (s : Nat) : Nat := 0x100018 + s * 0x10000
abbrev fPSQ_TRAIN_FULL (s : Nat) : Fld := ⟨(rPSQ_TRAIN s), 0, 1⟩
abbrev fPSQ_TRAIN_RETRIM (s : Nat) : Fld := ⟨(rPSQ_TRAIN s), 1, 1⟩
abbrev fPSQ_TRAIN_BUSY (s : Nat) : Fld := ⟨(rPSQ_TRAIN s), 2, 1⟩
abbrev fPSQ_TRAIN_FAIL (s : Nat) : Fld := ⟨(rPSQ_TRAIN s), 3, 1⟩
abbrev fPSQ_TRAIN_CEOK (s : Nat) : Fld := ⟨(rPSQ_TRAIN s), 4, 4⟩
abbrev fPSQ_TRAIN_AGE (s : Nat) : Fld := ⟨(rPSQ_TRAIN s), 32, 16⟩
abbrev fPSQ_TRAIN_COUNT (s : Nat) : Fld := ⟨(rPSQ_TRAIN s), 48, 16⟩

/-- `PSQ_TMO0` (R310): timeouts, reads, programs, erase. -/
abbrev rPSQ_TMO0 (s : Nat) : Nat := 0x100020 + s * 0x10000
abbrev fPSQ_TMO0_READ (s : Nat) : Fld := ⟨(rPSQ_TMO0 s), 0, 16⟩
abbrev fPSQ_TMO0_PSLC (s : Nat) : Fld := ⟨(rPSQ_TMO0 s), 16, 16⟩
abbrev fPSQ_TMO0_PTLC (s : Nat) : Fld := ⟨(rPSQ_TMO0 s), 32, 16⟩
abbrev fPSQ_TMO0_ERASE (s : Nat) : Fld := ⟨(rPSQ_TMO0 s), 48, 16⟩

/-- `PSQ_TMO1` (R310): timeouts, suspend, reset, features. -/
abbrev rPSQ_TMO1 (s : Nat) : Nat := 0x100028 + s * 0x10000
abbrev fPSQ_TMO1_SUSP (s : Nat) : Fld := ⟨(rPSQ_TMO1 s), 0, 16⟩
abbrev fPSQ_TMO1_RESET (s : Nat) : Fld := ⟨(rPSQ_TMO1 s), 16, 16⟩
abbrev fPSQ_TMO1_FEAT (s : Nat) : Fld := ⟨(rPSQ_TMO1 s), 32, 16⟩

/-- `PSQ_SUSP` (R310): suspension policy. -/
abbrev rPSQ_SUSP (s : Nat) : Nat := 0x100030 + s * 0x10000
abbrev fPSQ_SUSP_EN (s : Nat) : Fld := ⟨(rPSQ_SUSP s), 0, 1⟩
abbrev fPSQ_SUSP_MINRUN (s : Nat) : Fld := ⟨(rPSQ_SUSP s), 4, 16⟩

/-- `PSQ_HOOK` (R310): hook enables. -/
abbrev rPSQ_HOOK (s : Nat) : Nat := 0x100038 + s * 0x10000
abbrev fPSQ_HOOK_EN (s : Nat) : Fld := ⟨(rPSQ_HOOK s), 0, 16⟩

/-- `PSQ_LUNOFF` (R310): offline LUNs. -/
abbrev rPSQ_LUNOFF (s : Nat) : Nat := 0x100040 + s * 0x10000
abbrev fPSQ_LUNOFF_OFF (s : Nat) : Fld := ⟨(rPSQ_LUNOFF s), 0, 16⟩
abbrev fPSQ_LUNOFF_FORCE (s : Nat) : Fld := ⟨(rPSQ_LUNOFF s), 16, 16⟩

/-- `PSQ_ERR` (R310): error counts. -/
abbrev rPSQ_ERR (s : Nat) : Nat := 0x100048 + s * 0x10000
abbrev fPSQ_ERR_TMO (s : Nat) : Fld := ⟨(rPSQ_ERR s), 0, 16⟩
abbrev fPSQ_ERR_FAIL (s : Nat) : Fld := ⟨(rPSQ_ERR s), 16, 16⟩
abbrev fPSQ_ERR_BEADUE (s : Nat) : Fld := ⟨(rPSQ_ERR s), 32, 16⟩
abbrev fPSQ_ERR_RERUN (s : Nat) : Fld := ⟨(rPSQ_ERR s), 48, 16⟩

/-- `PSQ_NOTE` (R310): notice destination. -/
abbrev rPSQ_NOTE (s : Nat) : Nat := 0x100050 + s * 0x10000
abbrev fPSQ_NOTE_DST (s : Nat) : Fld := ⟨(rPSQ_NOTE s), 0, 7⟩
abbrev fPSQ_NOTE_MBX (s : Nat) : Fld := ⟨(rPSQ_NOTE s), 8, 4⟩
abbrev fPSQ_NOTE_EN (s : Nat) : Fld := ⟨(rPSQ_NOTE s), 12, 1⟩

/-- `PSQ_SIG` (R310): load state. -/
abbrev rPSQ_SIG (s : Nat) : Nat := 0x100058 + s * 0x10000
abbrev fPSQ_SIG_LOADED (s : Nat) : Fld := ⟨(rPSQ_SIG s), 0, 1⟩
abbrev fPSQ_SIG_BAD (s : Nat) : Fld := ⟨(rPSQ_SIG s), 1, 1⟩
abbrev fPSQ_SIG_CUST (s : Nat) : Fld := ⟨(rPSQ_SIG s), 2, 1⟩
abbrev fPSQ_SIG_PATCHES (s : Nat) : Fld := ⟨(rPSQ_SIG s), 8, 8⟩
abbrev fPSQ_SIG_VER (s : Nat) : Fld := ⟨(rPSQ_SIG s), 32, 32⟩

/-- `PSQ_GEOM` (R310): geometry. -/
abbrev rPSQ_GEOM (s : Nat) : Nat := 0x100060 + s * 0x10000
abbrev fPSQ_GEOM_PLANES (s : Nat) : Fld := ⟨(rPSQ_GEOM s), 0, 3⟩
abbrev fPSQ_GEOM_BLOCKS (s : Nat) : Fld := ⟨(rPSQ_GEOM s), 4, 14⟩
abbrev fPSQ_GEOM_PAGES (s : Nat) : Fld := ⟨(rPSQ_GEOM s), 18, 12⟩
abbrev fPSQ_GEOM_PLSH (s : Nat) : Fld := ⟨(rPSQ_GEOM s), 32, 6⟩
abbrev fPSQ_GEOM_BLSH (s : Nat) : Fld := ⟨(rPSQ_GEOM s), 40, 6⟩
abbrev fPSQ_GEOM_LUSH (s : Nat) : Fld := ⟨(rPSQ_GEOM s), 48, 6⟩
abbrev fPSQ_GEOM_ROW4 (s : Nat) : Fld := ⟨(rPSQ_GEOM s), 56, 1⟩

/-- `PSQ_WDOG` (R310): progress watchdog. -/
abbrev rPSQ_WDOG (s : Nat) : Nat := 0x100068 + s * 0x10000
abbrev fPSQ_WDOG_LIMIT (s : Nat) : Fld := ⟨(rPSQ_WDOG s), 0, 16⟩

/-- `PSQ_OPC` (R310): die opcodes. -/
abbrev rPSQ_OPC (s : Nat) : Nat := 0x100070 + s * 0x10000
abbrev fPSQ_OPC_SLCPRE (s : Nat) : Fld := ⟨(rPSQ_OPC s), 0, 8⟩
abbrev fPSQ_OPC_SUSP (s : Nat) : Fld := ⟨(rPSQ_OPC s), 8, 8⟩
abbrev fPSQ_OPC_RESUME (s : Nat) : Fld := ⟨(rPSQ_OPC s), 16, 8⟩
abbrev fPSQ_OPC_PERCMD (s : Nat) : Fld := ⟨(rPSQ_OPC s), 24, 1⟩

/-- `PSQ_CNT` (R310): counter lanes. -/
abbrev rPSQ_CNT (s : Nat) : Nat := 0x100078 + s * 0x10000
abbrev fPSQ_CNT_READY (s : Nat) : Fld := ⟨(rPSQ_CNT s), 0, 32⟩
abbrev fPSQ_CNT_DONE (s : Nat) : Fld := ⟨(rPSQ_CNT s), 32, 32⟩

/-- `PSQ_LUN` (R310): LUN index l, 0–15. -/
abbrev rPSQ_LUN (s : Nat) (i : Nat) : Nat := 0x100100 + s * 0x10000 + i * 0x8
abbrev fPSQ_LUN_BUSY (s : Nat) (i : Nat) : Fld := ⟨(rPSQ_LUN s i), 0, 1⟩
abbrev fPSQ_LUN_ESUSP (s : Nat) (i : Nat) : Fld := ⟨(rPSQ_LUN s i), 1, 1⟩
abbrev fPSQ_LUN_OFF (s : Nat) (i : Nat) : Fld := ⟨(rPSQ_LUN s i), 2, 1⟩
abbrev fPSQ_LUN_QUEUED (s : Nat) (i : Nat) : Fld := ⟨(rPSQ_LUN s i), 4, 4⟩
abbrev fPSQ_LUN_TMO (s : Nat) (i : Nat) : Fld := ⟨(rPSQ_LUN s i), 8, 8⟩
abbrev fPSQ_LUN_SUSPN (s : Nat) (i : Nat) : Fld := ⟨(rPSQ_LUN s i), 16, 16⟩

/-- `PSQ_NANO` (R310): nanoword j: bits [63:0] at + 0x0, bits [127:64] at + 0x8. -/
abbrev rPSQ_NANO (s : Nat) (i : Nat) : Nat := 0x104000 + s * 0x10000 + i * 0x8
abbrev fPSQ_NANO_BITS (s : Nat) (i : Nat) : Fld := ⟨(rPSQ_NANO s i), 0, 64⟩

/-- `PSQ_MICRO` (R310): microword i. -/
abbrev rPSQ_MICRO (s : Nat) (i : Nat) : Nat := 0x108000 + s * 0x10000 + i * 0x8
abbrev fPSQ_MICRO_WORD (s : Nat) (i : Nat) : Fld := ⟨(rPSQ_MICRO s i), 0, 24⟩

/-- `LPE_CTL` (R338): control. -/
abbrev rLPE_CTL (s : Nat) : Nat := 0x400000 + s * 0x4000
abbrev fLPE_CTL_EN (s : Nat) : Fld := ⟨(rLPE_CTL s), 0, 1⟩
abbrev fLPE_CTL_HARDBYP (s : Nat) : Fld := ⟨(rLPE_CTL s), 1, 1⟩
abbrev fLPE_CTL_SOFTHARD (s : Nat) : Fld := ⟨(rLPE_CTL s), 2, 1⟩
abbrev fLPE_CTL_ERASEDET (s : Nat) : Fld := ⟨(rLPE_CTL s), 3, 1⟩
abbrev fLPE_CTL_RETX (s : Nat) : Fld := ⟨(rLPE_CTL s), 4, 1⟩
abbrev fLPE_CTL_LEARN (s : Nat) : Fld := ⟨(rLPE_CTL s), 5, 1⟩

/-- `LPE_FRAME` (R338): framing. -/
abbrev rLPE_FRAME (s : Nat) : Nat := 0x400008 + s * 0x4000
abbrev fLPE_FRAME_THR1 (s : Nat) : Fld := ⟨(rLPE_FRAME s), 0, 3⟩
abbrev fLPE_FRAME_THR2 (s : Nat) : Fld := ⟨(rLPE_FRAME s), 4, 3⟩
abbrev fLPE_FRAME_WIN (s : Nat) : Fld := ⟨(rLPE_FRAME s), 8, 3⟩
abbrev fLPE_FRAME_ERASEDPM (s : Nat) : Fld := ⟨(rLPE_FRAME s), 16, 8⟩

/-- `LPE_SMAP` (R338): program-state bit map. -/
abbrev rLPE_SMAP (s : Nat) : Nat := 0x400010 + s * 0x4000
abbrev fLPE_SMAP_MAP (s : Nat) : Fld := ⟨(rLPE_SMAP s), 0, 24⟩

/-- `LPE_SOFT` (R338): soft sensing. -/
abbrev rLPE_SOFT (s : Nat) : Nat := 0x400018 + s * 0x4000
abbrev fLPE_SOFT_STEP3 (s : Nat) : Fld := ⟨(rLPE_SOFT s), 0, 4⟩
abbrev fLPE_SOFT_STEP7 (s : Nat) : Fld := ⟨(rLPE_SOFT s), 4, 4⟩
abbrev fLPE_SOFT_MAXOFS (s : Nat) : Fld := ⟨(rLPE_SOFT s), 8, 8⟩

/-- `LPE_EQ` (R338): equaliser. -/
abbrev rLPE_EQ (s : Nat) : Nat := 0x400020 + s * 0x4000
abbrev fLPE_EQ_E1 (s : Nat) : Fld := ⟨(rLPE_EQ s), 0, 8⟩
abbrev fLPE_EQ_E2 (s : Nat) : Fld := ⟨(rLPE_EQ s), 8, 8⟩
abbrev fLPE_EQ_KWL (s : Nat) : Fld := ⟨(rLPE_EQ s), 16, 8⟩
abbrev fLPE_EQ_EN (s : Nat) : Fld := ⟨(rLPE_EQ s), 24, 1⟩

/-- `LPE_DET` (R338): detector target. -/
abbrev rLPE_DET (s : Nat) : Nat := 0x400028 + s * 0x4000
abbrev fLPE_DET_TAU1 (s : Nat) : Fld := ⟨(rLPE_DET s), 0, 8⟩
abbrev fLPE_DET_TAU2 (s : Nat) : Fld := ⟨(rLPE_DET s), 8, 8⟩

/-- `LPE_LLR` (R338): LLR scaling and decoder limit. -/
abbrev rLPE_LLR (s : Nat) : Nat := 0x400030 + s * 0x4000
abbrev fLPE_LLR_HARDMAG (s : Nat) : Fld := ⟨(rLPE_LLR s), 0, 6⟩
abbrev fLPE_LLR_K1 (s : Nat) : Fld := ⟨(rLPE_LLR s), 8, 8⟩
abbrev fLPE_LLR_K3 (s : Nat) : Fld := ⟨(rLPE_LLR s), 16, 8⟩
abbrev fLPE_LLR_K7 (s : Nat) : Fld := ⟨(rLPE_LLR s), 24, 8⟩
abbrev fLPE_LLR_MAXIT (s : Nat) : Fld := ⟨(rLPE_LLR s), 32, 5⟩

/-- `LPE_EW` (R338): early-warning threshold. -/
abbrev rLPE_EW (s : Nat) : Nat := 0x400038 + s * 0x4000
abbrev fLPE_EW_THRESH (s : Nat) : Fld := ⟨(rLPE_EW s), 0, 11⟩

/-- `LPE_OFS` (R338): override offsets. -/
abbrev rLPE_OFS (s : Nat) : Nat := 0x400040 + s * 0x4000
abbrev fLPE_OFS_LVL1 (s : Nat) : Fld := ⟨(rLPE_OFS s), 0, 8⟩
abbrev fLPE_OFS_LVL2 (s : Nat) : Fld := ⟨(rLPE_OFS s), 8, 8⟩
abbrev fLPE_OFS_LVL3 (s : Nat) : Fld := ⟨(rLPE_OFS s), 16, 8⟩
abbrev fLPE_OFS_LVL4 (s : Nat) : Fld := ⟨(rLPE_OFS s), 24, 8⟩
abbrev fLPE_OFS_LVL5 (s : Nat) : Fld := ⟨(rLPE_OFS s), 32, 8⟩
abbrev fLPE_OFS_LVL6 (s : Nat) : Fld := ⟨(rLPE_OFS s), 40, 8⟩
abbrev fLPE_OFS_LVL7 (s : Nat) : Fld := ⟨(rLPE_OFS s), 48, 8⟩
abbrev fLPE_OFS_SLC (s : Nat) : Fld := ⟨(rLPE_OFS s), 56, 8⟩

/-- `LPE_DEC` (R338): decoder state. -/
abbrev rLPE_DEC (s : Nat) : Nat := 0x400048 + s * 0x4000
abbrev fLPE_DEC_HBUSY (s : Nat) : Fld := ⟨(rLPE_DEC s), 0, 2⟩
abbrev fLPE_DEC_SBUSY (s : Nat) : Fld := ⟨(rLPE_DEC s), 2, 2⟩
abbrev fLPE_DEC_SQUEUE (s : Nat) : Fld := ⟨(rLPE_DEC s), 8, 8⟩
abbrev fLPE_DEC_LDROP (s : Nat) : Fld := ⟨(rLPE_DEC s), 16, 16⟩
abbrev fLPE_DEC_SWAITS (s : Nat) : Fld := ⟨(rLPE_DEC s), 32, 32⟩

/-- `LPE_CNT0` (R338): slot counts. -/
abbrev rLPE_CNT0 (s : Nat) : Nat := 0x400050 + s * 0x4000
abbrev fLPE_CNT0_SLOTS (s : Nat) : Fld := ⟨(rLPE_CNT0 s), 0, 32⟩
abbrev fLPE_CNT0_HARD (s : Nat) : Fld := ⟨(rLPE_CNT0 s), 32, 32⟩

/-- `LPE_CNT1` (R338): decode counts. -/
abbrev rLPE_CNT1 (s : Nat) : Nat := 0x400058 + s * 0x4000
abbrev fLPE_CNT1_SOFT (s : Nat) : Fld := ⟨(rLPE_CNT1 s), 0, 32⟩
abbrev fLPE_CNT1_FAIL (s : Nat) : Fld := ⟨(rLPE_CNT1 s), 32, 16⟩
abbrev fLPE_CNT1_MISC (s : Nat) : Fld := ⟨(rLPE_CNT1 s), 48, 16⟩

/-- `LPE_CNT2` (R338): framing counts. -/
abbrev rLPE_CNT2 (s : Nat) : Nat := 0x400060 + s * 0x4000
abbrev fLPE_CNT2_EW (s : Nat) : Fld := ⟨(rLPE_CNT2 s), 0, 16⟩
abbrev fLPE_CNT2_SLIP (s : Nat) : Fld := ⟨(rLPE_CNT2 s), 16, 16⟩
abbrev fLPE_CNT2_REFRAME (s : Nat) : Fld := ⟨(rLPE_CNT2 s), 32, 16⟩
abbrev fLPE_CNT2_RETX (s : Nat) : Fld := ⟨(rLPE_CNT2 s), 48, 16⟩

/-- `LPE_LAST` (R338): last failed slot. -/
abbrev rLPE_LAST (s : Nat) : Nat := 0x400068 + s * 0x4000
abbrev fLPE_LAST_PPA (s : Nat) : Fld := ⟨(rLPE_LAST s), 0, 40⟩
abbrev fLPE_LAST_VALID (s : Nat) : Fld := ⟨(rLPE_LAST s), 40, 1⟩
abbrev fLPE_LAST_RES (s : Nat) : Fld := ⟨(rLPE_LAST s), 48, 16⟩

/-- `LPE_RTBL` (R338): retry entry e, 1–15. -/
abbrev rLPE_RTBL (s : Nat) (i : Nat) : Nat := 0x400100 + s * 0x4000 + i * 0x8
abbrev fLPE_RTBL_ENTRY (s : Nat) (i : Nat) : Fld := ⟨(rLPE_RTBL s i), 0, 64⟩

/-- `LPE_DCOL` (R338): defect column d, 0–127. -/
abbrev rLPE_DCOL (s : Nat) (i : Nat) : Nat := 0x400200 + s * 0x4000 + i * 0x8
abbrev fLPE_DCOL_LUN (s : Nat) (i : Nat) : Fld := ⟨(rLPE_DCOL s i), 0, 4⟩
abbrev fLPE_DCOL_PLANE (s : Nat) (i : Nat) : Fld := ⟨(rLPE_DCOL s i), 4, 3⟩
abbrev fLPE_DCOL_VALID (s : Nat) (i : Nat) : Fld := ⟨(rLPE_DCOL s i), 7, 1⟩
abbrev fLPE_DCOL_COL (s : Nat) (i : Nat) : Fld := ⟨(rLPE_DCOL s i), 8, 15⟩

/-- `ASY_CTL` (R359): control. -/
abbrev rASY_CTL : Nat := 0x500000
abbrev fASY_CTL_LEARN : Fld := ⟨rASY_CTL, 0, 1⟩
abbrev fASY_CTL_LOAD : Fld := ⟨rASY_CTL, 1, 1⟩
abbrev fASY_CTL_SNAP : Fld := ⟨rASY_CTL, 2, 1⟩
abbrev fASY_CTL_ACQ : Fld := ⟨rASY_CTL, 3, 1⟩

/-- `ASY_STAT` (R359): state. -/
abbrev rASY_STAT : Nat := 0x500008
abbrev fASY_STAT_READY : Fld := ⟨rASY_STAT, 0, 1⟩
abbrev fASY_STAT_BUSY : Fld := ⟨rASY_STAT, 1, 1⟩
abbrev fASY_STAT_SNAPOK : Fld := ⟨rASY_STAT, 2, 1⟩
abbrev fASY_STAT_ECPEND : Fld := ⟨rASY_STAT, 3, 1⟩
abbrev fASY_STAT_DIRTY : Fld := ⟨rASY_STAT, 16, 12⟩

/-- `ASY_TBASE` (R359): loop-state table base. -/
abbrev rASY_TBASE : Nat := 0x500010
abbrev fASY_TBASE_BASE : Fld := ⟨rASY_TBASE, 20, 20⟩

/-- `ASY_SBASE` (R359): snapshot copy base. -/
abbrev rASY_SBASE : Nat := 0x500018
abbrev fASY_SBASE_BASE : Fld := ⟨rASY_SBASE, 20, 20⟩

/-- `ASY_GROUP` (R359): block grouping. -/
abbrev rASY_GROUP : Nat := 0x500020
abbrev fASY_GROUP_GSHIFT : Fld := ⟨rASY_GROUP, 0, 4⟩

/-- `ASY_LOOP` (R359): loop parameters. -/
abbrev rASY_LOOP : Nat := 0x500028
abbrev fASY_LOOP_MU_O : Fld := ⟨rASY_LOOP, 0, 4⟩
abbrev fASY_LOOP_MU_G : Fld := ⟨rASY_LOOP, 4, 4⟩
abbrev fASY_LOOP_MU_A : Fld := ⟨rASY_LOOP, 8, 4⟩
abbrev fASY_LOOP_DMAX : Fld := ⟨rASY_LOOP, 16, 8⟩
abbrev fASY_LOOP_ACQN : Fld := ⟨rASY_LOOP, 24, 8⟩
abbrev fASY_LOOP_DDIV : Fld := ⟨rASY_LOOP, 32, 8⟩

/-- `ASY_GUARD` (R359): guard bands. -/
abbrev rASY_GUARD : Nat := 0x500030
abbrev fASY_GUARD_OFS : Fld := ⟨rASY_GUARD, 0, 8⟩
abbrev fASY_GUARD_GAIN : Fld := ⟨rASY_GUARD, 8, 8⟩
abbrev fASY_GUARD_BER : Fld := ⟨rASY_GUARD, 16, 16⟩
abbrev fASY_GUARD_HYSTPC : Fld := ⟨rASY_GUARD, 32, 8⟩

/-- `ASY_NOTE` (R359): notice destination. -/
abbrev rASY_NOTE : Nat := 0x500038
abbrev fASY_NOTE_DST : Fld := ⟨rASY_NOTE, 0, 7⟩
abbrev fASY_NOTE_MBX : Fld := ⟨rASY_NOTE, 8, 4⟩
abbrev fASY_NOTE_EN : Fld := ⟨rASY_NOTE, 12, 1⟩

/-- `ASY_CNT0` (R359): accepted and stale records. -/
abbrev rASY_CNT0 : Nat := 0x500040
abbrev fASY_CNT0_ACCEPT : Fld := ⟨rASY_CNT0, 0, 32⟩
abbrev fASY_CNT0_STALE : Fld := ⟨rASY_CNT0, 32, 32⟩

/-- `ASY_CNT1` (R359): discarded records. -/
abbrev rASY_CNT1 : Nat := 0x500048
abbrev fASY_CNT1_SELECT : Fld := ⟨rASY_CNT1, 0, 16⟩
abbrev fASY_CNT1_FROZEN : Fld := ⟨rASY_CNT1, 16, 16⟩
abbrev fASY_CNT1_FAILDEF : Fld := ⟨rASY_CNT1, 32, 16⟩
abbrev fASY_CNT1_CLAMP : Fld := ⟨rASY_CNT1, 48, 16⟩

/-- `ASY_CNT2` (R359): records before ready. -/
abbrev rASY_CNT2 : Nat := 0x500050
abbrev fASY_CNT2_NOTREADY : Fld := ⟨rASY_CNT2, 0, 16⟩

/-- `ASY_ALARM` (R359): alarms. -/
abbrev rASY_ALARM : Nat := 0x500058
abbrev fASY_ALARM_ACTIVE : Fld := ⟨rASY_ALARM, 0, 16⟩
abbrev fASY_ALARM_RAISES : Fld := ⟨rASY_ALARM, 16, 32⟩

/-- `ASY_ESEL` (R359): entry selector. -/
abbrev rASY_ESEL : Nat := 0x500060
abbrev fASY_ESEL_DIE : Fld := ⟨rASY_ESEL, 0, 9⟩
abbrev fASY_ESEL_GROUP : Fld := ⟨rASY_ESEL, 16, 6⟩

/-- `ASY_EAPP` (R359): applied offsets of the selected entry. -/
abbrev rASY_EAPP : Nat := 0x500068
abbrev fASY_EAPP_LVL1 : Fld := ⟨rASY_EAPP, 0, 8⟩
abbrev fASY_EAPP_LVL2 : Fld := ⟨rASY_EAPP, 8, 8⟩
abbrev fASY_EAPP_LVL3 : Fld := ⟨rASY_EAPP, 16, 8⟩
abbrev fASY_EAPP_LVL4 : Fld := ⟨rASY_EAPP, 24, 8⟩
abbrev fASY_EAPP_LVL5 : Fld := ⟨rASY_EAPP, 32, 8⟩
abbrev fASY_EAPP_LVL6 : Fld := ⟨rASY_EAPP, 40, 8⟩
abbrev fASY_EAPP_LVL7 : Fld := ⟨rASY_EAPP, 48, 8⟩
abbrev fASY_EAPP_SLC : Fld := ⟨rASY_EAPP, 56, 8⟩

/-- `ASY_ECMD` (R359): entry command. -/
abbrev rASY_ECMD : Nat := 0x500070
abbrev fASY_ECMD_OP : Fld := ⟨rASY_ECMD, 0, 3⟩
abbrev fASY_ECMD_ALLG : Fld := ⟨rASY_ECMD, 3, 1⟩

/-- `ASY_ERR` (R359): table errors. -/
abbrev rASY_ERR : Nat := 0x500078
abbrev fASY_ERR_UE : Fld := ⟨rASY_ERR, 0, 16⟩
abbrev fASY_ERR_ENTRY : Fld := ⟨rASY_ERR, 16, 15⟩

/-- `PAR_CTL` (R402): control. -/
abbrev rPAR_CTL : Nat := 0x510000
abbrev fPAR_CTL_EN : Fld := ⟨rPAR_CTL, 0, 1⟩
abbrev fPAR_CTL_CHKSTOP : Fld := ⟨rPAR_CTL, 1, 1⟩

/-- `PAR_STAT` (R402): state. -/
abbrev rPAR_STAT : Nat := 0x510008
abbrev fPAR_STAT_ACTIVE : Fld := ⟨rPAR_STAT, 0, 5⟩
abbrev fPAR_STAT_QUEUED : Fld := ⟨rPAR_STAT, 8, 5⟩

/-- `PAR_CNT0` (R402): encode and rebuild jobs. -/
abbrev rPAR_CNT0 : Nat := 0x510010
abbrev fPAR_CNT0_ENC : Fld := ⟨rPAR_CNT0, 0, 32⟩
abbrev fPAR_CNT0_REC : Fld := ⟨rPAR_CNT0, 32, 32⟩

/-- `PAR_CNT1` (R402): check jobs and mismatches. -/
abbrev rPAR_CNT1 : Nat := 0x510018
abbrev fPAR_CNT1_CHECK : Fld := ⟨rPAR_CNT1, 0, 32⟩
abbrev fPAR_CNT1_MISMATCH : Fld := ⟨rPAR_CNT1, 32, 16⟩
abbrev fPAR_CNT1_REC2 : Fld := ⟨rPAR_CNT1, 48, 16⟩

/-- `PAR_ERR` (R402): errors. -/
abbrev rPAR_ERR : Nat := 0x510020
abbrev fPAR_ERR_BEADUE : Fld := ⟨rPAR_ERR, 0, 16⟩
abbrev fPAR_ERR_BEAD : Fld := ⟨rPAR_ERR, 16, 15⟩
abbrev fPAR_ERR_REFUSED : Fld := ⟨rPAR_ERR, 32, 16⟩

/-- `PAR_CFG` (R402): concurrency. -/
abbrev rPAR_CFG : Nat := 0x510028
abbrev fPAR_CFG_SLOTS : Fld := ⟨rPAR_CFG, 0, 5⟩

/-- `MEC_CTL` (R424): control. -/
abbrev rMEC_CTL : Nat := 0x520000
abbrev fMEC_CTL_WBACK : Fld := ⟨rMEC_CTL, 0, 1⟩
abbrev fMEC_CTL_AUTOMARK : Fld := ⟨rMEC_CTL, 1, 1⟩

/-- `MEC_SCRUB` (R424): scrubber control. -/
abbrev rMEC_SCRUB : Nat := 0x520008
abbrev fMEC_SCRUB_DRAMEN : Fld := ⟨rMEC_SCRUB, 0, 1⟩
abbrev fMEC_SCRUB_SRAMEN : Fld := ⟨rMEC_SCRUB, 16, 10⟩
abbrev fMEC_SCRUB_IDLE : Fld := ⟨rMEC_SCRUB, 32, 12⟩
abbrev fMEC_SCRUB_LAPWARN : Fld := ⟨rMEC_SCRUB, 44, 12⟩

/-- `MEC_LAP` (R424): lap durations. -/
abbrev rMEC_LAP : Nat := 0x520010
abbrev fMEC_LAP_DRAMMS : Fld := ⟨rMEC_LAP, 0, 32⟩
abbrev fMEC_LAP_SRAMMS : Fld := ⟨rMEC_LAP, 32, 32⟩

/-- `MEC_CNT0` (R424): DRAM counts. -/
abbrev rMEC_CNT0 : Nat := 0x520018
abbrev fMEC_CNT0_CE : Fld := ⟨rMEC_CNT0, 0, 32⟩
abbrev fMEC_CNT0_UE : Fld := ⟨rMEC_CNT0, 32, 16⟩
abbrev fMEC_CNT0_TAG : Fld := ⟨rMEC_CNT0, 48, 16⟩

/-- `MEC_CNT1` (R424): SRAM counts. -/
abbrev rMEC_CNT1 : Nat := 0x520020
abbrev fMEC_CNT1_CE : Fld := ⟨rMEC_CNT1, 0, 32⟩
abbrev fMEC_CNT1_UE : Fld := ⟨rMEC_CNT1, 32, 16⟩
abbrev fMEC_CNT1_FETCH : Fld := ⟨rMEC_CNT1, 48, 16⟩

/-- `MEC_ELOG0` (R424): last uncorrectable error, location. -/
abbrev rMEC_ELOG0 : Nat := 0x520028
abbrev fMEC_ELOG0_ADDR : Fld := ⟨rMEC_ELOG0, 0, 40⟩
abbrev fMEC_ELOG0_KIND : Fld := ⟨rMEC_ELOG0, 40, 1⟩
abbrev fMEC_ELOG0_VALID : Fld := ⟨rMEC_ELOG0, 41, 1⟩
abbrev fMEC_ELOG0_OVF : Fld := ⟨rMEC_ELOG0, 42, 1⟩
abbrev fMEC_ELOG0_TAGERR : Fld := ⟨rMEC_ELOG0, 43, 1⟩
abbrev fMEC_ELOG0_ID : Fld := ⟨rMEC_ELOG0, 44, 8⟩
abbrev fMEC_ELOG0_INST : Fld := ⟨rMEC_ELOG0, 52, 6⟩

/-- `MEC_ELOG1` (R424): last uncorrectable error, detail. -/
abbrev rMEC_ELOG1 : Nat := 0x520030
abbrev fMEC_ELOG1_DEV : Fld := ⟨rMEC_ELOG1, 0, 5⟩
abbrev fMEC_ELOG1_CHAN : Fld := ⟨rMEC_ELOG1, 5, 1⟩
abbrev fMEC_ELOG1_CONS : Fld := ⟨rMEC_ELOG1, 6, 4⟩
abbrev fMEC_ELOG1_UNIT : Fld := ⟨rMEC_ELOG1, 10, 7⟩

/-- `MEC_CLOG` (R424): last correctable error. -/
abbrev rMEC_CLOG : Nat := 0x520038
abbrev fMEC_CLOG_ADDR : Fld := ⟨rMEC_CLOG, 0, 40⟩
abbrev fMEC_CLOG_KIND : Fld := ⟨rMEC_CLOG, 40, 1⟩
abbrev fMEC_CLOG_DEV : Fld := ⟨rMEC_CLOG, 41, 5⟩
abbrev fMEC_CLOG_CHAN : Fld := ⟨rMEC_CLOG, 46, 1⟩
abbrev fMEC_CLOG_ID : Fld := ⟨rMEC_CLOG, 48, 8⟩
abbrev fMEC_CLOG_INST : Fld := ⟨rMEC_CLOG, 56, 6⟩

/-- `MEC_DMARK` (R424): device marks. -/
abbrev rMEC_DMARK : Nat := 0x520040
abbrev fMEC_DMARK_DEV0 : Fld := ⟨rMEC_DMARK, 0, 5⟩
abbrev fMEC_DMARK_MARK0 : Fld := ⟨rMEC_DMARK, 5, 1⟩
abbrev fMEC_DMARK_DEV1 : Fld := ⟨rMEC_DMARK, 8, 5⟩
abbrev fMEC_DMARK_MARK1 : Fld := ⟨rMEC_DMARK, 13, 1⟩

/-- `MEC_DCFG` (R424): marking policy. -/
abbrev rMEC_DCFG : Nat := 0x520048
abbrev fMEC_DCFG_MARKTH : Fld := ⟨rMEC_DCFG, 0, 16⟩
abbrev fMEC_DCFG_MARKWIN : Fld := ⟨rMEC_DCFG, 16, 16⟩

/-- `MEC_NOTE` (R424): notice destination. -/
abbrev rMEC_NOTE : Nat := 0x520050
abbrev fMEC_NOTE_DST : Fld := ⟨rMEC_NOTE, 0, 7⟩
abbrev fMEC_NOTE_MBX : Fld := ⟨rMEC_NOTE, 8, 4⟩
abbrev fMEC_NOTE_EN : Fld := ⟨rMEC_NOTE, 12, 1⟩

/-- `MEC_DEVCE` (R424): device d: channel d ÷ 20, device d mod 20, d = 0–39. -/
abbrev rMEC_DEVCE (i : Nat) : Nat := 0x520100 + i * 0x8
abbrev fMEC_DEVCE_CE (i : Nat) : Fld := ⟨(rMEC_DEVCE i), 0, 32⟩
abbrev fMEC_DEVCE_LASTMS (i : Nat) : Fld := ⟨(rMEC_DEVCE i), 32, 32⟩

/-- `MEC_RGN0` (R424): region r range, r = 0–15. -/
abbrev rMEC_RGN0 (i : Nat) : Nat := 0x520300 + i * 0x10
abbrev fMEC_RGN0_BASE (i : Nat) : Fld := ⟨(rMEC_RGN0 i), 20, 20⟩
abbrev fMEC_RGN0_SIZE (i : Nat) : Fld := ⟨(rMEC_RGN0 i), 40, 24⟩

/-- `MEC_RGN1` (R424): region r attributes. -/
abbrev rMEC_RGN1 (i : Nat) : Nat := 0x520308 + i * 0x10
abbrev fMEC_RGN1_VALID (i : Nat) : Fld := ⟨(rMEC_RGN1 i), 0, 1⟩
abbrev fMEC_RGN1_LIGHT (i : Nat) : Fld := ⟨(rMEC_RGN1 i), 1, 1⟩
abbrev fMEC_RGN1_MIRROR (i : Nat) : Fld := ⟨(rMEC_RGN1 i), 2, 1⟩
abbrev fMEC_RGN1_TAG (i : Nat) : Fld := ⟨(rMEC_RGN1 i), 8, 7⟩

/-- `FLT_CTL` (R445): stall windows. -/
abbrev rFLT_CTL : Nat := 0x530000
abbrev fFLT_CTL_CWIN : Fld := ⟨rFLT_CTL, 0, 4⟩
abbrev fFLT_CTL_UWIN : Fld := ⟨rFLT_CTL, 8, 10⟩

/-- `FLT_STAT` (R445): fault counts, gate. -/
abbrev rFLT_STAT : Nat := 0x530008
abbrev fFLT_STAT_FAULTS : Fld := ⟨rFLT_STAT, 0, 16⟩
abbrev fFLT_STAT_MASKED : Fld := ⟨rFLT_STAT, 16, 16⟩
abbrev fFLT_STAT_FATAL : Fld := ⟨rFLT_STAT, 32, 1⟩
abbrev fFLT_STAT_GATE : Fld := ⟨rFLT_STAT, 33, 1⟩

/-- `FLT_NOTE` (R445): notice destination. -/
abbrev rFLT_NOTE : Nat := 0x530010
abbrev fFLT_NOTE_DST : Fld := ⟨rFLT_NOTE, 0, 7⟩
abbrev fFLT_NOTE_MBX : Fld := ⟨rFLT_NOTE, 8, 4⟩
abbrev fFLT_NOTE_EN : Fld := ⟨rFLT_NOTE, 12, 1⟩

/-- `FLT_DECL` (R445): core declared failed. -/
abbrev rFLT_DECL : Nat := 0x530018
abbrev fFLT_DECL_CORE : Fld := ⟨rFLT_DECL, 0, 6⟩
abbrev fFLT_DECL_DECL : Fld := ⟨rFLT_DECL, 6, 1⟩

/-- `FLT_LAST0` (R445): last fault. -/
abbrev rFLT_LAST0 : Nat := 0x530020
abbrev fFLT_LAST0_KIND : Fld := ⟨rFLT_LAST0, 0, 8⟩
abbrev fFLT_LAST0_UNIT : Fld := ⟨rFLT_LAST0, 8, 7⟩
abbrev fFLT_LAST0_INJ : Fld := ⟨rFLT_LAST0, 15, 1⟩
abbrev fFLT_LAST0_MASKED : Fld := ⟨rFLT_LAST0, 16, 1⟩
abbrev fFLT_LAST0_RESUME : Fld := ⟨rFLT_LAST0, 32, 16⟩

/-- `FLT_LAST1` (R445): last fault, time. -/
abbrev rFLT_LAST1 : Nat := 0x530028
abbrev fFLT_LAST1_TNOW : Fld := ⟨rFLT_LAST1, 0, 64⟩

/-- `FLT_INJA` (R445): injector i, kind and target. -/
abbrev rFLT_INJA (i : Nat) : Nat := 0x530100 + i * 0x20
abbrev fFLT_INJA_KIND (i : Nat) : Fld := ⟨(rFLT_INJA i), 0, 8⟩
abbrev fFLT_INJA_TGT (i : Nat) : Fld := ⟨(rFLT_INJA i), 8, 7⟩
abbrev fFLT_INJA_ARM (i : Nat) : Fld := ⟨(rFLT_INJA i), 16, 1⟩
abbrev fFLT_INJA_DONE (i : Nat) : Fld := ⟨(rFLT_INJA i), 17, 1⟩

/-- `FLT_INJB` (R445): injector i, match. -/
abbrev rFLT_INJB (i : Nat) : Nat := 0x530108 + i * 0x20
abbrev fFLT_INJB_MSRC (i : Nat) : Fld := ⟨(rFLT_INJB i), 0, 7⟩
abbrev fFLT_INJB_ASRC (i : Nat) : Fld := ⟨(rFLT_INJB i), 7, 1⟩
abbrev fFLT_INJB_MDST (i : Nat) : Fld := ⟨(rFLT_INJB i), 8, 7⟩
abbrev fFLT_INJB_ADST (i : Nat) : Fld := ⟨(rFLT_INJB i), 15, 1⟩
abbrev fFLT_INJB_MMBX (i : Nat) : Fld := ⟨(rFLT_INJB i), 16, 4⟩
abbrev fFLT_INJB_AMBX (i : Nat) : Fld := ⟨(rFLT_INJB i), 20, 1⟩
abbrev fFLT_INJB_MLUN (i : Nat) : Fld := ⟨(rFLT_INJB i), 21, 4⟩
abbrev fFLT_INJB_ALUN (i : Nat) : Fld := ⟨(rFLT_INJB i), 25, 1⟩
abbrev fFLT_INJB_MOP (i : Nat) : Fld := ⟨(rFLT_INJB i), 26, 8⟩
abbrev fFLT_INJB_AOP (i : Nat) : Fld := ⟨(rFLT_INJB i), 34, 1⟩

/-- `FLT_INJC` (R445): injector i, counts and parameter. -/
abbrev rFLT_INJC (i : Nat) : Nat := 0x530110 + i * 0x20
abbrev fFLT_INJC_SKIP (i : Nat) : Fld := ⟨(rFLT_INJC i), 0, 32⟩
abbrev fFLT_INJC_COUNT (i : Nat) : Fld := ⟨(rFLT_INJC i), 32, 16⟩
abbrev fFLT_INJC_PARAM (i : Nat) : Fld := ⟨(rFLT_INJC i), 48, 16⟩

/-- `FLT_INJD` (R445): injector i, results. -/
abbrev rFLT_INJD (i : Nat) : Nat := 0x530118 + i * 0x20
abbrev fFLT_INJD_FIRED (i : Nat) : Fld := ⟨(rFLT_INJD i), 0, 32⟩
abbrev fFLT_INJD_SEEN (i : Nat) : Fld := ⟨(rFLT_INJD i), 32, 32⟩

/-- `SIG_STAT` (R480): Signet state. -/
abbrev rSIG_STAT : Nat := 0x540000
abbrev fSIG_STAT_READY : Fld := ⟨rSIG_STAT, 0, 1⟩
abbrev fSIG_STAT_APPROVED : Fld := ⟨rSIG_STAT, 1, 1⟩
abbrev fSIG_STAT_ERR : Fld := ⟨rSIG_STAT, 2, 1⟩
abbrev fSIG_STAT_JTAGOPEN : Fld := ⟨rSIG_STAT, 3, 1⟩
abbrev fSIG_STAT_STFAIL : Fld := ⟨rSIG_STAT, 8, 8⟩
abbrev fSIG_STAT_SLOTS : Fld := ⟨rSIG_STAT, 16, 9⟩

/-- `SIG_SESS` (R480): session state. -/
abbrev rSIG_SESS : Nat := 0x540008
abbrev fSIG_SESS_OPAL : Fld := ⟨rSIG_SESS, 0, 1⟩
abbrev fSIG_SESS_KS : Fld := ⟨rSIG_SESS, 1, 1⟩
abbrev fSIG_SESS_KEYID : Fld := ⟨rSIG_SESS, 2, 3⟩
abbrev fSIG_SESS_PRIV : Fld := ⟨rSIG_SESS, 5, 5⟩
abbrev fSIG_SESS_IDLE : Fld := ⟨rSIG_SESS, 16, 32⟩
abbrev fSIG_SESS_FAILS : Fld := ⟨rSIG_SESS, 48, 16⟩

/-- `SIG_SAN` (R480): sanitize state. -/
abbrev rSIG_SAN : Nat := 0x540010
abbrev fSIG_SAN_ACT : Fld := ⟨rSIG_SAN, 0, 3⟩
abbrev fSIG_SAN_NDAS : Fld := ⟨rSIG_SAN, 3, 1⟩
abbrev fSIG_SAN_STATE : Fld := ⟨rSIG_SAN, 4, 2⟩
abbrev fSIG_SAN_PROG : Fld := ⟨rSIG_SAN, 6, 16⟩
abbrev fSIG_SAN_PASS : Fld := ⟨rSIG_SAN, 22, 4⟩

/-- `SIG_GEN` (R480): change counters. -/
abbrev rSIG_GEN : Nat := 0x540018
abbrev fSIG_GEN_LOCKGEN : Fld := ⟨rSIG_GEN, 0, 32⟩
abbrev fSIG_GEN_KEYGEN : Fld := ⟨rSIG_GEN, 32, 32⟩

/-- `SIG_NOTE` (R480): notice destination. -/
abbrev rSIG_NOTE : Nat := 0x540020
abbrev fSIG_NOTE_DST : Fld := ⟨rSIG_NOTE, 0, 7⟩
abbrev fSIG_NOTE_MBX : Fld := ⟨rSIG_NOTE, 8, 4⟩
abbrev fSIG_NOTE_EN : Fld := ⟨rSIG_NOTE, 12, 1⟩

/-- `SIG_SVC` (R480): service counts. -/
abbrev rSIG_SVC : Nat := 0x540028
abbrev fSIG_SVC_CALLS : Fld := ⟨rSIG_SVC, 0, 32⟩
abbrev fSIG_SVC_REFUSED : Fld := ⟨rSIG_SVC, 32, 16⟩

/-- `SIG_RSEL` (R480): range selector. -/
abbrev rSIG_RSEL : Nat := 0x540030
abbrev fSIG_RSEL_RANGE : Fld := ⟨rSIG_RSEL, 0, 9⟩

/-- `SIG_RINFO0` (R480): selected range, start. -/
abbrev rSIG_RINFO0 : Nat := 0x540038
abbrev fSIG_RINFO0_START : Fld := ⟨rSIG_RINFO0, 0, 48⟩
abbrev fSIG_RINFO0_NSX : Fld := ⟨rSIG_RINFO0, 48, 8⟩
abbrev fSIG_RINFO0_VALID : Fld := ⟨rSIG_RINFO0, 56, 1⟩
abbrev fSIG_RINFO0_GLOBAL : Fld := ⟨rSIG_RINFO0, 57, 1⟩

/-- `SIG_RINFO1` (R480): selected range, length. -/
abbrev rSIG_RINFO1 : Nat := 0x540040
abbrev fSIG_RINFO1_LEN : Fld := ⟨rSIG_RINFO1, 0, 48⟩

/-- `SIG_RLOCK` (R480): read locks of ranges 64r to 64r + 63, r = 0–4. -/
abbrev rSIG_RLOCK (i : Nat) : Nat := 0x540100 + i * 0x8
abbrev fSIG_RLOCK_RL (i : Nat) : Fld := ⟨(rSIG_RLOCK i), 0, 64⟩

/-- `SIG_WLOCK` (R480): write locks of ranges 64r to 64r + 63, r = 0–4. -/
abbrev rSIG_WLOCK (i : Nat) : Nat := 0x540140 + i * 0x8
abbrev fSIG_WLOCK_WL (i : Nat) : Fld := ⟨(rSIG_WLOCK i), 0, 64⟩

/-- `LKT_KEY` (R525): unlock key. -/
abbrev rLKT_KEY (i : Nat) : Nat := 0x550000 + i * 0x80
abbrev fLKT_KEY_KEY (i : Nat) : Fld := ⟨(rLKT_KEY i), 0, 32⟩

/-- `LKT_CMD` (R525): command. -/
abbrev rLKT_CMD (i : Nat) : Nat := 0x550008 + i * 0x80
abbrev fLKT_CMD_OP (i : Nat) : Fld := ⟨(rLKT_CMD i), 0, 4⟩

/-- `LKT_ADDR` (R525): address. -/
abbrev rLKT_ADDR (i : Nat) : Nat := 0x550010 + i * 0x80
abbrev fLKT_ADDR_CW (i : Nat) : Fld := ⟨(rLKT_ADDR i), 4, 17⟩

/-- `LKT_DATA0` (R525): codeword bits [63:0]. -/
abbrev rLKT_DATA0 (i : Nat) : Nat := 0x550018 + i * 0x80
abbrev fLKT_DATA0_D (i : Nat) : Fld := ⟨(rLKT_DATA0 i), 0, 64⟩

/-- `LKT_DATA1` (R525): codeword bits [127:64]. -/
abbrev rLKT_DATA1 (i : Nat) : Nat := 0x550020 + i * 0x80
abbrev fLKT_DATA1_D (i : Nat) : Fld := ⟨(rLKT_DATA1 i), 0, 64⟩

/-- `LKT_STAT` (R525): port state and result. -/
abbrev rLKT_STAT (i : Nat) : Nat := 0x550028 + i * 0x80
abbrev fLKT_STAT_SEQ (i : Nat) : Fld := ⟨(rLKT_STAT i), 0, 3⟩
abbrev fLKT_STAT_BUSY (i : Nat) : Fld := ⟨(rLKT_STAT i), 3, 1⟩
abbrev fLKT_STAT_RESULT (i : Nat) : Fld := ⟨(rLKT_STAT i), 4, 4⟩
abbrev fLKT_STAT_EQUAL (i : Nat) : Fld := ⟨(rLKT_STAT i), 8, 1⟩
abbrev fLKT_STAT_CBITS (i : Nat) : Fld := ⟨(rLKT_STAT i), 9, 2⟩
abbrev fLKT_STAT_WRITTEN (i : Nat) : Fld := ⟨(rLKT_STAT i), 11, 1⟩
abbrev fLKT_STAT_TORN (i : Nat) : Fld := ⟨(rLKT_STAT i), 12, 1⟩
abbrev fLKT_STAT_OWNER (i : Nat) : Fld := ⟨(rLKT_STAT i), 16, 7⟩

/-- `LKT_WAIT` (R525): wait states. -/
abbrev rLKT_WAIT : Nat := 0x550100
abbrev fLKT_WAIT_WS : Fld := ⟨rLKT_WAIT, 0, 4⟩
abbrev fLKT_WAIT_LOWMARGIN : Fld := ⟨rLKT_WAIT, 4, 1⟩

/-- `LKT_REF` (R525): reference period. -/
abbrev rLKT_REF : Nat := 0x550108
abbrev fLKT_REF_PERIOD : Fld := ⟨rLKT_REF, 0, 16⟩
abbrev fLKT_REF_VALID : Fld := ⟨rLKT_REF, 16, 1⟩

/-- `LKT_VMON` (R525): supply monitors. -/
abbrev rLKT_VMON : Nat := 0x550110
abbrev fLKT_VMON_VAON : Fld := ⟨rLKT_VMON, 0, 10⟩
abbrev fLKT_VMON_VLKT : Fld := ⟨rLKT_VMON, 16, 11⟩
abbrev fLKT_VMON_VLKTLOW : Fld := ⟨rLKT_VMON, 27, 1⟩

/-- `LKT_EW` (R525): warning threshold and counts. -/
abbrev rLKT_EW : Nat := 0x550118
abbrev fLKT_EW_THRESH : Fld := ⟨rLKT_EW, 0, 2⟩
abbrev fLKT_EW_WARNS : Fld := ⟨rLKT_EW, 16, 16⟩
abbrev fLKT_EW_UE : Fld := ⟨rLKT_EW, 32, 16⟩

/-- `LKT_RDLOG` (R525): first logged read. -/
abbrev rLKT_RDLOG : Nat := 0x550120
abbrev fLKT_RDLOG_CW : Fld := ⟨rLKT_RDLOG, 4, 17⟩
abbrev fLKT_RDLOG_CBITS : Fld := ⟨rLKT_RDLOG, 21, 2⟩
abbrev fLKT_RDLOG_UE : Fld := ⟨rLKT_RDLOG, 23, 1⟩
abbrev fLKT_RDLOG_VALID : Fld := ⟨rLKT_RDLOG, 24, 1⟩

/-- `LKT_SSEL` (R525): sector selector. -/
abbrev rLKT_SSEL : Nat := 0x550128
abbrev fLKT_SSEL_SECT : Fld := ⟨rLKT_SSEL, 0, 9⟩

/-- `LKT_SINFO` (R525): selected sector. -/
abbrev rLKT_SINFO : Nat := 0x550130
abbrev fLKT_SINFO_ERASES : Fld := ⟨rLKT_SINFO, 0, 24⟩
abbrev fLKT_SINFO_INDET : Fld := ⟨rLKT_SINFO, 24, 1⟩
abbrev fLKT_SINFO_ERASING : Fld := ⟨rLKT_SINFO, 25, 1⟩
abbrev fLKT_SINFO_SUSP : Fld := ⟨rLKT_SINFO, 26, 1⟩
abbrev fLKT_SINFO_SUSPN : Fld := ⟨rLKT_SINFO, 32, 16⟩

/-- `LKT_ESUSP` (R525): suspension policy. -/
abbrev rLKT_ESUSP : Nat := 0x550138
abbrev fLKT_ESUSP_MINRUN : Fld := ⟨rLKT_ESUSP, 0, 16⟩
abbrev fLKT_ESUSP_EN : Fld := ⟨rLKT_ESUSP, 16, 1⟩

/-- `LKT_NOTE` (R525): notice destination. -/
abbrev rLKT_NOTE : Nat := 0x550140
abbrev fLKT_NOTE_DST : Fld := ⟨rLKT_NOTE, 0, 7⟩
abbrev fLKT_NOTE_MBX : Fld := ⟨rLKT_NOTE, 8, 4⟩
abbrev fLKT_NOTE_EN : Fld := ⟨rLKT_NOTE, 12, 1⟩

/-- `PWR_CTL` (R544): sleep request. -/
abbrev rPWR_CTL : Nat := 0x560000
abbrev fPWR_CTL_TARGET : Fld := ⟨rPWR_CTL, 0, 4⟩
abbrev fPWR_CTL_GO : Fld := ⟨rPWR_CTL, 4, 1⟩

/-- `PWR_STAT` (R544): sleep and wake state. -/
abbrev rPWR_STAT : Nat := 0x560008
abbrev fPWR_STAT_STATE : Fld := ⟨rPWR_STAT, 0, 3⟩
abbrev fPWR_STAT_CAUSE : Fld := ⟨rPWR_STAT, 4, 3⟩
abbrev fPWR_STAT_XTALFB : Fld := ⟨rPWR_STAT, 7, 1⟩
abbrev fPWR_STAT_FSTEP : Fld := ⟨rPWR_STAT, 8, 2⟩
abbrev fPWR_STAT_TRIES : Fld := ⟨rPWR_STAT, 10, 3⟩
abbrev fPWR_STAT_SLEEPS : Fld := ⟨rPWR_STAT, 16, 32⟩

/-- `PWR_WAKE` (R544): wake sources and alarm. -/
abbrev rPWR_WAKE : Nat := 0x560010
abbrev fPWR_WAKE_MBEN : Fld := ⟨rPWR_WAKE, 0, 1⟩
abbrev fPWR_WAKE_PCIEN : Fld := ⟨rPWR_WAKE, 1, 1⟩
abbrev fPWR_WAKE_ALMEN : Fld := ⟨rPWR_WAKE, 2, 1⟩
abbrev fPWR_WAKE_ALARM : Fld := ⟨rPWR_WAKE, 16, 32⟩

/-- `PWR_RMASK` (R544): retention masks. -/
abbrev rPWR_RMASK : Nat := 0x560018
abbrev fPWR_RMASK_IR : Fld := ⟨rPWR_RMASK, 0, 16⟩
abbrev fPWR_RMASK_DS : Fld := ⟨rPWR_RMASK, 16, 16⟩

/-- `PWR_AVS` (R544): AVSBus request and status. -/
abbrev rPWR_AVS : Nat := 0x560020
abbrev fPWR_AVS_REQ : Fld := ⟨rPWR_AVS, 0, 10⟩
abbrev fPWR_AVS_BUSY : Fld := ⟨rPWR_AVS, 16, 1⟩
abbrev fPWR_AVS_PG : Fld := ⟨rPWR_AVS, 17, 1⟩
abbrev fPWR_AVS_ERR : Fld := ⟨rPWR_AVS, 18, 1⟩
abbrev fPWR_AVS_READ : Fld := ⟨rPWR_AVS, 32, 10⟩

/-- `PWR_AVSW` (R544): wake, alternate and retention codes. -/
abbrev rPWR_AVSW : Nat := 0x560028
abbrev fPWR_AVSW_WAKEMV : Fld := ⟨rPWR_AVSW, 0, 10⟩
abbrev fPWR_AVSW_ALTMV : Fld := ⟨rPWR_AVSW, 10, 10⟩
abbrev fPWR_AVSW_RETMV : Fld := ⟨rPWR_AVSW, 20, 10⟩

/-- `PWR_XTAL` (R544): crystal drive. -/
abbrev rPWR_XTAL : Nat := 0x560030
abbrev fPWR_XTAL_DRV : Fld := ⟨rPWR_XTAL, 0, 4⟩
abbrev fPWR_XTAL_ALTDRV : Fld := ⟨rPWR_XTAL, 4, 4⟩
abbrev fPWR_XTAL_OK : Fld := ⟨rPWR_XTAL, 8, 1⟩

/-- `PWR_NOTE` (R544): wake-buffer destination. -/
abbrev rPWR_NOTE : Nat := 0x560038
abbrev fPWR_NOTE_DST : Fld := ⟨rPWR_NOTE, 0, 7⟩
abbrev fPWR_NOTE_MBX : Fld := ⟨rPWR_NOTE, 8, 4⟩

/-- `PWR_MBUF` (R544): first 8 bytes of the wake buffer. -/
abbrev rPWR_MBUF : Nat := 0x560040
abbrev fPWR_MBUF_BYTES : Fld := ⟨rPWR_MBUF, 0, 64⟩

/-- `PAD_HOLD` (R545): groups held. -/
abbrev rPAD_HOLD : Nat := 0x580000
abbrev fPAD_HOLD_HELD : Fld := ⟨rPAD_HOLD, 0, 6⟩

/-- `PAD_STAT` (R545): hold history. -/
abbrev rPAD_STAT : Nat := 0x580008
abbrev fPAD_STAT_LAST : Fld := ⟨rPAD_STAT, 0, 6⟩
abbrev fPAD_STAT_REFUSED : Fld := ⟨rPAD_STAT, 16, 16⟩

/-- `TMR_STAT` (R546): time source state. -/
abbrev rTMR_STAT : Nat := 0x590000
abbrev fTMR_STAT_XTAL : Fld := ⟨rTMR_STAT, 0, 1⟩
abbrev fTMR_STAT_EST : Fld := ⟨rTMR_STAT, 1, 1⟩
abbrev fTMR_STAT_SYNCH : Fld := ⟨rTMR_STAT, 2, 1⟩

/-- `TMR_RCAL` (R546): ring calibration. -/
abbrev rTMR_RCAL : Nat := 0x590008
abbrev fTMR_RCAL_PERIOD : Fld := ⟨rTMR_RCAL, 0, 24⟩
abbrev fTMR_RCAL_VALID : Fld := ⟨rTMR_RCAL, 24, 1⟩
abbrev fTMR_RCAL_AGE : Fld := ⟨rTMR_RCAL, 32, 32⟩

/-- `TMR_SLEPT` (R546): last sleep. -/
abbrev rTMR_SLEPT : Nat := 0x590010
abbrev fTMR_SLEPT_US : Fld := ⟨rTMR_SLEPT, 0, 48⟩

/-- `TMR_ONTIME` (R546): time since device reset, sleep included. -/
abbrev rTMR_ONTIME : Nat := 0x590018
abbrev fTMR_ONTIME_MS : Fld := ⟨rTMR_ONTIME, 0, 64⟩

/-- `TMR_ACTIVE` (R546): time since device reset, sleep excluded. -/
abbrev rTMR_ACTIVE : Nat := 0x590020
abbrev fTMR_ACTIVE_MS : Fld := ⟨rTMR_ACTIVE, 0, 64⟩

/-- `TMR_STAMP` (R546): Timestamp feature. -/
abbrev rTMR_STAMP : Nat := 0x590028
abbrev fTMR_STAMP_MS : Fld := ⟨rTMR_STAMP, 0, 48⟩
abbrev fTMR_STAMP_ORIGIN : Fld := ⟨rTMR_STAMP, 48, 3⟩

/-- `EVR_CTL` (R564): control. -/
abbrev rEVR_CTL : Nat := 0x570000
abbrev fEVR_CTL_EN : Fld := ⟨rEVR_CTL, 0, 1⟩
abbrev fEVR_CTL_MINSEV : Fld := ⟨rEVR_CTL, 1, 3⟩
abbrev fEVR_CTL_ALERTSEV : Fld := ⟨rEVR_CTL, 5, 3⟩
abbrev fEVR_CTL_ALERTEN : Fld := ⟨rEVR_CTL, 8, 1⟩

/-- `EVR_BASE` (R564): ring base. -/
abbrev rEVR_BASE : Nat := 0x570008
abbrev fEVR_BASE_BASE : Fld := ⟨rEVR_BASE, 22, 18⟩

/-- `EVR_STAT` (R564): state. -/
abbrev rEVR_STAT : Nat := 0x570010
abbrev fEVR_STAT_COUNT : Fld := ⟨rEVR_STAT, 0, 17⟩
abbrev fEVR_STAT_DROPPED : Fld := ⟨rEVR_STAT, 32, 16⟩
abbrev fEVR_STAT_PPEND : Fld := ⟨rEVR_STAT, 48, 8⟩
abbrev fEVR_STAT_ALERT : Fld := ⟨rEVR_STAT, 56, 1⟩

/-- `EVR_NEXT` (R564): next sequence number. -/
abbrev rEVR_NEXT : Nat := 0x570018
abbrev fEVR_NEXT_SEQ : Fld := ⟨rEVR_NEXT, 0, 64⟩

/-- `EVR_HOURS` (R564): power-on and active hours. -/
abbrev rEVR_HOURS : Nat := 0x570020
abbrev fEVR_HOURS_ON : Fld := ⟨rEVR_HOURS, 0, 32⟩
abbrev fEVR_HOURS_ACTIVE : Fld := ⟨rEVR_HOURS, 32, 32⟩

/-- `EVR_STARTS` (R564): start count. -/
abbrev rEVR_STARTS : Nat := 0x570028
abbrev fEVR_STARTS_STARTS : Fld := ⟨rEVR_STARTS, 0, 32⟩

/-- `EVR_HCUR` (R564): host cursor. -/
abbrev rEVR_HCUR : Nat := 0x570030
abbrev fEVR_HCUR_CUR : Fld := ⟨rEVR_HCUR, 0, 64⟩

/-- `EVR_MCUR` (R564): management cursor. -/
abbrev rEVR_MCUR : Nat := 0x570038
abbrev fEVR_MCUR_CUR : Fld := ⟨rEVR_MCUR, 0, 64⟩

/-- `EVR_PPOOL` (R564): persistent records held. -/
abbrev rEVR_PPOOL : Nat := 0x570040
abbrev fEVR_PPOOL_ERR : Fld := ⟨rEVR_PPOOL, 0, 16⟩
abbrev fEVR_PPOOL_CRIT : Fld := ⟨rEVR_PPOOL, 16, 16⟩
abbrev fEVR_PPOOL_FATAL : Fld := ⟨rEVR_PPOOL, 32, 16⟩
abbrev fEVR_PPOOL_SEC : Fld := ⟨rEVR_PPOOL, 48, 16⟩

/-- `EVR_NOTE` (R564): notice destination. -/
abbrev rEVR_NOTE : Nat := 0x570048
abbrev fEVR_NOTE_DST : Fld := ⟨rEVR_NOTE, 0, 7⟩
abbrev fEVR_NOTE_MBX : Fld := ⟨rEVR_NOTE, 8, 4⟩
abbrev fEVR_NOTE_EN : Fld := ⟨rEVR_NOTE, 12, 1⟩

/-- The rows of the `ARC` block. -/
def rowsARC : List RegRow := [
  ⟨0x0, 0x0, 1, 0x0, 1, [⟨0, 4, .ro, 1⟩, ⟨4, 4, .ro, 1⟩, ⟨8, 4, .ro, 2⟩, ⟨16, 8, .ro, 0⟩, ⟨24, 4, .rw, 0⟩, ⟨28, 1, .w1s, 0⟩, ⟨29, 1, .w1c, 0⟩, ⟨30, 1, .w1c, 0⟩, ⟨32, 32, .ro, 0⟩]⟩, -- ARC_MODE
  ⟨0x10, 0x0, 1, 0x0, 1, [⟨0, 64, .ro, 0⟩]⟩, -- ARC_ID
  ⟨0x18, 0x0, 1, 0x0, 1, [⟨0, 5, .ro, 0⟩, ⟨8, 8, .ro, 0⟩, ⟨16, 8, .ro, 0⟩, ⟨24, 8, .ro, 0⟩, ⟨32, 8, .ro, 0⟩]⟩, -- ARC_ID1
  ⟨0x20, 0x0, 1, 0x0, 1, [⟨0, 8, .ro, 0⟩, ⟨8, 6, .ro, 0⟩, ⟨16, 4, .ro, 0⟩, ⟨20, 1, .ro, 0⟩, ⟨21, 1, .ro, 0⟩]⟩, -- ARC_OPT
  ⟨0x28, 0x0, 1, 0x0, 1, [⟨0, 32, .ro, 0⟩]⟩, -- ARC_CHMAP
  ⟨0x30, 0x0, 1, 0x0, 1, [⟨0, 54, .ro, 0⟩]⟩, -- ARC_COREMAP
  ⟨0x38, 0x0, 1, 0x0, 1, [⟨0, 34, .ro, 0⟩]⟩, -- ARC_PQMAP
  ⟨0x40, 0x0, 1, 0x0, 1, [⟨0, 16, .ro, 0⟩, ⟨16, 1, .ro, 0⟩]⟩, -- ARC_PACE
  ⟨0x48, 0x0, 1, 0x0, 1, [⟨0, 34, .ro, 0⟩]⟩] -- ARC_PQFENCE

/-- The rows of the `FCT` block. -/
def rowsFCT : List RegRow := [
  ⟨0x10000, 0x0, 1, 0x0, 1, [⟨0, 54, .ro, 0⟩]⟩, -- FCT_FENCE
  ⟨0x10008, 0x0, 1, 0x0, 1, [⟨0, 6, .ro, 0⟩, ⟨8, 6, .ro, 0⟩, ⟨16, 6, .ro, 0⟩, ⟨24, 6, .ro, 0⟩, ⟨32, 6, .ro, 0⟩, ⟨40, 6, .ro, 0⟩, ⟨7, 1, .ro, 1⟩, ⟨15, 1, .ro, 1⟩, ⟨23, 1, .ro, 1⟩, ⟨31, 1, .ro, 1⟩, ⟨39, 1, .ro, 1⟩, ⟨47, 1, .ro, 1⟩]⟩, -- FCT_SPARE
  ⟨0x10010, 0x0, 1, 0x0, 1, [⟨12, 10, .rw, 1022⟩]⟩, -- FCT_CKBASE
  ⟨0x10018, 0x0, 1, 0x0, 1, [⟨0, 20, .rw, 100⟩]⟩, -- FCT_SENDLIM
  ⟨0x10020, 0x0, 1, 0x0, 1, [⟨0, 8, .rw, 100⟩]⟩, -- FCT_TXLIM
  ⟨0x10028, 0x0, 1, 0x0, 1, [⟨0, 16, .ro, 0⟩, ⟨16, 6, .ro, 0⟩, ⟨24, 6, .ro, 0⟩]⟩, -- FCT_TAKE
  ⟨0x10030, 0x0, 1, 0x0, 1, [⟨0, 16, .ro, 0⟩, ⟨16, 16, .ro, 0⟩, ⟨32, 7, .ro, 0⟩]⟩, -- FCT_CHERR
  ⟨0x10040, 0x0, 1, 0x8, 6, [⟨0, 64, .wo, 0⟩]⟩, -- FCT_HKEY
  ⟨0x10100, 0x0, 1, 0x10, 54, [⟨0, 4, .rw, 4⟩, ⟨4, 4, .rw, 4⟩, ⟨8, 4, .rw, 4⟩, ⟨12, 4, .rw, 4⟩, ⟨16, 4, .rw, 4⟩, ⟨20, 4, .rw, 4⟩, ⟨24, 4, .rw, 4⟩, ⟨28, 4, .rw, 4⟩, ⟨32, 4, .rw, 4⟩, ⟨36, 4, .rw, 4⟩, ⟨40, 4, .rw, 4⟩, ⟨44, 4, .rw, 4⟩, ⟨48, 4, .rw, 4⟩, ⟨52, 4, .rw, 4⟩, ⟨56, 4, .rw, 4⟩, ⟨60, 4, .rw, 4⟩]⟩, -- FCT_MBX
  ⟨0x10108, 0x0, 1, 0x10, 54, [⟨0, 32, .ro, 0⟩, ⟨32, 16, .ro, 0⟩, ⟨48, 8, .ro, 0⟩]⟩] -- FCT_TXS

/-- The rows of the `CLP` block. -/
def rowsCLP : List RegRow := [
  ⟨0x20000, 0x0, 1, 0x0, 1, [⟨0, 64, .ro, 0⟩]⟩, -- CLP_BRK0
  ⟨0x20008, 0x0, 1, 0x0, 1, [⟨0, 12, .ro, 0⟩]⟩, -- CLP_BRK1
  ⟨0x20010, 0x0, 1, 0x0, 1, [⟨0, 7, .rw, 0⟩, ⟨8, 4, .rw, 0⟩, ⟨12, 1, .rw, 0⟩]⟩, -- CLP_NOTE
  ⟨0x20100, 0x0, 1, 0x20, 76, [⟨0, 2, .ro, 0⟩, ⟨4, 4, .ro, 0⟩, ⟨8, 1, .ro, 1⟩, ⟨16, 16, .ro, 0⟩, ⟨32, 8, .ro, 0⟩]⟩, -- CLP_STAT
  ⟨0x20108, 0x0, 1, 0x20, 76, [⟨0, 1, .rw, 1⟩, ⟨1, 1, .w1s, 0⟩, ⟨2, 1, .w1s, 0⟩, ⟨3, 1, .rw, 0⟩]⟩, -- CLP_CTL
  ⟨0x20110, 0x0, 1, 0x20, 76, [⟨0, 16, .ro, 0⟩, ⟨16, 16, .ro, 0⟩, ⟨32, 16, .ro, 0⟩]⟩, -- CLP_CNT
  ⟨0x20118, 0x0, 1, 0x20, 76, [⟨0, 32, .w1c, 0⟩]⟩] -- CLP_EVM

/-- The rows of the `HQE` block. -/
def rowsHQE : List RegRow := [
  ⟨0x30000, 0x0, 1, 0x0, 1, [⟨0, 3, .ro, 0⟩, ⟨3, 5, .ro, 0⟩, ⟨8, 1, .ro, 0⟩, ⟨9, 5, .ro, 0⟩, ⟨14, 6, .ro, 0⟩]⟩, -- HQE_LINK
  ⟨0x30008, 0x0, 1, 0x0, 1, [⟨0, 1, .rw, 1⟩, ⟨1, 1, .rw, 0⟩, ⟨2, 1, .w1s, 0⟩, ⟨3, 2, .rw, 0⟩]⟩, -- HQE_CTL
  ⟨0x30010, 0x0, 1, 0x0, 1, [⟨0, 4, .rw, 10⟩, ⟨8, 7, .rw, 0⟩, ⟨16, 4, .rw, 0⟩, ⟨24, 8, .rw, 37⟩]⟩, -- HQE_DCFG
  ⟨0x30018, 0x0, 1, 0x0, 1, [⟨0, 4, .rw, 1⟩, ⟨4, 4, .rw, 2⟩, ⟨8, 8, .rw, 64⟩, ⟨16, 4, .rw, 8⟩]⟩, -- HQE_GRANT
  ⟨0x30020, 0x0, 1, 0x0, 1, [⟨0, 16, .ro, 0⟩, ⟨16, 16, .ro, 0⟩, ⟨32, 16, .rw, 32768⟩]⟩, -- HQE_SLOT
  ⟨0x30028, 0x0, 1, 0x0, 1, [⟨0, 16, .ro, 0⟩, ⟨16, 16, .ro, 0⟩, ⟨32, 32, .ro, 0⟩]⟩, -- HQE_HAZ
  ⟨0x30030, 0x0, 1, 0x0, 1, [⟨0, 16, .ro, 0⟩, ⟨16, 16, .ro, 0⟩, ⟨32, 16, .ro, 0⟩, ⟨48, 16, .ro, 0⟩]⟩, -- HQE_PERR
  ⟨0x30038, 0x0, 1, 0x0, 1, [⟨0, 16, .rw, 0⟩, ⟨16, 16, .rw, 0⟩, ⟨32, 1, .w1s, 0⟩]⟩, -- HQE_PCID
  ⟨0x30040, 0x0, 1, 0x0, 1, [⟨0, 16, .rw, 0⟩, ⟨16, 1, .rw, 0⟩]⟩, -- HQE_QSEL
  ⟨0x30048, 0x0, 1, 0x0, 1, [⟨0, 16, .ro, 0⟩, ⟨16, 16, .ro, 0⟩, ⟨32, 16, .ro, 0⟩, ⟨48, 16, .ro, 0⟩]⟩, -- HQE_QINFO
  ⟨0x30050, 0x0, 1, 0x0, 1, [⟨0, 1, .ro, 0⟩, ⟨1, 2, .ro, 0⟩, ⟨3, 11, .ro, 0⟩, ⟨14, 1, .ro, 0⟩, ⟨15, 1, .ro, 0⟩, ⟨16, 16, .ro, 0⟩]⟩, -- HQE_QATTR
  ⟨0x30058, 0x0, 1, 0x0, 1, [⟨0, 7, .rw, 0⟩, ⟨8, 4, .rw, 0⟩]⟩, -- HQE_NOTE
  ⟨0x30100, 0x0, 1, 0x8, 256, [⟨0, 7, .rw, 0⟩, ⟨8, 4, .rw, 0⟩, ⟨12, 1, .rw, 0⟩]⟩] -- HQE_DISP

/-- The rows of the `BPM` block. -/
def rowsBPM : List RegRow := [
  ⟨0x40000, 0x0, 1, 0x0, 1, [⟨0, 1, .rw, 0⟩, ⟨1, 1, .ro, 0⟩]⟩, -- BPM_CTL
  ⟨0x40008, 0x0, 1, 0x0, 1, [⟨0, 16, .ro, 0⟩, ⟨16, 16, .ro, 0⟩, ⟨32, 2, .ro, 0⟩, ⟨34, 1, .ro, 0⟩, ⟨48, 16, .ro, 0⟩]⟩, -- BPM_STAT
  ⟨0x40010, 0x0, 1, 0x0, 1, [⟨0, 16, .rw, 4096⟩, ⟨16, 16, .rw, 1024⟩, ⟨32, 16, .rw, 512⟩]⟩, -- BPM_WARN
  ⟨0x40018, 0x0, 1, 0x0, 1, [⟨0, 7, .rw, 0⟩, ⟨8, 4, .rw, 0⟩, ⟨12, 1, .rw, 0⟩]⟩, -- BPM_NOTE
  ⟨0x40020, 0x0, 1, 0x0, 1, [⟨0, 16, .ro, 0⟩, ⟨16, 16, .ro, 0⟩, ⟨32, 15, .ro, 0⟩, ⟨48, 7, .ro, 0⟩]⟩, -- BPM_ERR
  ⟨0x40028, 0x0, 1, 0x0, 1, [⟨0, 15, .wo, 0⟩]⟩, -- BPM_RETIRE
  ⟨0x40030, 0x0, 1, 0x0, 1, [⟨0, 15, .rw, 0⟩]⟩, -- BPM_BSEL
  ⟨0x40038, 0x0, 1, 0x0, 1, [⟨0, 2, .ro, 0⟩, ⟨8, 7, .ro, 0⟩, ⟨16, 4, .ro, 0⟩, ⟨20, 2, .ro, 0⟩]⟩, -- BPM_BINFO
  ⟨0x40100, 0x0, 1, 0x10, 16, [⟨0, 16, .rw, 0⟩, ⟨16, 16, .rw, 32768⟩, ⟨32, 1, .rw, 0⟩]⟩, -- BPM_CLS
  ⟨0x40108, 0x0, 1, 0x10, 16, [⟨0, 16, .ro, 0⟩, ⟨16, 16, .ro, 0⟩, ⟨32, 32, .ro, 0⟩]⟩] -- BPM_CST

/-- The rows of the `MAP` block. -/
def rowsMAP : List RegRow := [
  ⟨0x50000, 0x0, 1, 0x0, 1, [⟨0, 1, .rw, 0⟩]⟩, -- MAP_CTL
  ⟨0x50008, 0x0, 1, 0x0, 1, [⟨0, 5, .rw, 18⟩]⟩, -- MAP_CFG
  ⟨0x50010, 0x0, 1, 0x0, 1, [⟨16, 24, .rw, 0⟩]⟩, -- MAP_DBASE
  ⟨0x50018, 0x0, 1, 0x0, 1, [⟨16, 24, .rw, 0⟩]⟩, -- MAP_CBASE
  ⟨0x50020, 0x0, 1, 0x0, 1, [⟨0, 7, .rw, 0⟩, ⟨8, 4, .rw, 0⟩]⟩, -- MAP_NOTE
  ⟨0x50028, 0x0, 1, 0x0, 1, [⟨0, 32, .wo, 0⟩, ⟨32, 4, .wo, 0⟩]⟩, -- MAP_CMD
  ⟨0x50030, 0x0, 1, 0x0, 1, [⟨0, 2, .ro, 0⟩, ⟨2, 1, .ro, 0⟩, ⟨8, 4, .ro, 0⟩, ⟨32, 32, .ro, 0⟩]⟩, -- MAP_RESP
  ⟨0x50038, 0x0, 1, 0x0, 1, [⟨0, 22, .ro, 0⟩, ⟨22, 22, .ro, 0⟩]⟩, -- MAP_OCC
  ⟨0x50040, 0x0, 1, 0x0, 1, [⟨0, 22, .ro, 0⟩, ⟨22, 22, .ro, 0⟩]⟩, -- MAP_PINS
  ⟨0x50048, 0x0, 1, 0x0, 1, [⟨0, 64, .ro, 0⟩]⟩, -- MAP_HITS
  ⟨0x50050, 0x0, 1, 0x0, 1, [⟨0, 32, .ro, 0⟩, ⟨32, 32, .ro, 0⟩]⟩, -- MAP_MISS
  ⟨0x50058, 0x0, 1, 0x0, 1, [⟨0, 16, .ro, 0⟩, ⟨16, 18, .ro, 0⟩]⟩] -- MAP_ERR

/-- The rows of the `PSQ` block. -/
def rowsPSQ : List RegRow := [
  ⟨0x100000, 0x10000, 34, 0x0, 1, [⟨0, 1, .rw, 0⟩, ⟨1, 6, .ro, 0⟩, ⟨7, 1, .rw, 0⟩]⟩, -- PSQ_CTL
  ⟨0x100008, 0x10000, 34, 0x0, 1, [⟨0, 3, .ro, 0⟩, ⟨8, 12, .ro, 0⟩, ⟨24, 7, .ro, 0⟩, ⟨32, 32, .ro, 0⟩]⟩, -- PSQ_STAT
  ⟨0x100010, 0x10000, 34, 0x0, 1, [⟨0, 2, .rw, 0⟩, ⟨8, 12, .rw, 0⟩, ⟨20, 1, .w1s, 0⟩]⟩, -- PSQ_RATE
  ⟨0x100018, 0x10000, 34, 0x0, 1, [⟨0, 1, .w1s, 0⟩, ⟨1, 1, .w1s, 0⟩, ⟨2, 1, .ro, 0⟩, ⟨3, 1, .ro, 0⟩, ⟨4, 4, .ro, 0⟩, ⟨32, 16, .ro, 0⟩, ⟨48, 16, .ro, 0⟩]⟩, -- PSQ_TRAIN
  ⟨0x100020, 0x10000, 34, 0x0, 1, [⟨0, 16, .rw, 400⟩, ⟨16, 16, .rw, 1000⟩, ⟨32, 16, .rw, 1000⟩, ⟨48, 16, .rw, 3000⟩]⟩, -- PSQ_TMO0
  ⟨0x100028, 0x10000, 34, 0x0, 1, [⟨0, 16, .rw, 200⟩, ⟨16, 16, .rw, 1000⟩, ⟨32, 16, .rw, 50⟩]⟩, -- PSQ_TMO1
  ⟨0x100030, 0x10000, 34, 0x0, 1, [⟨0, 1, .rw, 1⟩, ⟨4, 16, .rw, 0⟩]⟩, -- PSQ_SUSP
  ⟨0x100038, 0x10000, 34, 0x0, 1, [⟨0, 16, .rw, 0⟩]⟩, -- PSQ_HOOK
  ⟨0x100040, 0x10000, 34, 0x0, 1, [⟨0, 16, .w1c, 0⟩, ⟨16, 16, .rw, 0⟩]⟩, -- PSQ_LUNOFF
  ⟨0x100048, 0x10000, 34, 0x0, 1, [⟨0, 16, .ro, 0⟩, ⟨16, 16, .ro, 0⟩, ⟨32, 16, .ro, 0⟩, ⟨48, 16, .ro, 0⟩]⟩, -- PSQ_ERR
  ⟨0x100050, 0x10000, 34, 0x0, 1, [⟨0, 7, .rw, 0⟩, ⟨8, 4, .rw, 0⟩, ⟨12, 1, .rw, 0⟩]⟩, -- PSQ_NOTE
  ⟨0x100058, 0x10000, 34, 0x0, 1, [⟨0, 1, .ro, 0⟩, ⟨1, 1, .ro, 0⟩, ⟨2, 1, .ro, 0⟩, ⟨8, 8, .ro, 0⟩, ⟨32, 32, .ro, 0⟩]⟩, -- PSQ_SIG
  ⟨0x100060, 0x10000, 34, 0x0, 1, [⟨0, 3, .rw, 0⟩, ⟨4, 14, .rw, 0⟩, ⟨18, 12, .rw, 0⟩, ⟨32, 6, .rw, 0⟩, ⟨40, 6, .rw, 0⟩, ⟨48, 6, .rw, 0⟩, ⟨56, 1, .rw, 0⟩]⟩, -- PSQ_GEOM
  ⟨0x100068, 0x10000, 34, 0x0, 1, [⟨0, 16, .rw, 20⟩]⟩, -- PSQ_WDOG
  ⟨0x100070, 0x10000, 34, 0x0, 1, [⟨0, 8, .rw, 0⟩, ⟨8, 8, .rw, 0⟩, ⟨16, 8, .rw, 0⟩, ⟨24, 1, .rw, 0⟩]⟩, -- PSQ_OPC
  ⟨0x100078, 0x10000, 34, 0x0, 1, [⟨0, 32, .ro, 0⟩, ⟨32, 32, .ro, 0⟩]⟩, -- PSQ_CNT
  ⟨0x100100, 0x10000, 34, 0x8, 16, [⟨0, 1, .ro, 0⟩, ⟨1, 1, .ro, 0⟩, ⟨2, 1, .ro, 0⟩, ⟨4, 4, .ro, 0⟩, ⟨8, 8, .ro, 0⟩, ⟨16, 16, .ro, 0⟩]⟩, -- PSQ_LUN
  ⟨0x104000, 0x10000, 34, 0x8, 2048, [⟨0, 64, .ro, 0⟩]⟩, -- PSQ_NANO
  ⟨0x108000, 0x10000, 34, 0x8, 4096, [⟨0, 24, .ro, 0⟩]⟩] -- PSQ_MICRO

/-- The rows of the `LPE` block. -/
def rowsLPE : List RegRow := [
  ⟨0x400000, 0x4000, 32, 0x0, 1, [⟨0, 1, .rw, 0⟩, ⟨1, 1, .rw, 1⟩, ⟨2, 1, .rw, 1⟩, ⟨3, 1, .rw, 1⟩, ⟨4, 1, .rw, 1⟩, ⟨5, 1, .rw, 1⟩]⟩, -- LPE_CTL
  ⟨0x400008, 0x4000, 32, 0x0, 1, [⟨0, 3, .rw, 3⟩, ⟨4, 3, .rw, 3⟩, ⟨8, 3, .rw, 6⟩, ⟨16, 8, .rw, 10⟩]⟩, -- LPE_FRAME
  ⟨0x400010, 0x4000, 32, 0x0, 1, [⟨0, 24, .rw, 10854711⟩]⟩, -- LPE_SMAP
  ⟨0x400018, 0x4000, 32, 0x0, 1, [⟨0, 4, .rw, 3⟩, ⟨4, 4, .rw, 2⟩, ⟨8, 8, .rw, 0⟩]⟩, -- LPE_SOFT
  ⟨0x400020, 0x4000, 32, 0x0, 1, [⟨0, 8, .rw, 250⟩, ⟨8, 8, .rw, 0⟩, ⟨16, 8, .rw, 8⟩, ⟨24, 1, .rw, 1⟩]⟩, -- LPE_EQ
  ⟨0x400028, 0x4000, 32, 0x0, 1, [⟨0, 8, .rw, 8⟩, ⟨8, 8, .rw, 0⟩]⟩, -- LPE_DET
  ⟨0x400030, 0x4000, 32, 0x0, 1, [⟨0, 6, .rw, 8⟩, ⟨8, 8, .rw, 48⟩, ⟨16, 8, .rw, 80⟩, ⟨24, 8, .rw, 112⟩, ⟨32, 5, .rw, 20⟩]⟩, -- LPE_LLR
  ⟨0x400038, 0x4000, 32, 0x0, 1, [⟨0, 11, .rw, 150⟩]⟩, -- LPE_EW
  ⟨0x400040, 0x4000, 32, 0x0, 1, [⟨0, 8, .rw, 0⟩, ⟨8, 8, .rw, 0⟩, ⟨16, 8, .rw, 0⟩, ⟨24, 8, .rw, 0⟩, ⟨32, 8, .rw, 0⟩, ⟨40, 8, .rw, 0⟩, ⟨48, 8, .rw, 0⟩, ⟨56, 8, .rw, 0⟩]⟩, -- LPE_OFS
  ⟨0x400048, 0x4000, 32, 0x0, 1, [⟨0, 2, .ro, 0⟩, ⟨2, 2, .ro, 0⟩, ⟨8, 8, .ro, 0⟩, ⟨16, 16, .ro, 0⟩, ⟨32, 32, .ro, 0⟩]⟩, -- LPE_DEC
  ⟨0x400050, 0x4000, 32, 0x0, 1, [⟨0, 32, .ro, 0⟩, ⟨32, 32, .ro, 0⟩]⟩, -- LPE_CNT0
  ⟨0x400058, 0x4000, 32, 0x0, 1, [⟨0, 32, .ro, 0⟩, ⟨32, 16, .ro, 0⟩, ⟨48, 16, .ro, 0⟩]⟩, -- LPE_CNT1
  ⟨0x400060, 0x4000, 32, 0x0, 1, [⟨0, 16, .ro, 0⟩, ⟨16, 16, .ro, 0⟩, ⟨32, 16, .ro, 0⟩, ⟨48, 16, .ro, 0⟩]⟩, -- LPE_CNT2
  ⟨0x400068, 0x4000, 32, 0x0, 1, [⟨0, 40, .ro, 0⟩, ⟨40, 1, .ro, 0⟩, ⟨48, 16, .ro, 0⟩]⟩, -- LPE_LAST
  ⟨0x400100, 0x4000, 32, 0x8, 15, [⟨0, 64, .rw, 0⟩]⟩, -- LPE_RTBL
  ⟨0x400200, 0x4000, 32, 0x8, 128, [⟨0, 4, .rw, 0⟩, ⟨4, 3, .rw, 0⟩, ⟨7, 1, .rw, 0⟩, ⟨8, 15, .rw, 0⟩]⟩] -- LPE_DCOL

/-- The rows of the `ASY` block. -/
def rowsASY : List RegRow := [
  ⟨0x500000, 0x0, 1, 0x0, 1, [⟨0, 1, .rw, 0⟩, ⟨1, 1, .w1s, 0⟩, ⟨2, 1, .w1s, 0⟩, ⟨3, 1, .w1s, 0⟩]⟩, -- ASY_CTL
  ⟨0x500008, 0x0, 1, 0x0, 1, [⟨0, 1, .ro, 0⟩, ⟨1, 1, .ro, 0⟩, ⟨2, 1, .ro, 0⟩, ⟨3, 1, .ro, 0⟩, ⟨16, 12, .ro, 0⟩]⟩, -- ASY_STAT
  ⟨0x500010, 0x0, 1, 0x0, 1, [⟨20, 20, .rw, 0⟩]⟩, -- ASY_TBASE
  ⟨0x500018, 0x0, 1, 0x0, 1, [⟨20, 20, .rw, 0⟩]⟩, -- ASY_SBASE
  ⟨0x500020, 0x0, 1, 0x0, 1, [⟨0, 4, .rw, 8⟩]⟩, -- ASY_GROUP
  ⟨0x500028, 0x0, 1, 0x0, 1, [⟨0, 4, .rw, 4⟩, ⟨4, 4, .rw, 2⟩, ⟨8, 4, .rw, 2⟩, ⟨16, 8, .rw, 8⟩, ⟨24, 8, .rw, 64⟩, ⟨32, 8, .rw, 32⟩]⟩, -- ASY_LOOP
  ⟨0x500030, 0x0, 1, 0x0, 1, [⟨0, 8, .rw, 24⟩, ⟨8, 8, .rw, 32⟩, ⟨16, 16, .rw, 100⟩, ⟨32, 8, .rw, 75⟩]⟩, -- ASY_GUARD
  ⟨0x500038, 0x0, 1, 0x0, 1, [⟨0, 7, .rw, 0⟩, ⟨8, 4, .rw, 0⟩, ⟨12, 1, .rw, 0⟩]⟩, -- ASY_NOTE
  ⟨0x500040, 0x0, 1, 0x0, 1, [⟨0, 32, .ro, 0⟩, ⟨32, 32, .ro, 0⟩]⟩, -- ASY_CNT0
  ⟨0x500048, 0x0, 1, 0x0, 1, [⟨0, 16, .ro, 0⟩, ⟨16, 16, .ro, 0⟩, ⟨32, 16, .ro, 0⟩, ⟨48, 16, .ro, 0⟩]⟩, -- ASY_CNT1
  ⟨0x500050, 0x0, 1, 0x0, 1, [⟨0, 16, .ro, 0⟩]⟩, -- ASY_CNT2
  ⟨0x500058, 0x0, 1, 0x0, 1, [⟨0, 16, .ro, 0⟩, ⟨16, 32, .ro, 0⟩]⟩, -- ASY_ALARM
  ⟨0x500060, 0x0, 1, 0x0, 1, [⟨0, 9, .rw, 0⟩, ⟨16, 6, .rw, 0⟩]⟩, -- ASY_ESEL
  ⟨0x500068, 0x0, 1, 0x0, 1, [⟨0, 8, .ro, 0⟩, ⟨8, 8, .ro, 0⟩, ⟨16, 8, .ro, 0⟩, ⟨24, 8, .ro, 0⟩, ⟨32, 8, .ro, 0⟩, ⟨40, 8, .ro, 0⟩, ⟨48, 8, .ro, 0⟩, ⟨56, 8, .ro, 0⟩]⟩, -- ASY_EAPP
  ⟨0x500070, 0x0, 1, 0x0, 1, [⟨0, 3, .wo, 0⟩, ⟨3, 1, .wo, 0⟩]⟩, -- ASY_ECMD
  ⟨0x500078, 0x0, 1, 0x0, 1, [⟨0, 16, .ro, 0⟩, ⟨16, 15, .ro, 0⟩]⟩] -- ASY_ERR

/-- The rows of the `PAR` block. -/
def rowsPAR : List RegRow := [
  ⟨0x510000, 0x0, 1, 0x0, 1, [⟨0, 1, .rw, 0⟩, ⟨1, 1, .rw, 0⟩]⟩, -- PAR_CTL
  ⟨0x510008, 0x0, 1, 0x0, 1, [⟨0, 5, .ro, 0⟩, ⟨8, 5, .ro, 0⟩]⟩, -- PAR_STAT
  ⟨0x510010, 0x0, 1, 0x0, 1, [⟨0, 32, .ro, 0⟩, ⟨32, 32, .ro, 0⟩]⟩, -- PAR_CNT0
  ⟨0x510018, 0x0, 1, 0x0, 1, [⟨0, 32, .ro, 0⟩, ⟨32, 16, .ro, 0⟩, ⟨48, 16, .ro, 0⟩]⟩, -- PAR_CNT1
  ⟨0x510020, 0x0, 1, 0x0, 1, [⟨0, 16, .ro, 0⟩, ⟨16, 15, .ro, 0⟩, ⟨32, 16, .ro, 0⟩]⟩, -- PAR_ERR
  ⟨0x510028, 0x0, 1, 0x0, 1, [⟨0, 5, .rw, 8⟩]⟩] -- PAR_CFG

/-- The rows of the `MEC` block. -/
def rowsMEC : List RegRow := [
  ⟨0x520000, 0x0, 1, 0x0, 1, [⟨0, 1, .rw, 1⟩, ⟨1, 1, .rw, 1⟩]⟩, -- MEC_CTL
  ⟨0x520008, 0x0, 1, 0x0, 1, [⟨0, 1, .rw, 0⟩, ⟨16, 10, .rw, 0⟩, ⟨32, 12, .rw, 200⟩, ⟨44, 12, .rw, 24⟩]⟩, -- MEC_SCRUB
  ⟨0x520010, 0x0, 1, 0x0, 1, [⟨0, 32, .ro, 0⟩, ⟨32, 32, .ro, 0⟩]⟩, -- MEC_LAP
  ⟨0x520018, 0x0, 1, 0x0, 1, [⟨0, 32, .ro, 0⟩, ⟨32, 16, .ro, 0⟩, ⟨48, 16, .ro, 0⟩]⟩, -- MEC_CNT0
  ⟨0x520020, 0x0, 1, 0x0, 1, [⟨0, 32, .ro, 0⟩, ⟨32, 16, .ro, 0⟩, ⟨48, 16, .ro, 0⟩]⟩, -- MEC_CNT1
  ⟨0x520028, 0x0, 1, 0x0, 1, [⟨0, 40, .ro, 0⟩, ⟨40, 1, .ro, 0⟩, ⟨41, 1, .w1c, 0⟩, ⟨42, 1, .w1c, 0⟩, ⟨43, 1, .ro, 0⟩, ⟨44, 8, .ro, 0⟩, ⟨52, 6, .ro, 0⟩]⟩, -- MEC_ELOG0
  ⟨0x520030, 0x0, 1, 0x0, 1, [⟨0, 5, .ro, 0⟩, ⟨5, 1, .ro, 0⟩, ⟨6, 4, .ro, 0⟩, ⟨10, 7, .ro, 0⟩]⟩, -- MEC_ELOG1
  ⟨0x520038, 0x0, 1, 0x0, 1, [⟨0, 40, .ro, 0⟩, ⟨40, 1, .ro, 0⟩, ⟨41, 5, .ro, 0⟩, ⟨46, 1, .ro, 0⟩, ⟨48, 8, .ro, 0⟩, ⟨56, 6, .ro, 0⟩]⟩, -- MEC_CLOG
  ⟨0x520040, 0x0, 1, 0x0, 1, [⟨0, 5, .rw, 0⟩, ⟨5, 1, .w1s, 0⟩, ⟨8, 5, .rw, 0⟩, ⟨13, 1, .w1s, 0⟩]⟩, -- MEC_DMARK
  ⟨0x520048, 0x0, 1, 0x0, 1, [⟨0, 16, .rw, 64⟩, ⟨16, 16, .rw, 1000⟩]⟩, -- MEC_DCFG
  ⟨0x520050, 0x0, 1, 0x0, 1, [⟨0, 7, .rw, 0⟩, ⟨8, 4, .rw, 0⟩, ⟨12, 1, .rw, 0⟩]⟩, -- MEC_NOTE
  ⟨0x520100, 0x0, 1, 0x8, 40, [⟨0, 32, .ro, 0⟩, ⟨32, 32, .ro, 0⟩]⟩, -- MEC_DEVCE
  ⟨0x520300, 0x0, 1, 0x10, 16, [⟨20, 20, .rw, 0⟩, ⟨40, 24, .rw, 0⟩]⟩, -- MEC_RGN0
  ⟨0x520308, 0x0, 1, 0x10, 16, [⟨0, 1, .rw, 0⟩, ⟨1, 1, .rw, 0⟩, ⟨2, 1, .rw, 0⟩, ⟨8, 7, .rw, 0⟩]⟩] -- MEC_RGN1

/-- The rows of the `FLT` block. -/
def rowsFLT : List RegRow := [
  ⟨0x530000, 0x0, 1, 0x0, 1, [⟨0, 4, .rw, 4⟩, ⟨8, 10, .rw, 50⟩]⟩, -- FLT_CTL
  ⟨0x530008, 0x0, 1, 0x0, 1, [⟨0, 16, .ro, 0⟩, ⟨16, 16, .ro, 0⟩, ⟨32, 1, .ro, 0⟩, ⟨33, 1, .ro, 0⟩]⟩, -- FLT_STAT
  ⟨0x530010, 0x0, 1, 0x0, 1, [⟨0, 7, .rw, 0⟩, ⟨8, 4, .rw, 0⟩, ⟨12, 1, .rw, 0⟩]⟩, -- FLT_NOTE
  ⟨0x530018, 0x0, 1, 0x0, 1, [⟨0, 6, .wo, 0⟩, ⟨6, 1, .w1s, 0⟩]⟩, -- FLT_DECL
  ⟨0x530020, 0x0, 1, 0x0, 1, [⟨0, 8, .ro, 0⟩, ⟨8, 7, .ro, 0⟩, ⟨15, 1, .ro, 0⟩, ⟨16, 1, .ro, 0⟩, ⟨32, 16, .ro, 0⟩]⟩, -- FLT_LAST0
  ⟨0x530028, 0x0, 1, 0x0, 1, [⟨0, 64, .ro, 0⟩]⟩, -- FLT_LAST1
  ⟨0x530100, 0x0, 1, 0x20, 8, [⟨0, 8, .rw, 0⟩, ⟨8, 7, .rw, 0⟩, ⟨16, 1, .rw, 0⟩, ⟨17, 1, .ro, 0⟩]⟩, -- FLT_INJA
  ⟨0x530108, 0x0, 1, 0x20, 8, [⟨0, 7, .rw, 0⟩, ⟨7, 1, .rw, 1⟩, ⟨8, 7, .rw, 0⟩, ⟨15, 1, .rw, 1⟩, ⟨16, 4, .rw, 0⟩, ⟨20, 1, .rw, 1⟩, ⟨21, 4, .rw, 0⟩, ⟨25, 1, .rw, 1⟩, ⟨26, 8, .rw, 0⟩, ⟨34, 1, .rw, 1⟩]⟩, -- FLT_INJB
  ⟨0x530110, 0x0, 1, 0x20, 8, [⟨0, 32, .rw, 0⟩, ⟨32, 16, .rw, 1⟩, ⟨48, 16, .rw, 0⟩]⟩, -- FLT_INJC
  ⟨0x530118, 0x0, 1, 0x20, 8, [⟨0, 32, .ro, 0⟩, ⟨32, 32, .ro, 0⟩]⟩] -- FLT_INJD

/-- The rows of the `SIG` block. -/
def rowsSIG : List RegRow := [
  ⟨0x540000, 0x0, 1, 0x0, 1, [⟨0, 1, .ro, 0⟩, ⟨1, 1, .ro, 0⟩, ⟨2, 1, .ro, 0⟩, ⟨3, 1, .ro, 0⟩, ⟨8, 8, .ro, 0⟩, ⟨16, 9, .ro, 0⟩]⟩, -- SIG_STAT
  ⟨0x540008, 0x0, 1, 0x0, 1, [⟨0, 1, .ro, 0⟩, ⟨1, 1, .ro, 0⟩, ⟨2, 3, .ro, 0⟩, ⟨5, 5, .ro, 0⟩, ⟨16, 32, .ro, 0⟩, ⟨48, 16, .ro, 0⟩]⟩, -- SIG_SESS
  ⟨0x540010, 0x0, 1, 0x0, 1, [⟨0, 3, .ro, 0⟩, ⟨3, 1, .ro, 0⟩, ⟨4, 2, .ro, 0⟩, ⟨6, 16, .ro, 0⟩, ⟨22, 4, .ro, 0⟩]⟩, -- SIG_SAN
  ⟨0x540018, 0x0, 1, 0x0, 1, [⟨0, 32, .ro, 0⟩, ⟨32, 32, .ro, 0⟩]⟩, -- SIG_GEN
  ⟨0x540020, 0x0, 1, 0x0, 1, [⟨0, 7, .rw, 0⟩, ⟨8, 4, .rw, 0⟩, ⟨12, 1, .rw, 0⟩]⟩, -- SIG_NOTE
  ⟨0x540028, 0x0, 1, 0x0, 1, [⟨0, 32, .ro, 0⟩, ⟨32, 16, .ro, 0⟩]⟩, -- SIG_SVC
  ⟨0x540030, 0x0, 1, 0x0, 1, [⟨0, 9, .rw, 0⟩]⟩, -- SIG_RSEL
  ⟨0x540038, 0x0, 1, 0x0, 1, [⟨0, 48, .ro, 0⟩, ⟨48, 8, .ro, 0⟩, ⟨56, 1, .ro, 0⟩, ⟨57, 1, .ro, 0⟩]⟩, -- SIG_RINFO0
  ⟨0x540040, 0x0, 1, 0x0, 1, [⟨0, 48, .ro, 0⟩]⟩, -- SIG_RINFO1
  ⟨0x540100, 0x0, 1, 0x8, 5, [⟨0, 64, .ro, 0⟩]⟩, -- SIG_RLOCK
  ⟨0x540140, 0x0, 1, 0x8, 5, [⟨0, 64, .ro, 0⟩]⟩] -- SIG_WLOCK

/-- The rows of the `LKT` block. -/
def rowsLKT : List RegRow := [
  ⟨0x550000, 0x0, 1, 0x80, 2, [⟨0, 32, .wo, 0⟩]⟩, -- LKT_KEY
  ⟨0x550008, 0x0, 1, 0x80, 2, [⟨0, 4, .wo, 0⟩]⟩, -- LKT_CMD
  ⟨0x550010, 0x0, 1, 0x80, 2, [⟨4, 17, .wo, 0⟩]⟩, -- LKT_ADDR
  ⟨0x550018, 0x0, 1, 0x80, 2, [⟨0, 64, .rw, 0⟩]⟩, -- LKT_DATA0
  ⟨0x550020, 0x0, 1, 0x80, 2, [⟨0, 64, .rw, 0⟩]⟩, -- LKT_DATA1
  ⟨0x550028, 0x0, 1, 0x80, 2, [⟨0, 3, .ro, 0⟩, ⟨3, 1, .ro, 0⟩, ⟨4, 4, .ro, 0⟩, ⟨8, 1, .ro, 0⟩, ⟨9, 2, .ro, 0⟩, ⟨11, 1, .ro, 0⟩, ⟨12, 1, .ro, 0⟩, ⟨16, 7, .ro, 0⟩]⟩, -- LKT_STAT
  ⟨0x550100, 0x0, 1, 0x0, 1, [⟨0, 4, .rw, 15⟩, ⟨4, 1, .ro, 0⟩]⟩, -- LKT_WAIT
  ⟨0x550108, 0x0, 1, 0x0, 1, [⟨0, 16, .ro, 0⟩, ⟨16, 1, .ro, 0⟩]⟩, -- LKT_REF
  ⟨0x550110, 0x0, 1, 0x0, 1, [⟨0, 10, .ro, 0⟩, ⟨16, 11, .ro, 0⟩, ⟨27, 1, .ro, 0⟩]⟩, -- LKT_VMON
  ⟨0x550118, 0x0, 1, 0x0, 1, [⟨0, 2, .rw, 2⟩, ⟨16, 16, .ro, 0⟩, ⟨32, 16, .ro, 0⟩]⟩, -- LKT_EW
  ⟨0x550120, 0x0, 1, 0x0, 1, [⟨4, 17, .ro, 0⟩, ⟨21, 2, .ro, 0⟩, ⟨23, 1, .ro, 0⟩, ⟨24, 1, .w1c, 0⟩]⟩, -- LKT_RDLOG
  ⟨0x550128, 0x0, 1, 0x0, 1, [⟨0, 9, .rw, 0⟩]⟩, -- LKT_SSEL
  ⟨0x550130, 0x0, 1, 0x0, 1, [⟨0, 24, .ro, 0⟩, ⟨24, 1, .ro, 0⟩, ⟨25, 1, .ro, 0⟩, ⟨26, 1, .ro, 0⟩, ⟨32, 16, .ro, 0⟩]⟩, -- LKT_SINFO
  ⟨0x550138, 0x0, 1, 0x0, 1, [⟨0, 16, .rw, 100⟩, ⟨16, 1, .rw, 1⟩]⟩, -- LKT_ESUSP
  ⟨0x550140, 0x0, 1, 0x0, 1, [⟨0, 7, .rw, 0⟩, ⟨8, 4, .rw, 0⟩, ⟨12, 1, .rw, 0⟩]⟩] -- LKT_NOTE

/-- The rows of the `PWR` block. -/
def rowsPWR : List RegRow := [
  ⟨0x560000, 0x0, 1, 0x0, 1, [⟨0, 4, .rw, 0⟩, ⟨4, 1, .w1s, 0⟩]⟩, -- PWR_CTL
  ⟨0x560008, 0x0, 1, 0x0, 1, [⟨0, 3, .ro, 0⟩, ⟨4, 3, .ro, 0⟩, ⟨7, 1, .ro, 0⟩, ⟨8, 2, .ro, 0⟩, ⟨10, 3, .ro, 0⟩, ⟨16, 32, .ro, 0⟩]⟩, -- PWR_STAT
  ⟨0x560010, 0x0, 1, 0x0, 1, [⟨0, 1, .rw, 1⟩, ⟨1, 1, .rw, 1⟩, ⟨2, 1, .rw, 0⟩, ⟨16, 32, .rw, 0⟩]⟩, -- PWR_WAKE
  ⟨0x560018, 0x0, 1, 0x0, 1, [⟨0, 16, .rw, 65535⟩, ⟨16, 16, .rw, 16384⟩]⟩, -- PWR_RMASK
  ⟨0x560020, 0x0, 1, 0x0, 1, [⟨0, 10, .rw, 720⟩, ⟨16, 1, .ro, 0⟩, ⟨17, 1, .ro, 0⟩, ⟨18, 1, .ro, 0⟩, ⟨32, 10, .ro, 0⟩]⟩, -- PWR_AVS
  ⟨0x560028, 0x0, 1, 0x0, 1, [⟨0, 10, .rw, 720⟩, ⟨10, 10, .rw, 750⟩, ⟨20, 10, .rw, 550⟩]⟩, -- PWR_AVSW
  ⟨0x560030, 0x0, 1, 0x0, 1, [⟨0, 4, .rw, 4⟩, ⟨4, 4, .rw, 10⟩, ⟨8, 1, .ro, 0⟩]⟩, -- PWR_XTAL
  ⟨0x560038, 0x0, 1, 0x0, 1, [⟨0, 7, .rw, 0⟩, ⟨8, 4, .rw, 0⟩]⟩, -- PWR_NOTE
  ⟨0x560040, 0x0, 1, 0x0, 1, [⟨0, 64, .ro, 0⟩]⟩] -- PWR_MBUF

/-- The rows of the `EVR` block. -/
def rowsEVR : List RegRow := [
  ⟨0x570000, 0x0, 1, 0x0, 1, [⟨0, 1, .rw, 0⟩, ⟨1, 3, .rw, 1⟩, ⟨5, 3, .rw, 4⟩, ⟨8, 1, .rw, 1⟩]⟩, -- EVR_CTL
  ⟨0x570008, 0x0, 1, 0x0, 1, [⟨22, 18, .rw, 0⟩]⟩, -- EVR_BASE
  ⟨0x570010, 0x0, 1, 0x0, 1, [⟨0, 17, .ro, 0⟩, ⟨32, 16, .ro, 0⟩, ⟨48, 8, .ro, 0⟩, ⟨56, 1, .ro, 0⟩]⟩, -- EVR_STAT
  ⟨0x570018, 0x0, 1, 0x0, 1, [⟨0, 64, .ro, 0⟩]⟩, -- EVR_NEXT
  ⟨0x570020, 0x0, 1, 0x0, 1, [⟨0, 32, .ro, 0⟩, ⟨32, 32, .ro, 0⟩]⟩, -- EVR_HOURS
  ⟨0x570028, 0x0, 1, 0x0, 1, [⟨0, 32, .ro, 0⟩]⟩, -- EVR_STARTS
  ⟨0x570030, 0x0, 1, 0x0, 1, [⟨0, 64, .rw, 0⟩]⟩, -- EVR_HCUR
  ⟨0x570038, 0x0, 1, 0x0, 1, [⟨0, 64, .rw, 0⟩]⟩, -- EVR_MCUR
  ⟨0x570040, 0x0, 1, 0x0, 1, [⟨0, 16, .ro, 0⟩, ⟨16, 16, .ro, 0⟩, ⟨32, 16, .ro, 0⟩, ⟨48, 16, .ro, 0⟩]⟩, -- EVR_PPOOL
  ⟨0x570048, 0x0, 1, 0x0, 1, [⟨0, 7, .rw, 0⟩, ⟨8, 4, .rw, 0⟩, ⟨12, 1, .rw, 0⟩]⟩] -- EVR_NOTE

/-- The rows of the `PAD` block. -/
def rowsPAD : List RegRow := [
  ⟨0x580000, 0x0, 1, 0x0, 1, [⟨0, 6, .w1c, 0⟩]⟩, -- PAD_HOLD
  ⟨0x580008, 0x0, 1, 0x0, 1, [⟨0, 6, .ro, 0⟩, ⟨16, 16, .ro, 0⟩]⟩] -- PAD_STAT

/-- The rows of the `TMR` block. -/
def rowsTMR : List RegRow := [
  ⟨0x590000, 0x0, 1, 0x0, 1, [⟨0, 1, .ro, 0⟩, ⟨1, 1, .ro, 0⟩, ⟨2, 1, .ro, 0⟩]⟩, -- TMR_STAT
  ⟨0x590008, 0x0, 1, 0x0, 1, [⟨0, 24, .ro, 0⟩, ⟨24, 1, .ro, 0⟩, ⟨32, 32, .ro, 0⟩]⟩, -- TMR_RCAL
  ⟨0x590010, 0x0, 1, 0x0, 1, [⟨0, 48, .ro, 0⟩]⟩, -- TMR_SLEPT
  ⟨0x590018, 0x0, 1, 0x0, 1, [⟨0, 64, .ro, 0⟩]⟩, -- TMR_ONTIME
  ⟨0x590020, 0x0, 1, 0x0, 1, [⟨0, 64, .ro, 0⟩]⟩, -- TMR_ACTIVE
  ⟨0x590028, 0x0, 1, 0x0, 1, [⟨0, 48, .rw, 0⟩, ⟨48, 3, .rw, 0⟩]⟩] -- TMR_STAMP

end Sys2Proof.Machine
end

