-- ==== Sys2Proof/Machine/Tab.lean ====
section
/-! DEFINITION. Reading and writing the sparse tables, and the bit fields of a double. -/

namespace Sys2Proof.Machine

/-- The entry at `k`, if the table lists one. -/
def tget {α : Type} : Tab α → Nat → Option α
  | [], _ => none
  | (j, v) :: t, k => if j = k then some v else tget t k

/-- The entry at `k`, or `d` where the table lists none. -/
def tgetD {α : Type} (t : Tab α) (k : Nat) (d : α) : α := (tget t k).getD d

/-- Enter `v` at `k`, keeping the table in rising order. -/
def tput {α : Type} : Tab α → Nat → α → Tab α
  | [], k, v => [(k, v)]
  | (j, w) :: t, k, v =>
    if j = k then (k, v) :: t
    else if k < j then (k, v) :: (j, w) :: t
    else (j, w) :: tput t k v

/-- Remove the entry at `k`. -/
def tdel {α : Type} : Tab α → Nat → Tab α
  | [], _ => []
  | (j, w) :: t, k => if j = k then tdel t k else (j, w) :: tdel t k

/-- Every listed key is above `k` and the keys rise strictly: the one canonical form of a table. -/
def tabAbove {α : Type} (k : Nat) : Tab α → Bool
  | [] => true
  | (j, _) :: t => decide (k < j) && tabAbove j t

/-- A table is canonical: its keys rise strictly. -/
def tabWf {α : Type} : Tab α → Bool
  | [] => true
  | (j, _) :: t => tabAbove j t

/-- Numbers kept as a set: membership, insertion, removal. -/
def sHas (t : Tab Unit) (k : Nat) : Bool := (tget t k).isSome
def sAdd (t : Tab Unit) (k : Nat) : Tab Unit := tput t k ()
def sDel (t : Tab Unit) (k : Nat) : Tab Unit := tdel t k
def sSet (t : Tab Unit) (k : Nat) (b : Bool) : Tab Unit := if b then sAdd t k else sDel t k

/-- Bits `[lo + width - 1 : lo]` of a double. -/
def bits (w : Word) (lo width : Nat) : Nat := (w.toNat >>> lo) % 2 ^ width

/-- One bit of a double. -/
def bit (w : Word) (n : Nat) : Bool := w.getLsbD n

/-- The mask of bits `[lo + width - 1 : lo]`. -/
def fieldMask (lo width : Nat) : Word := BitVec.ofNat 64 ((2 ^ width - 1) <<< lo)

/-- `w` with bits `[lo + width - 1 : lo]` replaced by the low bits of `v`. -/
def setBits (w : Word) (lo width v : Nat) : Word :=
  (w &&& ~~~(fieldMask lo width)) ||| (BitVec.ofNat 64 ((v % 2 ^ width) <<< lo))

/-- A Boolean as a number. -/
def b2n (b : Bool) : Nat := if b then 1 else 0

/-- Bytes `[off + n - 1 : off]` of a 64-byte payload, little-endian (R47). -/
def pGet (p : BitVec 512) (off n : Nat) : Nat := (p.toNat >>> (8 * off)) % 2 ^ (8 * n)

/-- Enter `v` at bytes `[off + n - 1 : off]` of a payload that is zero there. -/
def pPut (p : BitVec 512) (off n v : Nat) : BitVec 512 :=
  p ||| BitVec.ofNat 512 ((v % 2 ^ (8 * n)) <<< (8 * off))

/-- A payload from (offset, size in bytes, value) entries, every other byte zero. -/
def payloadOf (l : List (Nat × Nat × Nat)) : BitVec 512 :=
  l.foldl (fun p e => pPut p e.1 e.2.1 e.2.2) 0#512

/-- The number of entries of a list that satisfy `p`. -/
def countIf {α : Type} (p : α → Bool) (l : List α) : Nat := (l.filter p).length

/-- The first entry of a list that satisfies `p`, and the list without it. -/
def takeFirst {α : Type} (p : α → Bool) : List α → Option (α × List α)
  | [] => none
  | a :: t =>
    if p a then some (a, t)
    else match takeFirst p t with
      | some (b, r) => some (b, a :: r)
      | none => none

/-- The last entry of a list that satisfies `p`. -/
def findLast {α : Type} (p : α → Bool) (l : List α) : Option α := (l.filter p).getLast?

/-- The sum of `f` over a list. -/
def sumOf {α : Type} (f : α → Nat) (l : List α) : Nat := l.foldl (fun n a => n + f a) 0

/-- The least number below `n` that satisfies `p`. -/
def leastBelow (p : Nat → Bool) (n : Nat) : Option Nat := (List.range n).find? p

end Sys2Proof.Machine
end

