-- ==== Sys2Proof/Machine/StateParts1.lean ====
section
/-! DEFINITION. The plain-data parts of the state that belong to the self-timed core: messages, Facet cores, memory,
beads, the map assist, the event recorder, the memory codes, the fault monitor and the clasps. -/

namespace Sys2Proof.Machine

/-- A Chain message (R21). `chkOk` says whether `CHK` holds over the header and payload as carried, `seqOk` whether `SEQ`
was the next expected for its pair when it reached its destination (R23). -/
structure Msg where
  dst : Nat
  src : Nat
  mbx : Nat
  sub : Nat
  seq : Nat
  chk : BitVec 16
  chkOk : Bool
  seqOk : Bool
  payload : BitVec 512
  /-- An injector has corrupted it (R441, R442). -/
  inj : Bool := false
  deriving DecidableEq, Repr

/-- A general register: 64 value bits and one poison bit (R45). -/
structure RVal where
  val : Word
  poison : Bool
  deriving DecidableEq, Repr

/-- What a waiting core waits in (R80, R83): the instruction, which re-executes or completes. -/
inductive Wait where
  /-- `csend` held back: payload register, destination register, mailbox. -/
  | send (gr ge mbx : Nat)
  /-- `crecv` on an empty mailbox: buffer register, header register, mailbox. -/
  | recv (gr ge mbx : Nat)
  /-- `cwait`: poll-word register, mask register. -/
  | poll (gr ge : Nat)
  deriving DecidableEq, Repr

/-- What a Facet core is doing (R25, R71, R83, R432). -/
inductive CoreStatus where
  /-- Not yet released by Signet after a device reset, or fused off. -/
  | unreleased
  /-- Loaded, executing nothing until a takeover (R25). -/
  | spare
  | running
  | waiting (w : Wait)
  /-- Stopped by a double trap or a stall, before it is fenced (R71, R441). -/
  | stopped
  /-- Fenced by a takeover or at its start-up self-test (R25, R432). -/
  | fenced
  deriving DecidableEq, Repr

/-- An assist effect that an open transaction tracks (R86). -/
inductive Effect where
  | freeBead (b : Nat)
  | giveBead (b ep : Nat)
  | allocBead (b : Nat)
  | pinPage (mpn : Nat)
  | unpinPage (mpn : Nat)
  deriving DecidableEq, Repr

/-- A core's transaction (R86, R87). -/
structure Tx where
  isOpen : Bool
  /-- The last transaction was ended by a trap other than 0x07 (`tstate` bit [1]). -/
  ended : Bool
  /-- `tnow` when it was opened (R87 cause 0x08). -/
  since : Nat
  /-- Sends held back, in program order. -/
  sends : List Msg
  /-- Messages taken, with their order kept. -/
  taken : List Msg
  effects : List Effect
  /-- Control-space stores held back: offset and data, in program order. -/
  stores : List (Nat × Word)
  deriving DecidableEq, Repr

/-- The control registers of a core (R64 to R68) that are held as words. -/
structure CoreRegs where
  hbase : Word
  hstat : Word
  hcode : Word
  hresume : Word
  hinfo : Word
  hkeep0 : Word
  hkeep1 : Word
  wdog : Word
  bpa : Word
  icount : Word
  deriving DecidableEq, Repr

/-- One Facet core (R45, R46, R64, R85 to R90). -/
structure Core where
  status : CoreStatus
  /-- `g1` to `g31`; an unlisted register is zero with poison clear. -/
  g : Tab RVal
  /-- The 40-bit program counter (R46). -/
  pc : Nat
  /-- The target of the last `jr` or `callr`, while it lies outside the instruction store: what its fetch reports (R50). -/
  wild : Option Nat
  /-- `cid.ROLE` (R65). -/
  role : Nat
  cr : CoreRegs
  tx : Tx
  /-- Commit count of the core (R87). -/
  commits : Nat
  /-- Map pages pinned by this role, with the number of pins of each (R211). -/
  pins : Tab Nat
  /-- `tnow` when the watchdog interval began (R68). -/
  wdStart : Nat
  /-- Parked for an activation (R502). -/
  parked : Bool
  /-- Asked to stall by injector kind 0x20, with the injector's number (R441). -/
  stallBy : Option Nat
  deriving DecidableEq, Repr

/-- Everything addressed by byte: written bytes, poisoned doubles, and the region tag each DRAM double was encoded
with (R48, R405 to R408, R412). Keys are physical addresses; the stores local to core `n` stand at
`(n + 1) * 2 ^ 40` plus their address. -/
structure Mem where
  cells : List Host.Cell
  poison : Tab Unit
  tags : Tab Nat
  deriving DecidableEq, Repr

/-- A bead's state (R175). -/
inductive BeadSt where
  | free | granted | retired
  deriving DecidableEq, Repr

/-- What the pool manager keeps of one bead (R175, R176, R189). -/
structure Bead where
  st : BeadSt
  owner : Nat
  cls : Nat
  ue : Nat
  deriving DecidableEq, Repr

/-- A group request of the host queue engine to the bead pool (R139, R181). -/
structure GroupReq where
  slot : Nat
  first : Nat
  count : Nat
  cls : Nat
  deriving DecidableEq, Repr

/-- The bead pool beyond its registers (R175, R179, R181, R194). -/
structure Pool where
  beads : Tab Bead
  /-- AHM4816: freed beads, head of the threaded list first, before the ascending tail (R179). -/
  freed : List Nat
  /-- AHM4816: the first bead of the ascending tail of the list that `EN` built. -/
  tail : Nat
  /-- Group requests that wait, in arrival order (R181). -/
  waiting : List GroupReq
  allocs : Nat
  refQuota : Nat
  refBead : Nat
  /-- Errors of bead memory, correctable and uncorrectable, as log page 0xC6 counts them (R194, R591). -/
  corrected : Nat
  uncorrected : Nat
  repulls : Nat
  rereads : Nat
  level1 : Nat
  level2 : Nat
  waited : Nat
  /-- Allocations per class (R194). -/
  classAllocs : Tab Nat
  deriving DecidableEq, Repr

/-- One directory entry: a frame of the map cache (R207). -/
structure Frame where
  mpn : Nat
  pins : Nat
  valid : Bool
  dirty : Bool
  busy : Bool
  wb : Bool
  ref : Bool
  deriving DecidableEq, Repr

/-- The MAP assist (R207 to R209, R225): frames by number, unlisted ones empty, each set's hand, sets treated as failed, and the
requester of each page that loads. -/
structure MapAssist where
  frames : Tab Frame
  hands : Tab Nat
  failed : Tab Unit
  wanted : Tab Nat
  deriving DecidableEq, Repr

/-- One event record (R547). -/
structure Record where
  seq : Nat
  hours : Nat
  starts : Nat
  tnow : Nat
  sev : Nat
  injected : Bool
  persistent : Bool
  byHw : Bool
  cont : Bool
  src : Nat
  kind : Nat
  body : BitVec 256
  deriving DecidableEq, Repr

/-- A record before the recorder has accepted it (R547, R548). -/
structure Draft where
  sev : Nat
  injected : Bool
  byHw : Bool
  cont : Bool
  src : Nat
  kind : Nat
  body : BitVec 256
  deriving DecidableEq, Repr

/-- One pool of the persistent copy: the next record place, and the records by place (R554). -/
structure PPool where
  next : Nat
  recs : Tab Record
  deriving DecidableEq, Repr

/-- A record on its way to its pool: its place there, and the codewords of it that are written (R554, R555). -/
structure Copying where
  record : Record
  place : Nat
  word : Nat
  deriving DecidableEq, Repr

/-- A snapshot of log page 0xC0 (R557). -/
structure LogSnap where
  records : List Record
  newest : Nat
  missed : Nat
  persistent : Bool
  more : Bool
  cursor : Nat
  builtAt : Nat
  deriving DecidableEq, Repr

/-- The event recorder beyond its registers (R548 to R558). -/
structure Evr where
  /-- The ring, oldest first. -/
  ring : List Record
  /-- Records accepted before `EVR_CTL.EN`, at most 256, oldest first (R553). -/
  early : List Record
  /-- First records of pairs, held by source (R550). -/
  firsts : Tab Draft
  poolErr : PPool
  poolCrit : PPool
  poolFatal : PPool
  poolSec : PPool
  /-- The mark of R552, a sequence number. -/
  mark : Nat
  hostSnap : Option LogSnap
  mgmtSnap : Option LogSnap
  /-- The counter codewords written, newest first: on, active, starts, mark (R556). -/
  counters : List (Nat × Nat × Nat × Nat)
  /-- Lifetime counts of the health log, running and last saved (R558). -/
  lifetime : Tab Nat
  lifetimeSaved : Tab Nat
  /-- Records lost to overwriting or dropping since the ring began, by the numbers that they have or would carry (R557). -/
  lost : List Nat
  /-- Accepted records whose persistent copy has not begun, in acceptance order, and the one that is being written (R555). -/
  copies : List Record
  copying : Option Copying
  /-- The codeword of the counter partition that is written next (R556). -/
  counterAt : Nat
  deriving DecidableEq, Repr

/-- A half of a Strong block that `zl` has written, before it is known whether the other half follows (R413): the core, the address,
and what the read for a merge would find in the block: 0 nothing, 1 a correctable error, 2 an uncorrectable one; its device, and
whether it is a tag mismatch. -/
structure HalfBlock where
  core : Nat
  base : Nat
  found : Nat
  dev : Nat
  tag : Bool
  deriving DecidableEq, Repr

/-- The memory-code units and scrubber beyond their registers (R415, R418 to R421). -/
structure Mec where
  /-- Strong blocks of which `zl` has written one half and nothing has been accessed since (R413). -/
  halves : List HalfBlock := []
  /-- Corrected blocks of each device within the present window (R415). -/
  inWindow : Tab Nat
  /-- When each device's window began, in ms (R415). -/
  windowAt : Tab Nat
  /-- Correctable errors of the present second, DRAM and SRAM (R419). -/
  secondDram : Nat
  secondSram : Nat
  /-- The scrubber's next DRAM block and next SRAM double, and when each lap began (R418, R421). -/
  dramNext : Nat
  sramNext : Nat
  dramLapAt : Nat
  sramLapAt : Nat
  dramWarned : Bool
  sramWarned : Bool
  /-- The scrubber is fenced (R429). -/
  fenced : Bool
  deriving DecidableEq, Repr

/-- The fault monitor and injectors beyond their registers (R440, R441). -/
structure Flt where
  /-- Channels whose PHY or clasp an injected fault struck next: (channel, kind, parameter, injector). -/
  armed : List (Nat × Nat × Nat × Nat)
  /-- When each injector was armed (R440). -/
  armedAt : Tab Nat
  /-- Messages held by kind 0x05, with the later messages of the pair still to deliver first (R441). -/
  reordered : List (Msg × Nat)
  /-- Messages held by kind 0x06, with the instant they are released (R441). -/
  delayed : List (Msg × Nat)
  /-- What happens now comes of an injected fault, so that its records carry the injected flag (R442). False between commands. -/
  blame : Bool
  /-- Pairs that an injector has left a gap in, and dies whose LUN an injected fault took offline (R442). -/
  gaps : List Nat
  blamedDies : List Nat
  deriving DecidableEq, Repr

/-- The clasps beyond their registers (R107, R114 to R116, R120). -/
structure Clasps where
  /-- Event lanes that toggled, by clasp * 32 + lane: the instant at which their acknowledge phase ends (R107, R113). -/
  acking : Tab Nat
  /-- Clasps whose reset side is still in reset. -/
  inReset : Tab Unit
  /-- Clasps that sent a notice since their `CLP_STAT` was read (R120). -/
  noticed : Tab Unit
  /-- The last agreed words of `PSQ_STAT` and `PSQ_CNT` of each sequencer whose control clasp left CLOSED (R115, R309). -/
  held : Tab (Word × Word)
  /-- The last agreed value of `tnow` since clasp 7 broke (R113, R115). -/
  heldNow : Option Nat
  deriving DecidableEq, Repr

end Sys2Proof.Machine
end

