-- ==== Sys2Proof/Machine/StateParts2.lean ====
section
/-! DEFINITION. The plain-data parts of the state that belong to the host side: queues, in-flight slots, features and
what the block has put in front of the host. -/

namespace Sys2Proof.Machine

/-- A Format NVM in force (R170, R477): format, type and place of protection information, extended metadata, whether it erases
keys, whether it names every namespace, and the order number of its command. -/
structure FormatTo where
  fmt : Nat
  pi : Nat
  piFirst : Bool
  extended : Bool
  erase : Bool
  whole : Bool
  order : Nat
  deriving DecidableEq, Repr

/-- A namespace (R130, R143, R170, R171, R196). -/
structure Namespace where
  /-- `ns_base`, the first map page number (R196). -/
  base : Nat
  lbas : Nat
  format : Nat
  /-- Protection information type, 0 none, and its place at the start of the metadata (R143). -/
  pi : Nat
  piFirst : Bool
  attached : Bool
  /-- Metadata is transferred with the data, as one extended block (R130). -/
  extended : Bool
  formatTo : Option FormatTo
  /-- A detach, or a deletion, that waits for the commands already dispatched, with the order number of its command (R171). -/
  leaving : Option (Nat × Bool)
  deriving DecidableEq, Repr

def Namespace.formatting (n : Namespace) : Bool := n.formatTo.isSome

/-- A submission queue (R131, R133). -/
structure SubQueue where
  entries : Nat
  head : Nat
  tail : Nat
  cq : Nat
  prio : Nat
  /-- Delete I/O SQ has stopped fetching from it (R164). -/
  deleting : Bool
  /-- The slot of the Delete I/O SQ command that waits for it. -/
  deleteSlot : Option Nat
  deriving DecidableEq, Repr

/-- A completion queue (R131, R142): `head` as the host last wrote it, `tail` where the engine posts next. -/
structure ComQueue where
  entries : Nat
  head : Nat
  tail : Nat
  iv : Nat
  ien : Bool
  phase : Bool
  deriving DecidableEq, Repr

/-- How a command counts in the hazard table (R138). -/
inductive HazKind where
  | none | readLike | writeLike
  deriving DecidableEq, Repr

/-- A group of beads being filled from the host, or a piece of one that the manager has split (R139, R140, R181). -/
structure PullGroup where
  first : Nat
  beads : List Nat
  repull : Bool
  /-- More pieces of the group follow. -/
  part : Bool
  deriving DecidableEq, Repr

/-- One entry of a read-data message, its transfer to the host not ended (R141). -/
structure Transfer where
  unit : Nat
  bead : Nat
  sector : Nat
  sectors : Nat
  deriving DecidableEq, Repr

/-- A completion that the engine holds for a slot (R142). -/
structure HeldCompletion where
  status : Nat
  dw0 : Nat
  dw1 : Nat
  flagged : Bool
  deriving DecidableEq, Repr

/-- An in-flight slot (R137 to R142, R188). -/
structure Slot where
  cmd : NvmeCmd
  sq : Nat
  admin : Bool
  fetchedAt : Nat
  /-- Place in the order of fetching. -/
  order : Nat
  kind : HazKind
  /-- The range of 4 KiB units in the hazard table, inclusive; every unit of every namespace when `allNs`. -/
  nsid : Nat
  firstUnit : Nat
  lastUnit : Nat
  allNs : Bool
  inHazard : Bool
  /-- A Dataset Management range list is still to arrive (R138). -/
  listPending : Bool
  listBead : Option Nat
  held : Bool
  wasHeld : Bool
  /-- The slot of the latest overlapping command of another SQ at fetch (R136). -/
  cross : Option Nat
  dispatched : Bool
  ep : Nat
  mbx : Nat
  /-- The status with which firmware turns the command away, as found at its dispatch (R172). -/
  verdict : Option Nat
  /-- Units of the transfer, and how many of them have been requested from the bead pool (R139). -/
  units : Nat
  requested : Nat
  /-- Groups outstanding: waiting for beads or being filled (R139). -/
  groups : Nat
  pulls : List PullGroup
  /-- No more data is pulled after flag [0] or [1] of write data ready: the status of that message (R139). -/
  pullStopped : Option Nat
  transfers : List Transfer
  /-- A failure found on a read transfer, in place of a success status (R143). -/
  readFail : Option (Nat × Nat)
  completion : Option HeldCompletion
  /-- The notice that goes with the completion entry of a queue command: code and queue (R131, R144). -/
  notice : Option (Nat × Nat)
  beadError : Bool
  cancelled : Bool
  deriving DecidableEq, Repr

/-- What the block puts in front of the host. -/
inductive HostEvent where
  /-- A completion entry: CQ, SQ, CID, status field (SC, SCT, DNR as R142), dword 0, dword 1, SQ head, phase. -/
  | cqe (cq sq cid status dw0 dw1 sqhd : Nat) (phase : Bool)
  | msix (vector : Nat)
  /-- Data of a unit written to host memory: slot, unit, bead, first sector, sectors, data doubles. -/
  | data (slot unit bead sector sectors : Nat) (words : List Word)
  /-- A read of SQ entries: SQ, first entry, count, host reads used (R133). -/
  | fetch (sq first count reads : Nat)
  /-- A pull of a unit's data from the host: slot, unit, bead. -/
  | pull (slot unit bead : Nat)
  /-- Answers to configuration requests: retry status, or the identifiers of R124. -/
  | configRetry
  | configAnswer (vendor device revision classCode ssvid ssid : Nat)
  /-- Another configuration request is done. -/
  | configDone
  /-- A dword of BAR0 read, or the read answered with Unsupported Request (R123, R125). -/
  | barAnswer (off value : Nat)
  | barUnsupported (off : Nat)
  /-- An asynchronous event reported: type, information, log page. -/
  | asyncEvent (type info page : Nat)
  /-- An injected link error as the partner meets it (R123). -/
  | linkError (kind : Nat)
  /-- The status word of the ROM Recovery window (R507). -/
  | romStatus (word : Nat)
  deriving DecidableEq, Repr

/-- The PCIe function and link beyond `HQE_LINK` (R121, R123, R125; log entry 150). -/
structure Link where
  /-- Codes of Max Payload Size and Max Read Request Size: 128 bytes times two to the code. -/
  mps : Nat
  mrrs : Nat
  /-- Requester tag bits: 8, 10 or 14. -/
  tags : Nat
  /-- Completion timeout code, and disabled. -/
  timeout : Nat
  timeoutOff : Bool
  /-- 0 D0, 3 D3hot. -/
  power : Nat
  /-- AER status registers. -/
  uncor : BitVec 32
  cor : BitVec 32
  /-- Received Target Abort and Received Master Abort of the Status register. -/
  targetAbort : Bool
  masterAbort : Bool
  msixOn : Bool
  msixMask : Bool
  /-- MSI-X table dwords written, by vector * 4 + dword; a vector that is not written is masked. -/
  msix : Tab (BitVec 32)
  /-- Pending bits. -/
  pending : Tab Unit
  /-- Completions of host memory reads that an injector is still to discard (R123). -/
  dropNext : Nat
  /-- Reads of BAR0 that an injector is still to answer with Unsupported Request (R123). -/
  refuseNext : Nat
  deriving DecidableEq, Repr

/-- The host queue engine and the NVMe controller beyond their registers (R125 to R145, R163 to R166). -/
structure Hqe where
  link : Link
  /-- `CC` and `AQA`, as the host last wrote them. -/
  cc : Nat
  aqa : Nat
  /-- `CC.AMS` when the controller was enabled, and `CC.SHN` when it left 00b: other writes have no effect (R136). -/
  ams : Nat
  shn : Nat
  /-- `CSTS.CFS`, which a controller reset leaves set (R430). -/
  cfs : Bool
  /-- `CSTS.NSSRO` and `CSTS.PP` (R125, R502). -/
  nssro : Bool
  pp : Bool
  sqs : Tab SubQueue
  cqs : Tab ComQueue
  /-- SQ entries fetched and not yet arrived: SQ, first entry, count. -/
  fetching : List (Nat × Nat × Nat)
  slots : Tab Slot
  nextOrder : Nat
  /-- SQ that round robin serves next, and turns left to the high, medium and low classes (R133). -/
  nextSq : Nat
  credit : Nat × Nat × Nat
  /-- Fetching or dispatch is stopped by a queue drain or an activation (R167, R168). -/
  drained : Bool
  fetched : Nat
  completed : Nat
  /-- Slots of outstanding Asynchronous Event Requests, oldest first, and events not yet reported (R126). -/
  aers : List Nat
  events : List (Nat × Nat × Nat)
  /-- Features: current and saved values by identifier (R127). -/
  features : Tab Nat
  saved : Tab Nat
  /-- MSI-X writes pending under coalescing, by vector: completions waiting (R142). -/
  coalesced : Tab Nat
  /-- The 1.0 s of R124 have passed with `LOCK` clear. -/
  pcidLapsed : Bool
  /-- A shutdown has been requested in `CC.SHN` (R166). -/
  shutdown : Bool
  /-- Namespaces of the Changed Namespace List (R128, R129). -/
  nsChanged : List Nat
  hostOut : List HostEvent
  deriving DecidableEq, Repr

end Sys2Proof.Machine
end

