-- ==== Sys2Proof/Machine/StateParts3.lean ====
section
/-! DEFINITION. The plain-data parts of the state that belong to the flash side: sequencers, Loupe channels, Assay, the
parity engine, and the firmware's map, journal, blocks, bands and background work. -/

namespace Sys2Proof.Machine

open Sys2Proof

/-! ### Sequencers and Loupe channels -/

/-- One captured sense of a slot (R317, R318): the bytes as captured, and the slips at which its marks were found. -/
structure Capture where
  bytes : List Byte
  primary : Option Int
  second : Option Int
  deriving DecidableEq, Repr

/-- A slot on its way through the Loupe channel (R317 to R330). -/
structure SlotWork where
  slot : Nat
  senses : List Capture
  /-- Transferred again under R320. -/
  again : Bool
  /-- The result word, once the slot has ended (R330). -/
  result : Option Nat
  /-- The number of its newest transfer among all transfers: slots wait for a decoder in this order (R327). -/
  came : Nat := 0
  deriving DecidableEq, Repr

/-- A request in a sequencer's shadow table (R292, R296). -/
structure PsqReq where
  op : Nat
  flags : Nat
  replyMbx : Nat
  replyEp : Nat
  ppa : Nat
  mask : Nat
  senses : Nat
  selector : Nat
  tag : Nat
  /-- The twelve bead fields (R292). -/
  beads : List Nat
  /-- Argument bytes 40 to 63, as a number. -/
  args : Nat
  src : Nat
  /-- 0 queued, 1 started, 2 suspended, 3 held for the next plane, 4 started and ended in the island, its reply held back by
  the clasp (R115, R118, R293, R296). -/
  phase : Nat
  /-- The die has reported ready: a `READ` is transferring (R297). -/
  sensed : Bool
  /-- Reply flags so far (R295). -/
  outFlags : Nat
  /-- Die busy time, ns (R295). -/
  busyNs : Nat
  slots : List SlotWork
  /-- Sense-0 offsets of levels 1 to 7 and the single-level level, whether one was clamped, and whether this request had its
  re-trim (R320, R323). -/
  offs0 : List Int
  clamped : Bool
  retrimmed : Bool
  /-- When it was accepted, when its running operation began, and how much of an erase has run (R299, R300), ns. -/
  acceptedAt : Nat
  startedAt : Nat
  ran : Nat
  /-- The applied table yielded an uncorrectable error at its look-up (R351). -/
  noBase : Bool := false
  deriving DecidableEq, Repr

/-- What a nanoword drives on the channel for its clock (R287): the bus cycle of its `BUS` field, the byte that the cycle
carries where the core side of the model has it (none on the bead stream and into the Loupe channel), and the `PHY` and `SENSE`
fields. -/
structure BusCycle where
  bus : Nat
  byte : Option Byte
  phy : Nat
  sense : Bool
  deriving DecidableEq, Repr

/-- A sequencer beyond its registers (R284 to R288, R296, R304). -/
structure Seq where
  shadow : List PsqReq
  stack : List Nat
  counters : Tab Nat
  /-- Instants at which timers t0 to t3 expire (R287). -/
  timers : Tab Nat
  /-- Status register, last read (R286, R287). -/
  status : Nat
  /-- The CE_N that is asserted, the slot to which `SLOTNX` has advanced, the sense that `SENSE` has reached, and what the last
  microword drove (R280, R287). -/
  ceOn : Option Nat
  slotAt : Option Nat
  senseAt : Nat
  cycle : Option BusCycle
  /-- Offsets last written to each LUN, by LUN index * 8 + level (R297). -/
  offsets : Tab Int
  /-- 0 none, 1 re-trim, 2 full training, 3 SDR bring-up (R281 to R283). -/
  training : Nat
  retrimFails : Nat
  /-- When step 5 of its takeover ended (R306). -/
  tookOverAt : Option Nat
  /-- A takeover loads this sequencer (R304). -/
  loading : Bool
  /-- The channel is lost (R306). -/
  lost : Bool
  /-- When the last re-trim ended (R310 `AGE`). -/
  trimAt : Nat
  /-- Replies that the island holds back while its control clasp is not CLOSED: request, status, slots, data (R115, R118). -/
  ended : List (PsqReq × Nat × Nat × Nat)
  /-- The island was reset or the channel taken over: the shadow table is to be re-run (R305). -/
  rerun : Bool
  deriving DecidableEq, Repr

/-- A learning record (R334). -/
structure LearnRec where
  chan : Nat
  lun : Nat
  plane : Nat
  ptype : Nat
  block : Nat
  selector : Nat
  senses : Nat
  flags : Nat
  cbits : Nat
  c01 : Nat
  c10 : Nat
  /-- Pilot counts of levels 1 to 7: up, down (R334); the single-level level stands at level 1. -/
  pilots : List (Nat × Nat)
  /-- Signed sums of the fused estimate over the pilots of levels 1 to 7, units of 1/64. -/
  sums : List Int
  /-- Sense-0 offsets of levels 1 to 7 and the single-level level. -/
  offsets : List Int
  deriving DecidableEq, Repr

/-- An entry of Assay (R341). -/
structure AsyEntry where
  o : List Int
  os : Int
  g : Int
  a : Int
  r : Int
  n : Nat
  acause : Nat
  alarm : Bool
  frozen : Bool
  learned : Bool
  deriving DecidableEq, Repr

/-- Assay beyond its registers (R341, R342, R346, R349). -/
structure Assay where
  /-- Loop state by entry index; an unlisted entry is zero. -/
  entries : Tab AsyEntry
  /-- Applied offsets by entry index, eight each; an unlisted entry's are zero. -/
  applied : Tab (List Int)
  input : List LearnRec
  /-- Slot transfers of all Loupe channels so far (R327). -/
  transfers : Nat
  /-- 0 idle, 1 loading, 2 copying, 3 loading for the firmware, which sets `LEARN` then (R348). -/
  work : Nat
  /-- The newest saved copy of the entries in flash (R349). -/
  saved : Tab AsyEntry
  savedHours : Nat
  /-- Records accepted, stale, and discarded by tests 2 to 5 since device reset (R355). -/
  accepted : Nat
  stale : Nat
  discarded : Nat
  /-- The highest whole per cent of alarms that has had its Notice record (R354). -/
  told : Nat
  deriving DecidableEq, Repr

/-- A job of the parity engine (R373, R374). -/
structure ParJob where
  op : Nat
  k : Nat
  replyMbx : Nat
  replyEp : Nat
  tag : Nat
  src : Nat
  status : Nat
  mism : Nat
  located : Nat
  offsets : Nat
  first : Nat
  deriving DecidableEq, Repr

/-! ### The map journal and the stripe journal -/

/-- A map journal record (R221). -/
inductive JRec where
  | nop
  | unit (ns : Nat) (conditional : Bool) (oldPpa seq unit entry : Nat)
  | range (ns kind count seq first entry : Nat)
  | mapPage (mpn seq entry : Nat)
  | frontier (use ppa : Nat)
  /-- States 0 opened, 1 closed, 2 released, 3 retired, 4 erase-indeterminate, 5 erased. -/
  | block (state use ppa : Nat)
  | snapshot (complete : Bool) (seq ppa : Nat)
  | nspace (ns : Nat) (deleted : Bool) (base units : Nat)
  | checkpoint (clean : Bool) (flush seq : Nat)
  deriving DecidableEq, Repr

/-- A stripe-journal record (R390), each with the record's sequence number. -/
inductive SRec where
  | band (k use serial dies : Nat)
  | members (entries : List Nat) (serial : Nat)
  | window (serial first last : Nat)
  | done (serial row : Nat)
  | loss (cause die hours : Nat)
  | rebuild (ended : Bool) (stripe count : Nat)
  | reshape (state k boundary count : Nat)
  | copy (index die block : Nat)
  | released (serial : Nat)
  deriving DecidableEq, Repr

/-- The block table record (R230). -/
structure BlockRec where
  erases : Nat
  state : Nat
  use : Nat
  ew : Bool
  ewPrev : Bool
  wear : Nat
  /-- Reads since the last erase. -/
  reads : Nat
  /-- Programmed since the last erase in single-level mode, in TLC mode or not at all (R231). -/
  lastSlc : Bool
  programmed : Bool
  /-- Pages that met the early warning, with the hour of the last time (R237), and pages rebuilt from parity (R243). -/
  ewPages : Tab Nat
  rebuilt : List Nat
  /-- Free by an erase that succeeded in the present power cycle (R232). -/
  pooled : Bool
  /-- An erased record stands for it, with no released record since (R230). -/
  erasedRec : Bool
  /-- The counter of sequence numbers when its last erase ended (R224). -/
  erasedSeq : Nat
  /-- The state that its last durable `BLOCK` record names (R259, R262). -/
  durable : Option Nat
  /-- Erased afresh after being erase-indeterminate: Assay ignores its next read (R244). -/
  ignoreRead : Bool
  /-- Marked by recovery for relocation of its valid units (R265). -/
  marked : Bool
  deriving DecidableEq, Repr

/-- A band (R229, R235, R362, R390): its blocks are numbers `PPA / 2^14`. -/
structure Band where
  use : Nat
  k : Nat
  blocks : List Nat
  /-- 0 open, 1 closed, 2 released. -/
  state : Nat
  /-- Tenths of power-on hours at its close, and those added for unpowered time (R235, R239). -/
  closedHours : Nat
  extraHours : Nat
  wearAtClose : Nat
  valid : Nat
  capacity : Nat
  refreshDue : Bool
  window : Nat
  doneRow : Nat
  /-- Dies that left the band while it was open, with the first row without each (R254, R369). -/
  gone : Tab Nat
  deriving DecidableEq, Repr

/-- A snapshot in a system band (R223, R264): what its units hold, where its first unit lies and how many there are (log entry
155). -/
structure Snapshot where
  seq : Nat
  complete : Bool
  pageTab : Tab Nat
  /-- The block table as it stood at the started record (R230). -/
  blocks : Tab BlockRec
  /-- The band table (R390). -/
  bands : Tab Band
  /-- Map pages that were dirty at the started record and are not yet written back (R263). -/
  dirty : List Nat
  /-- The flush that holds the started record, and the PPA of its journal unit (R264). -/
  flush : Nat
  recordPpa : Nat
  /-- System band, PPA of the header unit, units (R264). -/
  band : Nat
  first : Nat
  units : Nat
  deriving DecidableEq, Repr

/-- A cached unit (R241). -/
structure HotUnit where
  ns : Nat
  unit : Nat
  bead : Nat
  /-- The owner core whose cache holds it. -/
  owner : Nat
  lastHit : Nat
  deriving DecidableEq, Repr

/-- A mirror (R242): the unit, its second copy, the reads in the second that began at `since`, and whose turn the next read is. -/
structure Mirror where
  ns : Nat
  unit : Nat
  ppa : Nat
  reads : Nat
  since : Nat
  turn : Bool
  deriving DecidableEq, Repr

/-- A record of the system root (R264). -/
structure RootRec where
  generation : Nat
  system : Nat
  /-- The stripe-journal copies: die index and block. -/
  copies : List (Nat × Nat)
  reserve : Nat
  deriving DecidableEq, Repr

/-- The summary of a patrol lap or range pass (R397). -/
structure PassSummary where
  first : Nat
  last : Nat
  checked : Nat
  pages : Nat
  located : Nat
  notLocated : Nat
  slots : Nat
  lost : Nat
  warnings : Nat
  ms : Nat
  hours : Nat
  flags : Nat
  deriving DecidableEq, Repr

/-- An entry of log page 0xC4 (R399). -/
structure LostUnit where
  ns : Nat
  unit : Nat
  cause : Nat
  hours : Nat
  stripe : Nat
  deriving DecidableEq, Repr

/-- A unit of a write that waits for its stripe, or for the rest of its portion (R214, R215, R376): the order number of its
slot, namespace index, unit, sequence number (none before its portion is issued, R204), bead, the sectors that the command
names, the segment of its portion, the unit's index in the portion and the portion's units (R257), and whether it commits with
the range of its command (R159). -/
structure Waiting where
  order : Nat
  ns : Nat
  unit : Nat
  seq : Option Nat
  bead : Nat
  mask : Nat
  segment : Nat
  index : Nat
  count : Nat
  ranged : Bool
  deriving DecidableEq, Repr

/-- A range that takes effect when its journal record is durable (R151, R218, R219): kind 0 deallocate, 1 zeroes, 2
uncorrectable; its sequence number once a flush holds its record (R204). -/
structure RangeOp where
  order : Nat
  ns : Nat
  kind : Nat
  first : Nat
  count : Nat
  seq : Option Nat
  deriving DecidableEq, Repr

/-- The firmware's map, journal, blocks and bands (08, 09, 10, 14). -/
structure Fw where
  /-- Map entries by MPN * 1024 + index, as the owner core sees them; an unlisted one is deallocated (R199, R200). -/
  entries : Tab Nat
  /-- Map page table; an unlisted entry is `NEVER` (R206). -/
  pageTab : Tab Nat
  /-- Whole pages with a deallocation or zeroes pending, by MPN: the entry that every unit of the page holds (R200, R220). -/
  dealloc : Tab Nat
  /-- Dirty pages by MPN, with the time at which each was dirtied, and those that a miss named (R212). -/
  dirtySince : Tab Nat
  missNamed : List Nat
  /-- The counter of sequence numbers, and the highest number taken (R204, R221, R257). -/
  seqC : Nat
  seqTop : Nat
  /-- Records that wait for a flush, with the time of the oldest (R222). -/
  jWait : List JRec
  jOldest : Nat
  /-- The flush in progress: its records, whether it was made on PFAIL_N, and the numbers of its units (R203, R222). -/
  jFlush : Option (List JRec × Bool × List Nat)
  /-- An early flush is requested (R151, R222). -/
  jEarly : Bool
  jFlushNo : Nat
  /-- Durable records in journal order, from the first unit that is kept (R222, R223). -/
  journal : List JRec
  /-- The journal units that hold them: PPA and records of each (R221). -/
  jUnits : List (Nat × Nat)
  pfailFlush : Bool
  snaps : List Snapshot
  /-- The governing system root (R264). -/
  root : Option RootRec
  /-- Units in flash by PPA: 524 doubles of payload (R202, R312). -/
  flash : Tab (List Word)
  blocks : Tab BlockRec
  bands : Tab Band
  bandSerial : Nat
  /-- Frontiers of open blocks, by block number (R260). -/
  frontier : Tab Nat
  durFrontier : Tab Nat
  /-- Released blocks in the order of release, whose released record may still wait to be durable (R233, R262). -/
  released : List Nat
  /-- Stripe journal, oldest first, and its copies: die and block of each (R389, R390). -/
  stripes : List SRec
  copies : List (Nat × Nat)
  copiesReplaced : Nat
  /-- Records that the copies hold, units filled in the block of each copy, and a copy whose program failed (R389). -/
  stripesDone : Nat
  copyUsed : List Nat
  copyBad : Option Nat
  /-- Stripes whose parity recovery wrote afresh into the repair band: the PPAs of its four P and four Q units (R267). -/
  reparity : Tab (List Nat)
  /-- Die parameter records by channel, 64 bytes each (R279). -/
  records : Tab (List Byte)
  /-- Fit: dies, planes, blocks a plane, wordlines a block (R230, R279); blocks factory bad by number. -/
  dies : Nat
  planes : Nat
  blocksPer : Nat
  wordlines : Nat
  ratedCycles : Nat
  factoryBad : Nat
  initialReserve : Nat
  spareThreshold : Nat
  lostDies : Tab Nat
  lostHours : Tab Nat
  /-- The DRAM device marked on each channel, which the firmware marks again at each start (R415). -/
  dramMarks : Tab Nat
  offlineAt : Tab Nat
  retiredEver : Nat
  indetEver : Nat
  /-- Retirement hours, newest first, for the 30-day and 90-day windows (R248). -/
  retiredAt : List Nat
  wearStage : Nat
  readsDay : Nat
  ewDay : Nat
  softDay : Nat
  wearSummaryAt : Nat
  /-- Sketch counters of each owner core (R240): core * 65536 + row * 16384 + index. -/
  sketch : Tab Nat
  hot : List HotUnit
  evicted : List (Nat × Nat × Nat)
  mirrors : List Mirror
  /-- Slots that failed under R331: the newest 252 as PPA, result word and hours, and the counts of each die (R333, R355). -/
  slotFails : List (Nat × Nat × Nat)
  dieSlotFails : Tab Nat
  lostUnits : List LostUnit
  lostEver : Nat
  /-- Stripes to repair (R382): stripe numbers with the time of failure. -/
  repairs : List (Nat × Nat)
  /-- Stripes that served a degraded host read since the rebuild began (R384). -/
  served : List Nat
  rebuildDone : Nat
  rebuildAt : Option Nat
  rebuildLast : Nat
  reshapeState : Nat
  reshapeSaved : Nat
  reshapeK : Nat
  reshapeBoundary : Nat
  reshapeMoved : Nat
  shapeK : Nat
  patrolLap : Nat
  patrolAt : Nat
  lastLap : Nat
  lastPass : Option PassSummary
  repairedEver : Nat
  dieFails : Tab Nat
  dieMismatch : Tab Nat
  /-- PFAIL_N: held low, stopped programs, ignored as faulty, since when (R273, R274). -/
  pfailLow : Bool
  pfailStop : Bool
  pfailIgnore : Bool
  /-- Direct portions that wait for their wordline, oldest first, and staged units that wait for a stripe (R214, R376). -/
  direct : List (List Waiting)
  staging : List Waiting
  /-- Units that are programmed while the rest of their portion is not, with their PPAs (R150). -/
  placed : List (Waiting × Nat)
  /-- Units that folding has freed in staging while it is more than 90 % full (R216). -/
  foldRoom : Nat
  /-- Ranges that wait for the journal (R151). -/
  ranges : List RangeOp
  /-- A band has been released since one was opened for host, fold or direct use (R234). -/
  bandReleased : Bool
  /-- Replay records outstanding by MPN (R268). -/
  replayIndex : Tab Nat
  deriving DecidableEq, Repr

end Sys2Proof.Machine
end

