-- ==== Sys2Proof/Machine/StateParts4.lean ====
section
/-! DEFINITION. The plain-data parts of the state that belong to Signet, boot and update, Locket, power and the management
bus. -/

namespace Sys2Proof.Machine

open Sys2Proof

/-! ### Signet (17) -/

/-- A range (R455): namespace global ranges are numbers 0 to 255, Opal locking ranges 256 to 319. -/
structure Range where
  valid : Bool
  nsx : Nat
  start : Nat
  len : Nat
  /-- Lock enables; LockOnReset lists power cycle or hardware reset (R459). -/
  readEnabled : Bool
  writeEnabled : Bool
  lockOnReset : Bool
  /-- The users that may unlock it beside the admins (R460). -/
  users : List Nat
  deriving DecidableEq, Repr

/-- An Opal authority (R457, R458): PIN digest, tries and limit. -/
structure Authority where
  pin : BitVec 384
  tries : Nat
  limit : Nat
  enabled : Bool
  deriving DecidableEq, Repr

/-- An open Opal session (R458), with what its open transaction puts back when it is discarded: ranges, authorities, lock
bits. -/
structure OpalSession where
  authority : Nat
  writable : Bool
  lastAt : Nat
  inTx : Bool
  savedRanges : Tab Range
  savedAuth : Tab Authority
  savedRl : List Nat
  savedWl : List Nat
  savedData : Tab Byte
  /-- Ranges whose key the transaction replaces when it commits. -/
  erasing : List Nat
  deriving DecidableEq, Repr

/-- A keyed-session key (R462, R464). -/
structure KsKey where
  key : BitVec 256
  mask : Nat
  iterations : Nat
  fails : Nat
  barredUntil : Nat
  deriving DecidableEq, Repr

/-- A keyed session, from `OPEN` to its end (R463, R464). -/
structure KSession where
  keyId : Nat
  requested : Nat
  nr : BitVec 256
  nd : BitVec 256
  granted : Nat
  proved : Bool
  inSeq : Nat
  outSeq : Nat
  lastAt : Nat
  deriving DecidableEq, Repr

/-- What SPDM has negotiated (R467). -/
structure Spdm where
  version : Bool
  capabilities : Bool
  algorithms : Bool
  /-- Owner chains in slots 1 to 3. -/
  chains : Tab (List Byte)
  deriving DecidableEq, Repr

/-- Signet beyond its registers (17_security.md). -/
structure Sig where
  ranges : Tab Range
  /-- Key slots that hold a key, and the generation of each range's MEK (R447, R455, R456). -/
  loaded : Tab Unit
  gens : Tab Nat
  auths : Tab Authority
  opal : Option OpalSession
  blockSid : Bool
  /-- The Locking SP is active. -/
  locking : Bool
  keys : Tab KsKey
  ks : Option KSession
  spdm : Spdm
  /-- Owner image keys: present, previous public key kept (R489). -/
  imageKey : Option (BitVec 384)
  imageKeyOld : Option (BitVec 384)
  /-- Sanitize (R473 to R476), kept in Locket. -/
  sanAct : Nat
  sanNdas : Bool
  sanAuse : Bool
  sanPattern : Nat
  sanPasses : Nat
  sanInvert : Bool
  sanState : Nat
  sanProg : Nat
  sanPass : Nat
  sanKeysDone : Bool
  sanCdw10 : Nat
  approved : Bool
  readyGiven : Bool
  /-- Cores whose instruction store is to be read again (R449 service 0x07). -/
  reload : Tab Unit
  /-- Data that Security Receive has still to give, by protocol. -/
  outbox : List (Nat × List Byte)
  /-- The Additional DataStore table, by byte (R457). -/
  dataStore : Tab Byte
  deriving DecidableEq, Repr

/-! ### Boot and update (18) -/

/-- The directory (R484). -/
structure Directory where
  generation : Nat
  running : Nat
  next : Nat
  previous : Nat
  valid2 : Bool
  valid3 : Bool
  /-- Copy `c` of slot `s` at `8 s + c`: die, first and second block. -/
  copies : Tab CopyAt
  deriving DecidableEq, Repr

/-- A Hallmark record (R495). -/
structure HRec where
  type : Nat
  cause : Nat
  source : Nat
  flags : Nat
  seq : Nat
  hours : Nat
  cycles : Nat
  signetVer : Nat
  /-- Measurement indexes 1 to 8. -/
  measures : List (BitVec 384)
  prev : BitVec 384
  sig : BitVec 768
  deriving DecidableEq, Repr

/-- An epoch summary (R496). -/
structure HSummary where
  epoch : Nat
  lastSeq : Nat
  lastHash : BitVec 384
  catalogue : List (List (BitVec 384))
  /-- Runs: first sequence number, count, catalogue entry, type, fallback starts. -/
  runs : List (Nat × Nat × Nat × Nat × Nat)
  deriving DecidableEq, Repr

/-- An activation in progress (R167, R502, R503): the image slot, the order number of its command, when step 1 began, and
whether it was scheduled. -/
structure Activation where
  slot : Nat
  order : Nat
  startedAt : Nat
  scheduled : Bool
  deriving DecidableEq, Repr

/-- A pending Scheduled Activation (R504): the order number of its command, the image slot, and T. -/
structure Scheduled where
  order : Nat
  slot : Nat
  t : Nat
  deriving DecidableEq, Repr

/-- Boot, images, Hallmark log and update (18_boot_update.md). -/
structure Boot where
  dir : Directory
  slots : Tab Package
  /-- Security-version floors of kinds 1 to 7 (R490). -/
  floors : List Nat
  summary : HSummary
  records : List HRec
  /-- The half of the Hallmark partition that is active, 0 or 1 (R496). -/
  half : Nat
  nextSeq : Nat
  prevHash : BitVec 384
  /-- Download pieces: first dword and count (R499). -/
  pieces : List (Nat × Nat)
  act : Option Activation
  sched : Option Scheduled
  /-- ROM Recovery transfer (R506, R507): state, failure, length, target, pieces, bytes. -/
  romState : Nat
  romFail : Nat
  romLen : Nat
  romTarget : Nat
  romPieces : List (Nat × Nat)
  romPackage : Option Package
  /-- The cause of the start under way or last made (R495). -/
  startCause : Nat
  deriving DecidableEq, Repr

/-! ### Locket (19) -/

/-- A written codeword (R510). -/
structure LkWord where
  data : BitVec 128
  begun : Bool
  done : Bool
  deriving DecidableEq, Repr

/-- A sector's status area (R518). -/
structure LkSector where
  erases : Nat
  indet : Bool
  suspends : Nat
  deriving DecidableEq, Repr

/-- An operation of a port (R515 to R517): 1 PROGRAM, 2 ERASE. -/
structure LkOp where
  port : Nat
  op : Nat
  cw : Nat
  data : BitVec 128
  deriving DecidableEq, Repr

/-- The erase that runs or is suspended (R517). -/
structure LkErase where
  port : Nat
  sector : Nat
  suspended : Bool
  ran : Nat
  since : Nat
  deriving DecidableEq, Repr

/-- Locket beyond its registers (19_locket.md). Ports: 0 F, 1 S, 2 the event recorder. -/
structure Lkt where
  words : Tab LkWord
  sectors : Tab LkSector
  program : Option LkOp
  erase : Option LkErase
  waiting : List LkOp
  /-- The last store of each port's sequence, `OP` and address taken by it. -/
  lastAt : Tab Nat
  op : Tab Nat
  addr : Tab Nat
  d0 : Tab Word
  deriving DecidableEq, Repr

/-! ### Power and pins (20, 22) -/

/-- Power, pins and sleep beyond the registers (20_power_states.md, 22_electrical.md). -/
structure Pwr where
  vaon : Bool
  /-- Power-on reset has ended; internal reset by a rail holds (R570, R571). -/
  porDone : Bool
  perstLow : Bool
  coreEn : Bool
  recovLow : Bool
  crystal : Bool
  /-- MB_ADDR as sampled (R570). -/
  addr : Nat
  /-- The last operational power state; the selected one is the Power Management feature (R529). -/
  lastOp : Nat
  /-- The sleep mode whose entry is in steps 1 to 3, 0 none (R532, R533). -/
  entry : Nat
  /-- Wake: step (0 none, 2 regulator, 3 crystal) and attempt (R537, R539). -/
  wakeStep : Nat
  wakeTry : Nat
  wakeBuf : List Byte
  wakeRefused : Bool
  /-- The sleep under way or last left is Deep Sleep, and the banks that keep their contents. -/
  deep : Bool
  banks : Nat
  /-- `tnow` when the ring period was last measured (R540, R546). -/
  rcalAt : Nat
  /-- Power limit in force: 0 none, 1 the PS1 figure, 2 the PS2 figure; trip held (R583). -/
  thermal : Nat
  tripped : Bool
  /-- The composite temperature, degrees Celsius (R583). -/
  composite : Int
  /-- Clasps of islands that are powered down (R532, R534). -/
  off : Tab Unit
  /-- Sleep counted since device reset, ns, and `tnow` when the Timestamp was anchored (R541, R546). -/
  sleptNs : Nat
  stampAt : Nat
  /-- The Timestamp that the last shutdown saved (R239). -/
  stampSaved : Option Nat
  deriving DecidableEq, Repr

/-- What the block puts on the management bus. -/
inductive BusEvent where
  /-- A response to an MCTP control command: command, completion code, bytes. -/
  | control (cmd code : Nat) (body : List Byte)
  /-- An NVMe-MI response: opcode, status, bytes. -/
  | mi (op status : Nat) (body : List Byte)
  /-- A keyed-session or SPDM message: code and body. -/
  | vendor (code : Nat) (body : List Byte)
  | spdm (code : Nat) (body : List Byte)
  /-- The SMBus Alert Response (R561). -/
  | alertResponse (addr : Nat)
  /-- An address that is not acknowledged (R536). -/
  | nack
  deriving DecidableEq, Repr

/-- The management endpoint (R559, R560). -/
structure Mgmt where
  eid : Nat
  /-- The SMBus frequency: 1 100 kHz, 2 400 kHz, 3 1 MHz. -/
  freq : Nat
  unit : Nat
  out : List BusEvent
  deriving DecidableEq, Repr

end Sys2Proof.Machine
end

