-- ==== Sys2Proof/Machine/State.lean ====
section
/-! DEFINITION. The machine's state, its faults and refusals, and the state right after reset. -/

namespace Sys2Proof.Machine

open Sys2Proof

/-- Why the block stops. -/
inductive Fault where
  /-- The command spells no event of its row, as WellFormed says; raised by `exec` of that command. Safe: no such event
  happens on the device. -/
  | malformed (mnemonic : String)
  deriving DecidableEq, Repr

/-- Why a command has no meaning. -/
inductive Refusal where
  /-- The command is not modelled; raised by its arm of `exec`. Safe: nothing can be proved about it. -/
  | notModelled (mnemonic : String)
  deriving DecidableEq, Repr

/-- The state of the block. -/
structure State where
  /-- The commands that wait, first in first out. -/
  pending : List Instr
  /-- The number of the next free value (log entry 1). -/
  free : Nat
  part : Part
  /-- Installed DRAM, MiB (R2, R49). -/
  dramMiB : Nat
  /-- `tnow`, ns (R64, R113). -/
  now : Nat
  /-- The last write of `ARC_MODE.GO` by a Facet core: who, and when (R44). -/
  modeGo : Option (Nat × Nat)
  /-- Control-space registers by offset; an unlisted one holds its reset value (R31). -/
  regs : Tab Word
  mem : Mem
  cores : Tab Core
  /-- The entry address that each core's image gives, by core number (R47, R492). -/
  entries : Tab Nat
  /-- Messages in the Chain, oldest first (R22, R88). -/
  net : List Msg
  /-- Messages in the mailboxes and at the hardware endpoints, by endpoint * 16 + mailbox (R78). -/
  mbox : Tab (List Msg)
  /-- Next `SEQ` to send and next expected, by source * 128 + destination (R22). -/
  txSeq : Tab Nat
  rxSeq : Tab Nat
  /-- khash key slots 1 to 3, and their low words waiting for the high word (R96, R101). -/
  hkeys : Tab (BitVec 128)
  hkeyLow : Tab Word
  clasps : Clasps
  pool : Pool
  map : MapAssist
  evr : Evr
  mec : Mec
  flt : Flt
  hqe : Hqe
  /-- Namespaces by index, NSID − 1 (R196). -/
  ns : Tab Namespace
  /-- Sequencers by number; an unlisted one is as after device reset. -/
  seqs : Tab Seq
  assay : Assay
  /-- Jobs of the parity engine, oldest first (R373). -/
  par : List ParJob
  fw : Fw
  sig : Sig
  boot : Boot
  lkt : Lkt
  pwr : Pwr
  mgmt : Mgmt
  deriving DecidableEq, Repr

/-! ### Right after reset -/

def Seq.reset : Seq :=
  ⟨[], [], [], [], 0, none, none, 0, none, [], 0, 0, none, false, false, 0, [], false⟩

def AsyEntry.zero : AsyEntry := ⟨[0, 0, 0, 0, 0, 0, 0], 0, 0, 0, 0, 0, 0, false, false, false⟩

def Pool.reset : Pool := ⟨[], [], 0, [], 0, 0, 0, 0, 0, 0, 0, 0, 0, 0, []⟩

def Evr.reset : Evr := ⟨[], [], [], ⟨0, []⟩, ⟨0, []⟩, ⟨0, []⟩, ⟨0, []⟩, 2 ^ 24, none, none, [], [], [], [], [], none, 0⟩

def Mec.reset : Mec := ⟨[], [], [], 0, 0, 0, 0, 0, 0, false, false, false⟩

/-- The PCIe function right after a reset: the values that PCI Express gives it (log entry 150). -/
def Link.reset : Link :=
  { mps := 0, mrrs := 2, tags := 8, timeout := 0, timeoutOff := false, power := 0, uncor := 0, cor := 0, targetAbort := false
    masterAbort := false, msixOn := false, msixMask := false, msix := [], pending := [], dropNext := 0, refuseNext := 0 }

/-- The features and their values at reset that R127 states are in the registers' own homes; unlisted features are zero. -/
def Hqe.reset : Hqe :=
  { link := Link.reset, cc := 0, aqa := 0, ams := 0, shn := 0, cfs := false, nssro := false, pp := false, sqs := [], cqs := [], fetching := [], slots := [], nextOrder := 0
    nextSq := 0, credit := (0, 0, 0), drained := false, fetched := 0, completed := 0, aers := [], events := []
    features := [], saved := [], coalesced := [], pcidLapsed := false, shutdown := false, nsChanged := [], hostOut := [] }

/-- Blocks of a part fitted with as many dies of R230's reference fit as it takes, those factory bad (1 % of them), and the
reserve with the whole user capacity allocated, as in R253's example (R1, R245, R246; log entry 8). -/
def Part.rawBlocks (p : Part) : Nat := p.dies * 4 * 2048
def Part.factoryBad (p : Part) : Nat := p.rawBlocks / 100
def Part.initialReserve (p : Part) : Nat :=
  p.rawBlocks - p.factoryBad - committedBlocks p.rawBlocks 683 p.shape (p.userBytes / 4096)

/-- The fit and the flash of a device with nothing programmed: the dies of R230 and the part's first shape (R1; log entry 8). -/
def Fw.reset (p : Part) : Fw :=
  { entries := [], pageTab := [], dealloc := [], dirtySince := [], missNamed := [], seqC := 0, seqTop := 0, jWait := [], jOldest := 0, jFlush := none, jEarly := false
    jFlushNo := 0, journal := [], jUnits := [], pfailFlush := false, snaps := [], root := none, flash := [], blocks := [], bands := []
    bandSerial := 0, frontier := [], durFrontier := [], released := [], stripes := [], copies := []
    copiesReplaced := 0, stripesDone := 0, copyUsed := [], copyBad := none, reparity := [], records := [], dies := p.dies, planes := 4, blocksPer := 2048, wordlines := 683, ratedCycles := 3000
    factoryBad := p.factoryBad, initialReserve := p.initialReserve, spareThreshold := 10, lostDies := [], lostHours := [], dramMarks := [], offlineAt := []
    retiredEver := 0, indetEver := 0, retiredAt := [], wearStage := 0, readsDay := 0, ewDay := 0, softDay := 0
    wearSummaryAt := 0, sketch := [], hot := [], evicted := [], mirrors := [], lostUnits := [], lostEver := 0, slotFails := [], dieSlotFails := []
    repairs := [], served := [], rebuildDone := 0, rebuildAt := none, rebuildLast := 0, reshapeState := 0, reshapeSaved := 0
    reshapeK := 0, reshapeBoundary := 0, reshapeMoved := 0, shapeK := p.shape, patrolLap := 0, patrolAt := 0, lastLap := 0
    lastPass := none, repairedEver := 0, dieFails := [], dieMismatch := [], pfailLow := false, pfailStop := false
    pfailIgnore := false, direct := [], staging := [], placed := [], foldRoom := 0, ranges := [], bandReleased := false, replayIndex := [] }

/-- Signet's own state: no range, key, session or sanitize (R455 to R474); keys 0 and 1 are provisioned with their masks
(R462), their key values free (log entry 39). -/
def Sig.reset : Sig :=
  { ranges := [], loaded := [], gens := [], auths := [], opal := none, blockSid := false, locking := false
    keys := [(0, ⟨Config.ahnotKey 0, 0x1F, 0, 0, 0⟩), (1, ⟨Config.ahnotKey 1, 0x07, 0, 0, 0⟩)]
    ks := none, spdm := ⟨false, false, false, []⟩, imageKey := none, imageKeyOld := none
    sanAct := 0, sanNdas := false, sanAuse := false, sanPattern := 0, sanPasses := 0, sanInvert := false, sanState := 0
    sanProg := 0, sanPass := 0, sanKeysDone := false, sanCdw10 := 0, approved := false, readyGiven := false, reload := []
    outbox := [], dataStore := [] }

/-- The golden package as manufactured: it verifies, with every security version zero (log entry 40). -/
def goldenPackage : Package :=
  ⟨true, true, none, [0, 0, 0, 0, 0, 0, 0], (List.range 6).map Config.goldenMeasure, Config.goldenVersion, Config.goldenEntry,
    Config.goldenActEntry⟩

/-- The boot store with the golden package alone, and an empty Hallmark log (log entry 40). -/
def Boot.reset : Boot :=
  { dir := ⟨1, 1, 1, 0, false, false, []⟩, slots := [(1, goldenPackage)], floors := [0, 0, 0, 0, 0, 0, 0]
    summary := ⟨0, 0, 0#384, [], []⟩, records := [], half := 0, nextSeq := 1, prevHash := Config.sha384 Config.deviceCert
    pieces := [], act := none, sched := none, romState := 0, romFail := 0, romLen := 0, romTarget := 0
    romPieces := [], romPackage := none, startCause := 1 }

def Lkt.reset : Lkt := ⟨[], [], none, none, [], [], [], [], []⟩

def Pwr.reset : Pwr :=
  { vaon := true, porDone := true, perstLow := true, coreEn := true, recovLow := false, crystal := true
    addr := 0, lastOp := 0, entry := 0, wakeStep := 0, wakeTry := 0, wakeBuf := [], wakeRefused := false, deep := false
    banks := 0, rcalAt := 0, thermal := 0, tripped := false, composite := 0, off := [], sleptNs := 0, stampAt := 0
    stampSaved := none }

/-- The endpoint identifier 0 and 100 kHz (log entry 10). -/
def Mgmt.reset : Mgmt := ⟨0, 1, 64, []⟩

/-- The clasps right after a device reset: OPEN, every fitted island still in reset (R104, R114, R116). -/
def Clasps.afterReset (channels : Nat) : Clasps :=
  ⟨[], ((List.range 76).filter fun c => c < 8 + 2 * channels || 72 ≤ c).map fun c => (c, ()), [], [], none⟩

/-- A part right after a device reset, held by PERST_N before Signet starts it: Boot, every register at its reset value, no core
released (R31, R41, R47, R492, R570; log entries 3 to 10, 39, 40). -/
def State.resetOf (p : Part) : State :=
  { pending := [], free := 0, part := p, dramMiB := 32768, now := 0, modeGo := none, regs := [], mem := ⟨[], [], []⟩
    cores := [], entries := [], net := [], mbox := [], txSeq := [], rxSeq := [], hkeys := [], hkeyLow := []
    clasps := Clasps.afterReset p.channels, pool := Pool.reset, map := ⟨[], [], [], []⟩, evr := Evr.reset, mec := Mec.reset
    flt := ⟨[], [], [], [], false, [], []⟩, hqe := Hqe.reset, ns := [], seqs := []
    assay := ⟨[], [], [], 0, 0, [], 0, 0, 0, 0, 0⟩, par := [], fw := Fw.reset p, sig := Sig.reset, boot := Boot.reset, lkt := Lkt.reset
    pwr := Pwr.reset, mgmt := Mgmt.reset }

/-- The machine right after reset: the reference part (R2; log entry 3). -/
def State.reset : State := State.resetOf .ahm4832

end Sys2Proof.Machine
end

