-- ==== Sys2Proof/Machine/Ops.lean ====
section
/-! DEFINITION. The named operations that every meaning uses: registers, the part's quantities, endpoints and the Chain,
event records and notices, and the mode. -/

namespace Sys2Proof.Machine

open Sys2Proof

/-! ### Outcomes and free values -/

/-- A step that goes on. -/
abbrev Out := Host.Outcome State Fault Refusal

/-- The next free value, and the state with the counter advanced (log entry 1). -/
def freshWord (s : State) : Word := Config.freeWord s.free
def State.tick (s : State) : State := { s with free := s.free + 1 }

/-! ### Control-space registers (R10, R31) -/

/-- The index of `off` in a row, if the row holds a register there. -/
def RegRow.hits (r : RegRow) (off : Nat) : Bool :=
  if off < r.base then false
  else
    let d := off - r.base
    let b := if r.blocks = 1 then 0 else d / r.blockStride
    let e := d - b * (if r.blocks = 1 then 0 else r.blockStride)
    let i := if r.count = 1 then 0 else e / r.stride
    b < r.blocks && i < r.count && e == i * (if r.count = 1 then 0 else r.stride)

/-- The rows of the block that `off` lies in (R31). -/
def blockRows (off : Nat) : List RegRow :=
  if off < 0x10000 then rowsARC
  else if off < 0x20000 then rowsFCT
  else if off < 0x30000 then rowsCLP
  else if off < 0x40000 then rowsHQE
  else if off < 0x50000 then rowsBPM
  else if off < 0x60000 then rowsMAP
  else if off < 0x100000 then []
  else if off < 0x320000 then rowsPSQ
  else if off < 0x400000 then []
  else if off < 0x480000 then rowsLPE
  else if off < 0x500000 then []
  else if off < 0x510000 then rowsASY
  else if off < 0x520000 then rowsPAR
  else if off < 0x530000 then rowsMEC
  else if off < 0x540000 then rowsFLT
  else if off < 0x550000 then rowsSIG
  else if off < 0x560000 then rowsLKT
  else if off < 0x570000 then rowsPWR
  else if off < 0x580000 then rowsEVR
  else if off < 0x590000 then rowsPAD
  else if off < 0x5A0000 then rowsTMR
  else []

/-- The row that holds the register at `off`, if one is there. -/
def regRow (off : Nat) : Option RegRow := (blockRows off).find? (·.hits off)

/-- The reset value that the fields of a row make up. -/
def rowReset (r : RegRow) : Word :=
  r.fields.foldl (fun w f => setBits w f.lo f.width f.reset) 0#64

/-- The reset value of a register: its fields' values, and the fused or chosen values (R33 to R36, R101, R116, R192, R310; log
entries 3 and 4: the die identity, and the fuse `JTAG_OFF` blown in no part, are the model's). -/
def regReset (p : Part) (off : Nat) : Word :=
  if off = rARC_OPT then
    BitVec.ofNat 64 (p.code + (p.channels <<< 8) + (p.coresPer <<< 16) + (b2n p.freeList <<< 20))
  else if off = rARC_ID then 0x3030303030303030#64
  else if off = rARC_ID1 then 0x10000001#64
  else if off = rARC_CHMAP then BitVec.ofNat 64 (2 ^ p.channels - 1)
  else if off = rARC_COREMAP then
    BitVec.ofNat 64 (sumOf (fun c => (2 ^ p.coresPer - 1) <<< (9 * c)) (List.range 6))
  else if off = rARC_PQMAP then BitVec.ofNat 64 ((2 ^ p.channels - 1) + (3 <<< 32))
  else if off = rFCT_SPARE then
    BitVec.ofNat 64 (sumOf (fun c => (9 * c + p.coresPer - 1 + 128) <<< (8 * c)) (List.range 6))
  else if off = rBPM_CTL then BitVec.ofNat 64 (b2n p.freeList <<< 1)
  else if rPSQ_CTL 0 ≤ off ∧ off < 0x320000 ∧ (off - rPSQ_CTL 0) % 0x10000 = 0 then
    let q := (off - rPSQ_CTL 0) / 0x10000
    setBits ((regRow off).map rowReset |>.getD 0#64) 1 6 (if q < p.channels then q else 0x3F)
  else ((regRow off).map rowReset).getD 0#64

/-- The word that the register at `off` holds. -/
def State.reg (s : State) (off : Nat) : Word := (tget s.regs off).getD (regReset s.part off)

/-- Replace the word of the register at `off`. -/
def State.setReg (s : State) (off : Nat) (w : Word) : State := { s with regs := tput s.regs off w }

/-- The value of a field. -/
def State.fld (s : State) (f : Fld) : Nat := bits (s.reg f.off) f.lo f.width

/-- Replace a field by the low bits of `v`. -/
def State.setFld (s : State) (f : Fld) (v : Nat) : State :=
  s.setReg f.off (setBits (s.reg f.off) f.lo f.width v)

/-- A one-bit field as a Boolean. -/
def State.flag (s : State) (f : Fld) : Bool := s.fld f != 0

/-- Count up, stopping at the field's largest value. -/
def State.incSat (s : State) (f : Fld) (n : Nat := 1) : State :=
  s.setFld f (min (s.fld f + n) (2 ^ f.width - 1))

/-- Count up, wrapping. -/
def State.incWrap (s : State) (f : Fld) (n : Nat := 1) : State :=
  s.setFld f ((s.fld f + n) % 2 ^ f.width)

/-- What a write of `v` makes of one field that holds part of `old` (R10). -/
def writeField (old v : Word) (w : Word) (f : FieldSpec) : Word :=
  match f.type with
  | .ro => w
  | .rw => setBits w f.lo f.width (bits v f.lo f.width)
  | .wo => w
  | .w1c => setBits w f.lo f.width (bits (old &&& ~~~v) f.lo f.width)
  | .w1s => setBits w f.lo f.width (bits (old ||| v) f.lo f.width)

/-- What a plain write of `v` makes of a register that holds `old`: `RSVD` and `RO` bits keep (R10). -/
def writeWord (r : RegRow) (old v : Word) : Word := r.fields.foldl (writeField old v) old

/-- What a load of a register reads: write-only and reserved bits are zero (R10). -/
def readWord (r : RegRow) (w : Word) : Word :=
  r.fields.foldl
    (fun a f => match f.type with
      | .wo => a
      | _ => setBits a f.lo f.width (bits w f.lo f.width)) 0#64

/-! ### Facet cores (R25, R45, R90) -/

def CoreRegs.zero : CoreRegs := ⟨0#64, 0#64, 0#64, 0#64, 0#64, 0#64, 0#64, 0#64, 0#64, 0#64⟩
def Tx.none : Tx := ⟨false, false, 0, [], [], [], []⟩

/-- Core `n` after a device reset, before its release (R47, R65; log entry 6). -/
def Core.fresh (n : Nat) : Core :=
  ⟨.unreleased, [], 0, none, n, CoreRegs.zero, Tx.none, 0, [], 0, false, none⟩

/-- Core `n`; a core that the table does not list is fresh. -/
def State.core (s : State) (n : Nat) : Core := tgetD s.cores n (Core.fresh n)
def State.setCore (s : State) (n : Nat) (c : Core) : State := { s with cores := tput s.cores n c }

/-- The core that carries the work of core `n` (R84, R90), if one does. -/
def State.carrier (s : State) (n : Nat) : Option Nat :=
  (s.cores.find? (fun e => decide (e.2.role = n) && decide (e.2.status ≠ .fenced))).map (·.1)

/-- The general register `r` (R45). -/
def Core.get (c : Core) (r : Nat) : RVal := if r = 0 then ⟨0#64, false⟩ else tgetD c.g r ⟨0#64, false⟩
def Core.set (c : Core) (r : Nat) (v : RVal) : Core := if r = 0 then c else { c with g := tput c.g r v }

/-! ### Endpoints (R20, R23, R84, R90) -/

/-- The endpoint number is one of R20. -/
def epExists (ep : Nat) : Bool :=
  ep < 54 || (64 ≤ ep && ep < 98) || (112 ≤ ep && ep ≤ 118) || ep == 120

/-- The endpoint exists and is not fused off (R20, R36): the check of R590's destination fields. -/
def State.epFitted (s : State) (ep : Nat) : Bool :=
  epExists ep && (!(ep < 54) || s.part.coreOn ep) && (!(64 ≤ ep && ep < 98) || s.part.seqOn (ep - 64))

/-- The endpoint is absent (R23): it does not exist, is fused off, or is a core fenced at its self-test. -/
def State.epAbsent (s : State) (ep : Nat) : Bool :=
  !s.epFitted ep ||
    (decide (ep < 54) && decide ((s.core ep).status = .fenced) && (s.carrier ep).isNone)

/-- The number under which an endpoint's mailboxes and sends stand: a core's `cid.ROLE` (R84, R90). -/
def State.mailEp (s : State) (ep : Nat) : Nat := if ep < 54 then (s.core ep).role else ep

/-- The messages of a mailbox, oldest first. -/
def State.box (s : State) (ep m : Nat) : List Msg := tgetD s.mbox (ep * 16 + m) []
def State.setBox (s : State) (ep m : Nat) (l : List Msg) : State :=
  { s with mbox := if l.isEmpty then tdel s.mbox (ep * 16 + m) else tput s.mbox (ep * 16 + m) l }

/-- The depth of a core's mailbox (R78, R101). -/
def State.depth (s : State) (ep m : Nat) : Nat := bits (s.reg (rFCT_MBX ep)) (4 * m) 4

/-- The core that works from the mailboxes of `ep`, a role number: the carrier, or the core of that number. -/
def State.worker (s : State) (ep : Nat) : Nat := (s.carrier ep).getD ep

/-- Messages taken by an open transaction keep their slots (R82). -/
def State.takenIn (s : State) (ep m : Nat) : Nat :=
  countIf (fun (x : Msg) => decide (x.mbx = m)) (s.core (s.worker ep)).tx.taken

/-- A core's mailbox is full: its slots are held by messages present or taken (R78, R82). -/
def State.boxFull (s : State) (ep m : Nat) : Bool :=
  ep < 54 && s.depth ep m ≤ (s.box ep m).length + s.takenIn ep m

/-- A send to the mailbox would be held back: messages present, taken and on their way fill it (R23, R83; log
entry 12). -/
def State.wouldWait (s : State) (dst m : Nat) : Bool :=
  let ep := s.mailEp dst
  ep < 54 && s.depth ep m ≤ (s.box ep m).length + s.takenIn ep m +
    countIf (fun (x : Msg) => decide (s.mailEp x.dst = ep) && decide (x.mbx = m)) s.net

/-! ### The Chain (R21, R22) -/

/-- Header bits [63:16] (R21). -/
def headerHigh (dst src mbx sub seq : Nat) : Nat :=
  (dst % 128) * 2 ^ 41 + (src % 128) * 2 ^ 34 + (mbx % 16) * 2 ^ 30 + (sub % 4096) * 2 ^ 16 + seq % 65536

/-- The header word as carried (R21). -/
def Msg.header (m : Msg) : Nat := headerHigh m.dst m.src m.mbx m.sub m.seq * 2 ^ 16 + m.chk.toNat

/-- A message with its `SEQ` and `CHK` (R21). -/
def mkMsg (src dst mbx sub seq : Nat) (payload : BitVec 512) : Msg :=
  ⟨dst, src, mbx, sub, seq, Config.chainCrc (BitVec.ofNat 48 (headerHigh dst src mbx sub seq)) payload, true, true, payload, false⟩

/-- The next `SEQ` of a pair (R22). -/
def State.nextSeq (s : State) (src dst : Nat) : Nat := tgetD s.txSeq (src * 128 + dst) 0

/-- Place a message in the Chain with the next `SEQ` of its pair (R22). -/
def State.chainSend (s : State) (src dst mbx sub : Nat) (payload : BitVec 512) : State :=
  let q := s.nextSeq src dst
  { s with
    net := s.net ++ [mkMsg src dst mbx sub q payload]
    txSeq := tput s.txSeq (src * 128 + dst) ((q + 1) % 65536) }

/-! ### Event records (R547 to R555, R561) -/

/-- The number that bytes hold, lowest first. -/
def leValue (l : List Byte) : Nat := l.foldr (fun b n => b.toNat + 256 * n) 0

/-- A record body from (offset, size, value) entries. -/
def bodyOf (l : List (Nat × Nat × Nat)) : BitVec 256 :=
  l.foldl (fun p e => p ||| BitVec.ofNat 256 ((e.2.2 % 2 ^ (8 * e.2.1)) <<< (8 * e.1))) 0#256

/-- A record as 64 bytes (R547). -/
def Record.bytes (r : Record) : BitVec 512 :=
  payloadOf [(0, 8, r.seq), (8, 4, r.hours), (12, 4, r.starts), (16, 8, r.tnow),
    (24, 1, r.sev + 8 * b2n r.injected + 16 * b2n r.persistent + 32 * b2n r.byHw + 64 * b2n r.cont),
    (25, 1, r.src), (26, 2, r.kind), (32, 32, r.body.toNat)]

/-- Assert MB_ALERT_N (R561). -/
def State.alert (s : State) : State := s.setFld fEVR_STAT_ALERT 1

/-- Capacity of each pool of the persistent copy, in records of 64 a sector (R554). -/
def poolCap (sev : Nat) : Nat :=
  if sev = 7 then 1024 else if sev = 6 then 1024 else if sev = 5 then 1536 else 2560

/-- The persistent copies that are pending, shown in `EVR_STAT.PPEND` (R555). -/
def State.showPending (s : State) : State :=
  s.setFld fEVR_STAT_PPEND (min 255 (s.evr.copies.length + b2n s.evr.copying.isSome))

/-- The persistent copy of a record of severity Error and above is pending (R554, R555). -/
def State.persist (s : State) (r : Record) : State :=
  if 4 ≤ r.sev then State.showPending { s with evr := { s.evr with copies := s.evr.copies ++ [r] } } else s

/-- A codeword that Signet or the recorder has programmed whole (log entry 50). -/
def Lkt.put (l : Lkt) (cw : Nat) (data : BitVec 128) : Lkt := { l with words := tput l.words cw ⟨data, true, true⟩ }

/-- A sector that Signet has erased, with its attempt (R518; log entry 50). -/
def Lkt.wipe (l : Lkt) (sector : Nat) : Lkt :=
  let k := tgetD l.sectors sector ⟨0, false, 0⟩
  { l with
    words := l.words.filter fun (w : Nat × LkWord) => w.1 / 256 != sector
    sectors := tput l.sectors sector { k with erases := min (k.erases + 1) (2 ^ 24 - 1), indet := false, suspends := 0 } }

/-- Power-on and active hours in tenths: the totals that the start found, and the time since, sleep included or not (R541,
R547, R556). -/
def State.hours (s : State) : Nat := s.fld fEVR_HOURS_ON + s.now / 360000000000
def State.activeHours (s : State) : Nat := s.fld fEVR_HOURS_ACTIVE + (s.now - s.pwr.sleptNs) / 360000000000

/-- The operating-counter codeword of the present instant (R556). -/
def State.counterWord (s : State) : State :=
  let w := (s.hours, s.activeHours, s.fld fEVR_STARTS_STARTS, s.evr.mark / 2 ^ 24)
  let n := s.evr.counterAt
  let l := s.lkt.put (0xE000 + n) (BitVec.ofNat 32 w.2.2.2 ++ BitVec.ofNat 32 w.2.2.1 ++ BitVec.ofNat 32 w.2.1 ++ BitVec.ofNat 32 w.1)
  { s with
    lkt := if (n + 1) % 256 = 0 then l.wipe (0xE0 + ((n + 1) / 256 + 1) % 16) else l
    evr := { s.evr with counters := w :: s.evr.counters, counterAt := (n + 1) % 4096 } }

/-- The Timestamp value: what was set, and the time since (R541). -/
def State.stampMs (s : State) : Nat := (s.fld fTMR_STAMP_MS + (s.now - s.pwr.stampAt) / 1000000) % 2 ^ 48

/-- The record that the recorder makes of a draft (R547). -/
def State.recordOf (s : State) (d : Draft) : Record :=
  ⟨s.fld fEVR_NEXT_SEQ, s.hours, s.fld fEVR_STARTS_STARTS, s.now, d.sev, d.injected || s.flt.blame, decide (4 ≤ d.sev),
    d.byHw, d.cont, d.src, d.kind, d.body⟩

/-- Take the next sequence number; at the mark, Signet raises the mark by 2^24 and writes a codeword (R552, R556). -/
def State.nextNumber (s : State) : State :=
  let n := s.fld fEVR_NEXT_SEQ + 1
  let s := s.setFld fEVR_NEXT_SEQ n
  if n = s.evr.mark then State.counterWord { s with evr := { s.evr with mark := s.evr.mark + 2 ^ 24 } } else s

/-- The first record of the ring that a record of severity `sev` may replace, with the second of its pair: the ring
without them and how many slots they held (R551). -/
def replaceOldest (sev : Nat) : List Record → Option (List Record × Nat)
  | [] => none
  | r :: t =>
    if r.sev ≤ sev then
      if r.cont then
        match t with
        | r2 :: t2 => if r2.kind = 0xFFFF then some (t2, 2) else some (t, 1)
        | [] => some (t, 1)
      else some (t, 1)
    else match replaceOldest sev t with
      | some (t', n) => some (r :: t', n)
      | none => none

/-- Room for `n` records in the ring, replacing eligible records oldest first while no slot is free (R551). -/
def makeRoom (sev n : Nat) : Nat → List Record → Option (List Record)
  | 0, ring => if ring.length + n ≤ 65536 then some ring else none
  | fuel + 1, ring =>
    if ring.length + n ≤ 65536 then some ring
    else match replaceOldest sev ring with
      | some (ring', _) => makeRoom sev n fuel ring'
      | none => none

/-- Count dropped records (R551, R553). -/
def State.dropped (s : State) (n : Nat) : State :=
  let s := s.incSat fEVR_STAT_DROPPED n
  { s with evr := { s.evr with lost := s.evr.lost ++ List.replicate n (s.fld fEVR_NEXT_SEQ) } }

/-- Accept records as one: number them, place them in the ring or the early store, copy the persistent ones (R550 to
R554). False where they are dropped. -/
def State.acceptAll (s : State) (ds : List Draft) : State × List Record :=
  let sev := (ds.map (·.sev)).head?.getD 0
  if s.flag fEVR_CTL_EN then
    match makeRoom sev ds.length 2 s.evr.ring with
    | none => (s.dropped ds.length, [])
    | some ring =>
      let s := { s with evr := { s.evr with 
        lost := s.evr.lost ++ ((s.evr.ring.filter fun x => !ring.any fun y => y.seq == x.seq).map (·.seq)), ring := ring } }
      ds.foldl (fun (a : State × List Record) d =>
        let r := a.1.recordOf d
        let t := a.1.nextNumber
        let t := { t with evr := { t.evr with ring := t.evr.ring ++ [r] } }
        let t := t.setFld fEVR_STAT_COUNT t.evr.ring.length
        (t.persist r, a.2 ++ [r])) (s, [])
  else if s.evr.early.length + ds.length ≤ 256 then
    ds.foldl (fun (a : State × List Record) d =>
      let r := a.1.recordOf d
      let t := a.1.nextNumber
      let t := { t with evr := { t.evr with early := t.evr.early ++ [r] } }
      (t.persist r, a.2 ++ [r])) (s, [])
  else (s.dropped ds.length, [])

/-- The alert of R561 for an accepted record. -/
def State.alertFor (s : State) (r : Record) : State :=
  if s.flag fEVR_CTL_ALERTEN && s.fld fEVR_CTL_ALERTSEV ≤ r.sev then s.alert else s

/-- Log records without notices of their own: the last link, where a notice itself meets an absent endpoint. -/
def State.logQuiet (s : State) (ds : List Draft) : State :=
  if (ds.map (·.sev)).head?.getD 0 < s.fld fEVR_CTL_MINSEV then s
  else
    let a := s.acceptAll ds
    a.2.foldl State.alertFor a.1

/-- The record of a Chain fault at an endpoint (R84, R549, R590): who met it, the cause (1 `CHK`, 2 `SEQ`, 3 absent
destination), the other endpoint, mailbox, sub-operation and header. -/
def chainFaultDraft (ep cause other mbx sub header : Nat) : Draft :=
  ⟨4, false, true, false, ep, 0x0008,
    bodyOf [(0, 1, ep), (1, 1, cause), (2, 1, other), (3, 1, mbx), (4, 2, sub), (8, 8, header)]⟩

/-- The notice that the recorder sends of a record at or above `ALERTSEV` (R564). -/
def State.evrNotice (s : State) (r : Record) : State :=
  if s.flag fEVR_NOTE_EN && s.fld fEVR_CTL_ALERTSEV ≤ r.sev then
    let dst := s.fld fEVR_NOTE_DST
    let mbx := s.fld fEVR_NOTE_MBX
    if s.epAbsent dst then
      s.logQuiet [chainFaultDraft 117 3 dst mbx 0x1D1 ((mkMsg 117 dst mbx 0x1D1 (s.nextSeq 117 dst) r.bytes).header)]
    else s.chainSend 117 dst mbx 0x1D1 r.bytes
  else s

/-- Log records as one, if they reach `EVR_CTL.MINSEV` (R548): acceptance, alert and notices. -/
def State.logAll (s : State) (ds : List Draft) : State :=
  if (ds.map (·.sev)).head?.getD 0 < s.fld fEVR_CTL_MINSEV then s
  else
    let a := s.acceptAll ds
    a.2.foldl (fun t r => (t.alertFor r).evrNotice r) a.1

/-- A hardware unit logs a record (R548, R549). -/
def State.log (s : State) (sev src kind : Nat) (body : BitVec 256) : State :=
  s.logAll [⟨sev, false, true, false, src, kind, body⟩]
def State.logInj (s : State) (sev src kind : Nat) (injected : Bool) (body : BitVec 256) : State :=
  s.logAll [⟨sev, injected, true, false, src, kind, body⟩]

/-- Firmware logs a record from a core (R548, R549). -/
def State.logFw (s : State) (sev src kind : Nat) (body : BitVec 256) : State :=
  s.logAll [⟨sev, false, false, false, src, kind, body⟩]

/-- A hardware unit sends a message; one to an absent endpoint is discarded and recorded (R590). -/
def State.hwSend (s : State) (src dst mbx sub : Nat) (payload : BitVec 512) : State :=
  if s.epAbsent dst then
    s.logAll [chainFaultDraft src 3 dst mbx sub ((mkMsg src dst mbx sub (s.nextSeq src dst) payload).header)]
  else s.chainSend src dst mbx sub payload

/-- The endpoint number under which units without one of their own send (log entry 13). -/
def epDevice : Nat := 120

/-! ### Fault reports (R430, R438) -/

/-- `FLT_LAST0` as a word (R445). -/
def faultWord (kind unit : Nat) (injected masked : Bool) (resume : Nat) : Nat :=
  kind % 256 + (unit % 128) * 2 ^ 8 + b2n injected * 2 ^ 15 + b2n masked * 2 ^ 16 + (resume % 65536) * 2 ^ 32

/-- The severity of each fault kind's record (R438). -/
def faultSeverity (kind : Nat) : Nat :=
  if kind ≤ 4 then 3 else if kind ≤ 0xA then 4 else 6

/-- What `f` does comes of an injected fault, if `b`: its records and faults carry the flag (R442). -/
def State.blaming (s : State) (b : Bool) (f : State → State) : State :=
  let t := f { s with flt := { s.flt with blame := s.flt.blame || b } }
  { t with flt := { t.flt with blame := s.flt.blame } }

/-- A fault is detected: counts and `FLT_LAST0`, `FLT_LAST1` (R438). -/
def State.faultDetected (s : State) (kind unit : Nat) (injected masked : Bool) : State :=
  let injected := injected || s.flt.blame
  let s := s.incSat fFLT_STAT_FAULTS
  let s := if masked then s.incSat fFLT_STAT_MASKED else s
  let s := s.setReg rFLT_LAST0 (BitVec.ofNat 64 (faultWord kind unit injected masked 0))
  s.setReg rFLT_LAST1 (BitVec.ofNat 64 s.now)

/-- The notice and record of a fault, with its own words (R438). -/
def State.faultTold (s : State) (kind unit : Nat) (injected masked : Bool) (resume at_ : Nat) : State :=
  let injected := injected || s.flt.blame
  let w0 := faultWord kind unit injected masked resume
  let s := if s.flag fFLT_NOTE_EN then
      s.hwSend epDevice (s.fld fFLT_NOTE_DST) (s.fld fFLT_NOTE_MBX) 0x190 (payloadOf [(0, 8, w0), (8, 8, at_)])
    else s
  s.logInj (faultSeverity kind) (if 0xB ≤ kind then 112 else epDevice) 0x0003 injected
    (bodyOf [(0, 8, w0), (8, 8, at_)])

/-- A fault without a resumption point: reported at detection (R438). -/
def State.faultNow (s : State) (kind unit : Nat) (injected masked : Bool) : State :=
  (s.faultDetected kind unit injected masked).faultTold kind unit injected masked 0 s.now

/-- `CSTS.CFS` is set, which asserts MB_ALERT_N (R430, R561). -/
def State.setCfs (s : State) : State :=
  let s := { s with hqe := { s.hqe with cfs := true } }
  (s.setFld fHQE_CTL_CFS 1).alert

/-- A fatal fault: fetching stops, `CSTS.CFS` is set, a Fatal record is logged (R430). -/
def State.fatalFault (s : State) (kind unit : Nat) (injected : Bool) : State :=
  let s := s.faultDetected kind unit injected false
  let s := s.setFld fFLT_STAT_FATAL 1
  let s := (s.setFld fHQE_CTL_FETCH 0).setCfs
  s.faultTold kind unit injected false 0 s.now

/-! ### The mode (R33, R39 to R42) -/

def isHealth (m : Nat) : Bool := 2 ≤ m && m ≤ 5
def isOverlay (m : Nat) : Bool := (6 ≤ m && m ≤ 10)

/-- The mode-change message to every enabled core and Signet (R42); that to a core fenced at its self-test is discarded (R590). -/
def State.modeMessages (s : State) : State :=
  let p := payloadOf [(0, 8, (s.reg rARC_MODE).toNat)]
  let t := (List.range 54).foldl
    (fun (t : State) n => if s.part.coreOn n then t.hwSend epDevice n 15 0x001 p else t) s
  t.chainSend epDevice 112 15 0x001 p

/-- The severity of the record of a mode change (R42). -/
def modeSeverity (oldHealth newHealth newCur cause : Nat) : Nat :=
  if oldHealth < newHealth && (newHealth == 4 || newHealth == 5) then 3
  else if oldHealth < newHealth && newHealth == 3 then 2
  else if newCur == 0 || newCur == 0xB || cause == 0x12 then 2
  else 1

/-- `CUR`, `HEALTH` and `CAUSE` change at one instant; messages and the record follow (R42). -/
def State.modeTo (s : State) (cur health cause : Nat) : State :=
  let oldC := s.fld fARC_MODE_CUR
  let oldH := s.fld fARC_MODE_HEALTH
  if oldC = cur ∧ oldH = health then s
  else
    let s := if oldC = cur then s else (s.setFld fARC_MODE_PREV oldC).incWrap fARC_MODE_CHANGES
    let s := s.setFld fARC_MODE_CUR cur
    let s := s.setFld fARC_MODE_HEALTH health
    let s := s.setFld fARC_MODE_CAUSE cause
    let s := s.setFld fARC_MODE_CHANGED 1
    let s := s.modeMessages
    s.log (modeSeverity oldH health (if oldC = cur then 0xF else cur) cause) epDevice 0x0001
      (bodyOf [(0, 8, (s.reg rARC_MODE).toNat)])

end Sys2Proof.Machine
end

