-- ==== Sys2Proof/Machine/MemOps.lean ====
section
/-! DEFINITION. Memory: the address map, bytes and doubles with their poison marks, the region tags of DRAM, and the
counting and logging of errors that the memory codes find (R48, R49, R60, R73, R74, R404 to R421, R591). -/

namespace Sys2Proof.Machine

open Sys2Proof

/-! ### The address map (R48, R49) -/

/-- The region that an address lies in. -/
inductive Region where
  | imem
  | lds
  | sram (cluster : Nat)
  | beadData (bead : Nat)
  | beadMeta (bead : Nat)
  | control (off : Nat)
  | locket (off : Nat)
  | dram
  | none
  deriving DecidableEq, Repr

/-- R48's table, DRAM whole. -/
def regionAt (a : Nat) : Region :=
  if a < 0x10000 then .imem
  else if 0x20000 ≤ a ∧ a < 0x40000 then .lds
  else if 0x0100000000 ≤ a ∧ a < 0x0106000000 then
    if (a - 0x0100000000) % 0x1000000 < 0x400000 then .sram ((a - 0x0100000000) / 0x1000000) else .none
  else if 0x0200000000 ≤ a ∧ a < 0x0208000000 then .beadData ((a - 0x0200000000) / 0x1000)
  else if 0x0210000000 ≤ a ∧ a < 0x0210400000 then .beadMeta ((a - 0x0210000000) / 0x80)
  else if 0x0400000000 ≤ a ∧ a < 0x04005B0000 then .control (a - 0x0400000000)
  else if 0x0500000000 ≤ a ∧ a < 0x0500200000 then .locket (a - 0x0500000000)
  else if 0x1000000000 ≤ a ∧ a < 0x2000000000 then .dram
  else .none

/-- Where a byte that core `n` addresses stands among the cells: the stores of a core are its own. -/
def cellKey (n a : Nat) : Nat := if a < 0x40000 then (n + 1) * 2 ^ 40 + a else a

/-- The address of a bead's data and of its metadata (R48). -/
def beadAddr (b : Nat) : Nat := 0x0200000000 + b * 0x1000
def beadMetaAddr (b : Nat) : Nat := 0x0210000000 + b * 0x80

/-- The end of installed DRAM (R49). -/
def State.dramEnd (s : State) : Nat := 0x1000000000 + s.dramMiB * 0x100000

/-! ### Bytes, doubles and poison -/

/-- The byte that a cell holds; one that nothing has written holds a free value (log entry 5). -/
def Mem.byte (m : Mem) (k : Nat) : Byte := tgetD m.cells k (Config.unwritten k)

/-- Every byte of the double at `d` has been written. -/
def Mem.whole (m : Mem) (d : Nat) : Bool := (List.range 8).all fun i => (tget m.cells (d + i)).isSome

/-- The double at `d` reads as poisoned: its mark is set, or it was never written whole and reads so (R60, R414). -/
def Mem.poisoned (m : Mem) (d : Nat) : Bool :=
  sHas m.poison d || (!m.whole d && Config.unwrittenPoison d)

/-- `n` bytes from `k`, little-endian (R47). -/
def Mem.read (m : Mem) (k : Nat) : Nat → Nat
  | 0 => 0
  | n + 1 => (m.byte k).toNat + 256 * m.read (k + 1) n

/-- Write the low `n` bytes of `v` from `k`, little-endian (R47). -/
def Mem.write (m : Mem) (k v : Nat) : Nat → Mem
  | 0 => m
  | n + 1 => { m with cells := tput m.cells k (BitVec.ofNat 8 v) }.write (k + 1) (v / 256) n

/-- Write a whole double with its poison mark (R60, R74). -/
def Mem.writeDouble (m : Mem) (d v : Nat) (poison : Bool) : Mem :=
  let m := m.write d v 8
  { m with poison := sSet m.poison d poison }

/-- Write `n` bytes within a double: the rest is merged, and the double stays poisoned or becomes so (R74, R417). -/
def Mem.writePart (m : Mem) (k v n : Nat) (poison : Bool) : Mem :=
  let d := k - k % 8
  let p := poison || m.poisoned d
  let old := m.read d 8
  let m := m.write d old 8
  let m := m.write k v n
  { m with poison := sSet m.poison d p }

/-- Store `n` bytes (1, 2, 4 or 8, aligned) with the poison of the data. -/
def Mem.store (m : Mem) (k v n : Nat) (poison : Bool) : Mem :=
  if n = 8 then m.writeDouble k v poison else m.writePart k v n poison

/-- Doubles from `k` on. -/
def Mem.readDoubles (m : Mem) (k : Nat) : Nat → List Word
  | 0 => []
  | n + 1 => BitVec.ofNat 64 (m.read k 8) :: m.readDoubles (k + 8) n
def Mem.writeDoubles (m : Mem) (k : Nat) : List Word → Mem
  | [] => m
  | w :: t => (m.writeDouble k w.toNat false).writeDoubles (k + 8) t

/-- Whether any of `n` doubles from `k` reads as poisoned, and the first that does. -/
def Mem.firstPoison (m : Mem) (k : Nat) : Nat → Option Nat
  | 0 => none
  | n + 1 => if m.poisoned k then some k else m.firstPoison (k + 8) n

def State.withMem (s : State) (m : Mem) : State := { s with mem := m }

/-! ### Regions of DRAM (R408, R409) -/

/-- The `MEC_RGN` entry that holds a DRAM address, if any (R408). -/
def State.rgnOf (s : State) (a : Nat) : Option Nat :=
  (List.range 16).find? fun r =>
    s.flag (fMEC_RGN1_VALID r) &&
      decide (s.fld (fMEC_RGN0_BASE r) * 0x100000 ≤ a) &&
      decide (a < (s.fld (fMEC_RGN0_BASE r) + s.fld (fMEC_RGN0_SIZE r)) * 0x100000)

/-- How a DRAM address is encoded: 0 Strong with tag 0, else the region's tag, code and mirror bit (R408). -/
def State.encodingOf (s : State) (a : Nat) : Nat :=
  match s.rgnOf a with
  | none => 0
  | some r => s.fld (fMEC_RGN1_TAG r) * 4 + s.fld (fMEC_RGN1_LIGHT r) * 2 + s.fld (fMEC_RGN1_MIRROR r)

def State.isLight (s : State) (a : Nat) : Bool := s.encodingOf a / 2 % 2 == 1
def State.isMirror (s : State) (a : Nat) : Bool := s.encodingOf a % 2 == 1

/-- The DRAM channel of an address (R404, R409). -/
def State.dramChan (s : State) (a : Nat) : Nat :=
  if s.isMirror a then (if s.flag fMEC_DMARK_MARK0 then 1 else 0) else a / 128 % 2

/-- The device of a channel that is marked (R415). -/
def State.marked (s : State) (chan : Nat) : Bool :=
  if chan = 0 then s.flag fMEC_DMARK_MARK0 else s.flag fMEC_DMARK_MARK1

/-- That device. -/
def State.markedDev (s : State) (chan : Nat) : Nat := if chan = 0 then s.fld fMEC_DMARK_DEV0 else s.fld fMEC_DMARK_DEV1

/-- Note how the write just made at `a` encodes its unit (R405, R406, R408): a double of a Light region, the whole block of a Strong
one. -/
def State.encode (s : State) (a : Nat) : State :=
  if regionAt a = .dram then
    let e := s.encodingOf a
    let l := if s.isLight a then [a - a % 8] else (List.range 16).map fun i => a - a % 128 + 8 * i
    { s with mem := { s.mem with tags := l.foldl (fun t d => if e = 0 then tdel t d else tput t d e) s.mem.tags } }
  else s

/-- Note the encoding of `n` doubles written from `a` on. -/
def State.encodeRun (s : State) (a n : Nat) : State := (List.range n).foldl (fun (t : State) i =>
  if i % 16 = 0 || t.isLight (a + 8 * i) then t.encode (a + 8 * i) else t) s

/-- The stored tag of a written DRAM double differs from its region's (R408). -/
def State.tagMismatch (s : State) (a : Nat) : Bool :=
  decide (regionAt a = .dram) && s.mem.whole (a - a % 8) &&
    (tgetD s.mem.tags (a - a % 8) 0 != s.encodingOf a)

/-! ### Counting and logging (R414, R415, R419, R591) -/

/-- Which consumer met the error, as `MEC_ELOG1.CONS` numbers them (R424). -/
inductive Consumer where
  | load | fetch | chainSend | checkpoint | engine | prong | parity | beadCopy | map | assay | scrubber | merge
  deriving DecidableEq, Repr

def Consumer.code : Consumer → Nat
  | .load => 0 | .fetch => 1 | .chainSend => 2 | .checkpoint => 3 | .engine => 4 | .prong => 5 | .parity => 6
  | .beadCopy => 7 | .map => 8 | .assay => 9 | .scrubber => 10 | .merge => 11

/-- The memory that an address lies in: SRAM identifier, instance and byte offset (R407), or none for DRAM. -/
def sramOf (core a : Nat) : Option (Nat × Nat × Nat) :=
  match regionAt a with
  | .imem => some (1, core, a)
  | .lds => some (2, core, a - 0x20000)
  | .sram c => some (3, c, (a - 0x0100000000) % 0x1000000)
  | .beadData _ => some (4, 0, a - 0x0200000000)
  | .beadMeta _ => some (5, 0, a - 0x0210000000)
  | _ => none

/-- The notice of the memory-code unit, endpoint 118 (R419). -/
def State.mecNotice (s : State) (sub w0 w1 : Nat) : State :=
  if s.flag fMEC_NOTE_EN then
    s.hwSend 118 (s.fld fMEC_NOTE_DST) (s.fld fMEC_NOTE_MBX) sub (payloadOf [(0, 8, w0), (8, 8, w1)])
  else s

/-- The firmware moves every Light region that is not mirrored to a Strong one of the same size, in place, and regenerates what it
holds, which is free (R411, R436; log entry 172). -/
def State.lightToStrong (s : State) : State :=
  (List.range 16).foldl (fun (t : State) r =>
    if t.flag (fMEC_RGN1_VALID r) && t.flag (fMEC_RGN1_LIGHT r) && !t.flag (fMEC_RGN1_MIRROR r) then
      let lo := t.fld (fMEC_RGN0_BASE r) * 0x100000
      let hi := lo + t.fld (fMEC_RGN0_SIZE r) * 0x100000
      let out {α : Type} (l : Tab α) : Tab α := l.filter fun e => decide (e.1 < lo) || decide (hi ≤ e.1)
      State.setFld { t with mem := { t.mem with cells := out t.mem.cells, poison := out t.mem.poison, tags := out t.mem.tags } }
        (fMEC_RGN1_LIGHT r) 0
    else t) s

/-- Mark a DRAM device: a masked fault, with an Error record, and a notice; the firmware keeps the mark in flash (R415, R419, R438). -/
def State.markDevice (s : State) (chan dev : Nat) : State :=
  if s.marked chan then s
  else
    let s := if chan = 0 then (s.setFld fMEC_DMARK_DEV0 dev).setFld fMEC_DMARK_MARK0 1
             else (s.setFld fMEC_DMARK_DEV1 dev).setFld fMEC_DMARK_MARK1 1
    let w := (s.reg rMEC_DMARK).toNat
    let s := { s with fw := { s.fw with dramMarks := tput s.fw.dramMarks chan dev } }
    let s := s.lightToStrong
    let s := s.faultNow 0x08 (chan * 20 + dev) false true
    s.mecNotice 0x181 w 0

/-- Count a corrected DRAM block against its device; mark the device at `MARKTH` within `MARKWIN` (R415). -/
def State.countDevice (s : State) (chan dev : Nat) : State :=
  if 20 ≤ dev then s
  else
    let d := chan * 20 + dev
    let ms := s.now / 1000000
    let s := (s.incWrap (fMEC_DEVCE_CE d)).setFld (fMEC_DEVCE_LASTMS d) ms
    let fresh := decide (s.fld fMEC_DCFG_MARKWIN ≤ ms - tgetD s.mec.windowAt d 0) || tgetD s.mec.inWindow d 0 == 0
    let n := if fresh then 1 else tgetD s.mec.inWindow d 0 + 1
    let s := { s with mec := { s.mec with
      inWindow := tput s.mec.inWindow d n
      windowAt := if fresh then tput s.mec.windowAt d ms else s.mec.windowAt } }
    if s.fld fMEC_DCFG_MARKTH ≤ n && s.flag fMEC_CTL_AUTOMARK then
      (if s.marked chan && (s.markedDev chan == dev || n != s.fld fMEC_DCFG_MARKTH) then s
       else if s.marked chan then
        -- a second device of a channel with a mark cannot be marked: Error record (R422)
        s.log 4 118 0x0004 (bodyOf [(0, 8, (s.reg rMEC_DMARK).toNat)])
       else s.markDevice chan dev)
    else s

/-- A correctable error at address `a` as core `core` sees it (R414, R419, R591). -/
def State.countCorrected (s : State) (core a dev : Nat) : State :=
  match sramOf core a with
  | some (id, inst, off) =>
    let s := s.incWrap fMEC_CNT1_CE
    let s := { s with mec := { s.mec with secondSram := s.mec.secondSram + 1 } }
    let s := s.setReg rMEC_CLOG (BitVec.ofNat 64 (off % 2 ^ 40 + 2 ^ 40 + (dev % 32) * 2 ^ 41 + id * 2 ^ 48 + inst * 2 ^ 56))
    if id = 4 ∨ id = 5 then
      State.incSat { s with pool := { s.pool with corrected := s.pool.corrected + 1 } } fBPM_ERR_CE
    else s
  | none =>
    let chan := s.dramChan a
    let s := s.incWrap fMEC_CNT0_CE
    let s := { s with mec := { s.mec with secondDram := s.mec.secondDram + 1 } }
    let s := s.setReg rMEC_CLOG (BitVec.ofNat 64 ((a - a % 128) % 2 ^ 40 + (dev % 32) * 2 ^ 41 + chan * 2 ^ 46))
    s.countDevice chan dev

/-- The count of a bead's uncorrectable error in the pool (R591). -/
def State.countBeadUe (s : State) (b : Nat) : State :=
  let e := tgetD s.pool.beads b ⟨.free, 0, 0, 0⟩
  let s := { s with pool := { s.pool with
    beads := tput s.pool.beads b { e with ue := min 3 (e.ue + 1) }, uncorrected := s.pool.uncorrected + 1 } }
  (s.incSat fBPM_ERR_UE).setFld fBPM_ERR_LAST b

/-- An uncorrectable error at `a` that consumer `cons` of endpoint `unit` meets: counters, error log, Warning record and
notice (R414, R419, R591). -/
def State.countUncorrectable (s : State) (core a dev : Nat) (tag : Bool) (cons : Consumer) (unit : Nat) : State :=
  let w0 := match sramOf core a with
    | some (id, inst, off) => off % 2 ^ 40 + 2 ^ 40 + 2 ^ 41 + id * 2 ^ 44 + inst * 2 ^ 52
    | none => (a - a % 128) % 2 ^ 40 + 2 ^ 41 + b2n tag * 2 ^ 43
  let chan := match sramOf core a with | some _ => 0 | none => s.dramChan a
  let w1 := dev % 32 + chan * 2 ^ 5 + cons.code * 2 ^ 6 + (unit % 128) * 2 ^ 10
  let s := match sramOf core a with
    | some _ =>
      let s := s.incSat fMEC_CNT1_UE
      if cons = Consumer.fetch then s.incSat fMEC_CNT1_FETCH else s
    | none =>
      let s := s.incSat fMEC_CNT0_UE
      if tag then s.incSat fMEC_CNT0_TAG else s
  let s := match regionAt a with
    | .beadData b => s.countBeadUe b
    | .beadMeta b => s.countBeadUe b
    | _ => s
  let s := if s.flag fMEC_ELOG0_VALID then s.setFld fMEC_ELOG0_OVF 1
    else (s.setReg rMEC_ELOG0 (BitVec.ofNat 64 w0)).setReg rMEC_ELOG1 (BitVec.ofNat 64 w1)
  let s := s.log 3 118 0x0004 (bodyOf [(0, 8, w0), (8, 8, w1)])
  s.mecNotice 0x180 w0 w1

/-- An error in a memory that no address reaches (IDs 6 to 10): counted and logged alike (R407, R419). -/
def State.countHidden (s : State) (id inst off : Nat) (ecc : Ecc) (cons : Consumer) (unit : Nat) : State :=
  match ecc with
  | .clean => s
  | .corrected dev =>
    let s := s.incWrap fMEC_CNT1_CE
    let s := { s with mec := { s.mec with secondSram := s.mec.secondSram + 1 } }
    s.setReg rMEC_CLOG (BitVec.ofNat 64 (off % 2 ^ 40 + 2 ^ 40 + dev.toNat * 2 ^ 41 + id * 2 ^ 48 + inst * 2 ^ 56))
  | _ =>
    let w0 := off % 2 ^ 40 + 2 ^ 40 + 2 ^ 41 + id * 2 ^ 44 + inst * 2 ^ 52
    let w1 := 31 + cons.code * 2 ^ 6 + (unit % 128) * 2 ^ 10
    let s := s.incSat fMEC_CNT1_UE
    let s := if s.flag fMEC_ELOG0_VALID then s.setFld fMEC_ELOG0_OVF 1
      else (s.setReg rMEC_ELOG0 (BitVec.ofNat 64 w0)).setReg rMEC_ELOG1 (BitVec.ofNat 64 w1)
    let s := s.log 3 118 0x0004 (bodyOf [(0, 8, w0), (8, 8, w1)])
    s.mecNotice 0x180 w0 w1

/-- The code of such a memory yields an uncorrectable error. -/
def hiddenBad : Ecc → Bool
  | .clean => false
  | .corrected _ => false
  | .uncorrectable _ => true
  | .otherCopy _ => true

/-- Another access reaches a Strong block of which `zl` has written one half: that half was merged into a read of the block, whose
error is counted, and an uncorrectable one leaves the other half poisoned (R413, R417, R422). -/
def State.settleHalf (s : State) (a : Nat) : State :=
  match s.mec.halves.find? fun h => decide (regionAt a = .dram) && h.base / 128 == a / 128 with
  | none => s
  | some h =>
    let s := { s with mec := { s.mec with halves := s.mec.halves.filter fun x => x.base / 128 != a / 128 } }
    if h.found = 0 then s
    else if h.found = 1 then s.countCorrected h.core h.base h.dev
    else
      let s := s.countUncorrectable h.core h.base h.dev h.tag .merge h.core
      let other := if h.base / 64 % 2 = 0 then h.base + 64 else h.base - 64
      s.withMem { s.mem with poison := (List.range 8).foldl (fun p i => sAdd p (other + 8 * i)) s.mem.poison }

/-- What the code yields on a read of the double that holds `a`, and its effect: whether the value is delivered with
poison because an uncorrectable error is found now (R409, R414, R415). -/
def State.readOutcome (s : State) (core a : Nat) (ecc : Ecc) (cons : Consumer) (unit : Nat) : State × Bool :=
  let s := s.settleHalf a
  let lightOnMark := decide (regionAt a = .dram) && s.isLight a && !s.isMirror a && s.marked (s.dramChan a)
  if s.tagMismatch a then (s.countUncorrectable core a 31 true cons unit, true)
  else if lightOnMark then (s.countUncorrectable core a 31 false cons unit, true)
  else match ecc with
    | .clean => (s, false)
    | .corrected dev => (s.countCorrected core a dev.toNat, false)
    | .uncorrectable dev => (s.countUncorrectable core a dev.toNat false cons unit, true)
    | .otherCopy dev => (s.countUncorrectable core a dev.toNat false cons unit, !s.isMirror a)

/-- The address of double `d` of bead `b`: 512 of data, then 16 of metadata (R174). -/
def beadDouble (b d : Nat) : Nat := if d < 512 then beadAddr b + 8 * d else beadMetaAddr b + 8 * (d - 512)

/-- The errors that a consumer meets in the doubles of beads that it reads: each counts once; in a double that stands poisoned there
is none (R414, R591). -/
def State.meetErrors (s : State) (l : List BeadError) (cons : Consumer) (unit : Nat) : State :=
  (l.filter fun e => !s.mem.poisoned (beadDouble e.bead.toNat e.double)).foldl (fun (t : State) e =>
    (t.readOutcome 0 (beadDouble e.bead.toNat e.double) (if e.fatal then .uncorrectable 31 else .corrected 31) cons unit).1) s

/-- A bead has an uncorrectable error among some. -/
def fatalIn (l : List BeadError) (b : Nat) : Bool := l.any fun e => e.fatal && e.bead.toNat == b

/-- The address that a consumer reads is present: a mirrored region has no address with bit 7 set (R409). -/
def State.mirrorHole (s : State) (a : Nat) : Bool :=
  decide (regionAt a = .dram) && s.isMirror a && a / 128 % 2 == 1

/-- Every double of the Strong block that holds `a` becomes poisoned, except those a store writes whole (R417). -/
def State.poisonBlock (s : State) (a : Nat) : State :=
  let b := a - a % 128
  { s with mem := { s.mem with poison := (List.range 16).foldl (fun p i => sAdd p (b + 8 * i)) s.mem.poison } }

/-- Store `n` bytes at `a` as core `core` addresses it: a store narrower than its code's unit reads and merges first
(R74, R413, R417). -/
def State.storeBytes (s : State) (core a v n : Nat) (poison : Bool) (ecc : Ecc) : State :=
  let k := cellKey core a
  let strong := decide (regionAt a = .dram) && !s.isLight a
  let merges := n != 8 || strong
  let r := if merges then s.readOutcome core a ecc .merge core else (s, false)
  let s := r.1
  let s := if r.2 then
      (if strong then s.poisonBlock a else s.withMem { s.mem with poison := sAdd s.mem.poison (k - k % 8) })
    else s
  (s.withMem (s.mem.store k v n poison)).encode a

/-- Load `n` bytes at `a`: the value and whether it is delivered with poison (R73, R414, R416). -/
def State.loadBytes (s : State) (core a n : Nat) (ecc : Ecc) : State × Nat × Bool :=
  let k := cellKey core a
  let s := s.settleHalf a
  let r := s.readOutcome core a ecc .load core
  (r.1, s.mem.read k n, r.2 || s.mem.poisoned (k - k % 8))

end Sys2Proof.Machine
end

