-- ==== Sys2Proof/Machine/BeadOps.lean ====
section
/-! DEFINITION. The bead pool: grants, classes, early warning, retirement and waiting group requests (R174 to R194). -/

namespace Sys2Proof.Machine

open Sys2Proof

/-- What the manager keeps of bead `b`; an unlisted bead is free. -/
def State.bead (s : State) (b : Nat) : Bead := tgetD s.pool.beads b ⟨.free, 0, 0, 0⟩
def State.setBead (s : State) (b : Nat) (e : Bead) : State :=
  { s with pool := { s.pool with beads := tput s.pool.beads b e } }

/-- Bead `b` is granted to endpoint `ep`, a role number for a core (R175, R177). -/
def State.granted (s : State) (b ep : Nat) : Bool :=
  decide (b < 32768) && decide ((s.bead b).st = .granted) && decide ((s.bead b).owner = ep)

/-- Beads in a state. -/
def State.beadsIn (s : State) (p : Bead → Bool) : Nat := countIf (fun (e : Nat × Bead) => p e.2) s.pool.beads
def State.retiredBeads (s : State) : Nat := s.beadsIn (fun e => decide (e.st = .retired))
def State.grantedBeads (s : State) : Nat := s.beadsIn (fun e => decide (e.st = .granted))

/-- The pool serves requests: enabled, and on the AHM4816 its list is built (R178, R179). -/
def State.poolReady (s : State) : Bool := s.flag fBPM_STAT_READY

/-- Free beads: every bead that is neither granted nor retired (R175). -/
def State.freeBeads (s : State) : Nat :=
  if s.poolReady then 32768 - s.retiredBeads - s.grantedBeads else 0

/-! ### Classes (R180) -/

def State.heldOf (s : State) (c : Nat) : Nat := s.fld (fBPM_CST_HELD c)
def State.reserveOf (s : State) (c : Nat) : Nat := s.fld (fBPM_CLS_RESERVE c)
def State.quotaOf (s : State) (c : Nat) : Nat := s.fld (fBPM_CLS_QUOTA c)

/-- owed[c] = max(0, reserve[c] − held[c]) (R180). -/
def State.owed (s : State) (c : Nat) : Nat := s.reserveOf c - s.heldOf c
def State.owedAll (s : State) : Nat := sumOf s.owed (List.range 16)

/-- spare = free − Σ owed[c] (R180). -/
def State.spareBeads (s : State) : Nat := s.freeBeads - s.owedAll

/-- The three answers of R180. -/
inductive Decision where
  | grant | quota | noBead
  deriving DecidableEq, Repr

/-- limited(c) (R180). -/
def State.limited (s : State) (c : Nat) : Bool :=
  s.fld fBPM_STAT_LEVEL == 2 || (s.fld fBPM_STAT_LEVEL == 1 && s.flag (fBPM_CLS_BG c))

/-- The decision on a request for `n` beads by class `c` (R178, R180). -/
def State.decideBeads (s : State) (c n : Nat) : Decision :=
  if !s.poolReady then .noBead
  else
    let need := n - s.owed c
    if s.quotaOf c < s.heldOf c + n then .quota
    else if s.spareBeads < need then .noBead
    else if 0 < need ∧ s.limited c = true then .noBead
    else .grant

/-! ### Early warning (R183) -/

/-- One step of `LEVEL`: its record, notice and counts (R183, R194). -/
def State.levelStep (s : State) (new : Nat) : State :=
  let old := s.fld fBPM_STAT_LEVEL
  let spare := s.spareBeads
  let s := s.setFld fBPM_STAT_LEVEL new
  let s := { s with pool := { s.pool with
    level1 := s.pool.level1 + b2n (new == 1)
    level2 := s.pool.level2 + b2n (new == 2) } }
  let s := s.log (if new = 2 then 3 else if new = 1 then 2 else 1) 114 0x0009
    (bodyOf [(0, 1, 1), (1, 1, new), (4, 2, spare)])
  if s.flag fBPM_NOTE_EN ∧ old ≠ new then
    s.hwSend 114 (s.fld fBPM_NOTE_DST) (s.fld fBPM_NOTE_MBX) 0x130 (payloadOf [(0, 1, new), (8, 2, spare)])
  else s

/-- The level that one step from the present one leads to, for the present spare (R183). -/
def State.levelNext (s : State) : Nat :=
  let l := s.fld fBPM_STAT_LEVEL
  let spare := s.spareBeads
  let soft := s.fld fBPM_WARN_SOFT
  let hard := s.fld fBPM_WARN_HARD
  let hyst := s.fld fBPM_WARN_HYST
  if l = 0 then (if spare < soft then 1 else 0)
  else if l = 1 then (if spare < hard then 2 else if soft + hyst ≤ spare then 0 else 1)
  else (if hard + hyst ≤ spare then 1 else 2)

/-- `LEVEL` takes at most two steps at one instant (R183). -/
def State.levelSettle (s : State) : State :=
  if !s.poolReady then s
  else
    let l0 := s.fld fBPM_STAT_LEVEL
    let n := s.levelNext
    if n = l0 then s
    else
      let s := s.levelStep n
      let m := s.levelNext
      if m = n ∨ m = l0 then s else s.levelStep m

/-- `BPM_STAT` after the free beads or the class table changed (R192). -/
def State.poolRefresh (s : State) : State :=
  let s := s.setFld fBPM_STAT_FREE s.freeBeads
  let s := s.setFld fBPM_STAT_SPARE s.spareBeads
  let s := if s.poolReady && decide (s.spareBeads < s.fld fBPM_STAT_LOW) then s.setFld fBPM_STAT_LOW s.spareBeads else s
  s.levelSettle

/-! ### Allocation and release (R175, R179, R189) -/

/-- The bead that the next allocation takes (R179): the head of the threaded list on the AHM4816, else the
lowest-numbered free bead. -/
def State.nextBead (s : State) : Option Nat :=
  if s.part.freeList then
    match s.pool.freed with
    | b :: _ => some b
    | [] => (leastBelow (fun b => decide (s.pool.tail ≤ b) && decide ((s.bead b).st = .free)) 32768)
  else leastBelow (fun b => decide ((s.bead b).st = .free)) 32768

/-- The list of the AHM4816 without its head; no other part keeps one (R179). -/
def State.popFree (s : State) (b : Nat) : State :=
  if s.part.freeList then
    match s.pool.freed with
    | _ :: t => { s with pool := { s.pool with freed := t } }
    | [] => { s with pool := { s.pool with tail := b + 1 } }
  else s

/-- Bead `b` becomes granted to `ep` for class `c` (R175, R176, R192, R194). -/
def State.grantBead (s : State) (c ep b : Nat) : State :=
  let s := s.popFree b
  let s := { s with pool := { s.pool with
    allocs := s.pool.allocs + 1
    classAllocs := tput s.pool.classAllocs c (tgetD s.pool.classAllocs c 0 + 1) } }
  let s := s.setBead b { s.bead b with st := .granted, owner := ep, cls := c }
  let s := s.setFld (fBPM_CST_HELD c) (s.heldOf c + 1)
  s.setFld (fBPM_CST_HIGH c) (max (s.fld (fBPM_CST_HIGH c)) (s.heldOf c))

/-- Take a bead for class `c`, granted to `ep` (R175, R176). -/
def State.takeBead (s : State) (c ep : Nat) : State × Nat :=
  s.nextBead.elim (s, 0) (fun b => (s.grantBead c ep b, b))

/-- Take `n` beads for class `c`. -/
def State.takeBeads (s : State) (c ep : Nat) : Nat → State × List Nat
  | 0 => (s, [])
  | n + 1 =>
    let r := s.takeBead c ep
    let q := r.1.takeBeads c ep n
    (q.1, r.2 :: q.2)

/-- The units of a group that the manager decides on at once: at most the class's quota (R181). -/
def State.pieceOf (s : State) (g : GroupReq) : Nat := if s.quotaOf g.cls = 0 then g.count else min g.count (s.quotaOf g.cls)

/-- A group without its first `n` units. -/
def GroupReq.rest (g : GroupReq) (n : Nat) : GroupReq := { g with first := g.first + n, count := g.count - n }

/-- `n` granted units of a group go to its slot: their host pull starts (R139, R181). -/
def State.startGroup (s : State) (g : GroupReq) (n : Nat) : State :=
  let r := s.takeBeads g.cls 113 n
  let s := r.1.poolRefresh
  match tget s.hqe.slots g.slot with
  | none => s
  | some sl =>
    let sl := { sl with pulls := sl.pulls ++ [⟨g.first, r.2, false, decide (n < g.count)⟩] }
    { s with hqe := { s.hqe with
      slots := tput s.hqe.slots g.slot sl
      hostOut := s.hqe.hostOut ++ (List.range n).map fun i => HostEvent.pull g.slot (g.first + i) (r.2.getD i 0) } }

/-- Decide waiting group requests in arrival order within each class; a waiting head blocks its class alone (R181). -/
def State.decideWaitingGo (s : State) (blocked : List Nat) : Nat → List GroupReq → State
  | 0, _ => s
  | _ + 1, [] => s
  | fuel + 1, g :: t =>
    if blocked.contains g.cls then
      State.decideWaitingGo { s with pool := { s.pool with waiting := s.pool.waiting ++ [g] } } blocked fuel t
    else match s.decideBeads g.cls (s.pieceOf g) with
      | .grant =>
        let n := s.pieceOf g
        State.decideWaitingGo (s.startGroup g n) blocked fuel (if n < g.count then g.rest n :: t else t)
      | _ => State.decideWaitingGo { s with pool := { s.pool with waiting := s.pool.waiting ++ [g] } }
          (g.cls :: blocked) fuel t

def State.decideWaiting (s : State) : State :=
  let l := s.pool.waiting
  State.decideWaitingGo { s with pool := { s.pool with waiting := [] } } [] (l.length + sumOf GroupReq.count l + 1) l

/-- The engine's request for a group (R181): decided at once, piece by piece, until it is granted or waits; it counts once. -/
def State.requestPieces (s : State) (g : GroupReq) : Nat → State
  | 0 => s
  | fuel + 1 =>
    let n := s.pieceOf g
    if (s.pool.waiting.any fun w => decide (w.cls = g.cls)) || decide (s.decideBeads g.cls n ≠ .grant) then
      { s with pool := { s.pool with waiting := s.pool.waiting ++ [g], waited := s.pool.waited + 1 } }
    else
      let t := s.startGroup g n
      if n < g.count then t.requestPieces (g.rest n) fuel else t
def State.requestGroup (s : State) (g : GroupReq) : State := s.requestPieces g (g.count + 1)

/-- On the AHM4816 a free bead's metadata bytes 120 to 127 hold its link to the next one of the list (R174, R179; log entry 166). -/
def State.linkBead (s : State) (b : Nat) (next : Option Nat) : State :=
  if s.part.freeList then s.withMem (s.mem.writeDouble (beadMetaAddr b + 120) (Config.freeLink next).toNat false) else s

/-- The free beads of the AHM4816 in the order of the list (R179). -/
def State.freeOrder (s : State) : List Nat :=
  s.pool.freed ++ (List.range 32768).filter fun b => decide (s.pool.tail ≤ b) && decide ((s.bead b).st = .free)

/-- A bead leaves the granted state: back to the pool, or retired after its second uncorrectable error (R175, R189). -/
def State.releaseBead (s : State) (b : Nat) : State :=
  let e := s.bead b
  if e.st ≠ .granted then s
  else
    let s := s.setFld (fBPM_CST_HELD e.cls) (s.heldOf e.cls - 1)
    let retire := decide (2 ≤ e.ue)
    let full := decide (64 ≤ s.retiredBeads)
    let s := s.setBead b { e with st := if retire && !full then .retired else .free, owner := 0, cls := 0 }
    let s := if s.part.freeList && !(retire && !full) then
        let t := s.linkBead b s.nextBead
        { t with pool := { t.pool with freed := b :: t.pool.freed } }
      else s
    let s := s.poolRefresh
    let s := if retire then
        (if full then s.log 4 114 0x0009 (bodyOf [(0, 1, 3), (2, 2, b), (4, 2, s.spareBeads)])
         else (s.setFld fBPM_ERR_RET s.retiredBeads).log 3 114 0x0009
           (bodyOf [(0, 1, 2), (2, 2, b), (4, 2, s.spareBeads)]))
      else s
    s.decideWaiting

/-- A bead's grant moves to another endpoint (R175). -/
def State.giveBead (s : State) (b ep : Nat) : State := s.setBead b { s.bead b with owner := ep }

/-- The endpoints that take beads (R94). -/
def takesBeads (ep : Nat) : Bool := ep < 54 || (64 ≤ ep && ep < 98) || ep == 112 || ep == 113 || ep == 115

/-- One `balloc` decided for class `c` and owner `ep` (R94, R180, R194): the result word and the bead, if granted. -/
def State.balloc (s : State) (c ep : Nat) : State × Word × Option Nat :=
  match s.decideBeads c 1 with
  | .grant =>
    let r := s.takeBead c ep
    (r.1.poolRefresh, BitVec.ofNat 64 (2 ^ 63 + r.2), some r.2)
  | .quota =>
    let s := s.incWrap (fBPM_CST_REFUSE c)
    ({ s with pool := { s.pool with refQuota := s.pool.refQuota + 1 } }, BitVec.ofNat 64 (2 ^ 62), none)
  | .noBead =>
    -- a disabled pool refuses under R178, which counts nowhere (log entry 166)
    if !s.poolReady then (s, BitVec.ofNat 64 (2 ^ 61), none)
    else
    let s := s.incWrap (fBPM_CST_REFUSE c)
    ({ s with pool := { s.pool with refBead := s.pool.refBead + 1 } }, BitVec.ofNat 64 (2 ^ 61), none)

end Sys2Proof.Machine
end

