-- ==== Sys2Proof/Machine/MapOps.lean ====
section
/-! DEFINITION. Map entries, and the MAP assist: the directory, victim search, miss messages, pins and the state commands of
`MAP_CMD` (R93, R196 to R200, R206 to R211, R220, R225, R227). -/

namespace Sys2Proof.Machine

open Sys2Proof

/-! ### Map entries (R196, R199, R200) -/

/-- The key of the entry of unit `u` of namespace index `k`: MPN * 1024 + index (R196). -/
def State.entryKey (s : State) (k u : Nat) : Option Nat :=
  (tget s.ns k).map fun n => (n.base + u / 1024) * 1024 + u % 1024

/-- A map entry (R199). -/
def mkEntry (ppa : Nat) (trim poison staged direct : Bool) (seq : Nat) : Nat :=
  ppa % 2 ^ 40 + b2n trim * 2 ^ 40 + b2n poison * 2 ^ 41 + b2n staged * 2 ^ 42 + b2n direct * 2 ^ 43 +
    seq % 65536 * 2 ^ 48

def entTrim (e : Nat) : Bool := e / 2 ^ 40 % 2 == 1
def entPoison (e : Nat) : Bool := e / 2 ^ 41 % 2 == 1
def entStaged (e : Nat) : Bool := e / 2 ^ 42 % 2 == 1
def entDirect (e : Nat) : Bool := e / 2 ^ 43 % 2 == 1
def entPpa (e : Nat) : Nat := e % 2 ^ 40
def entSeq (e : Nat) : Nat := e / 2 ^ 48 % 65536
/-- The entry names a location in flash. -/
def entWritten (e : Nat) : Bool := !entTrim e && !entPoison e

/-- The valid combinations of flags and codes (R200). -/
def entValid (e : Nat) : Bool :=
  e / 2 ^ 44 % 16 == 0 &&
    (if entTrim e then !entPoison e && !entStaged e && !entDirect e && entPpa e ≤ 1
     else if entPoison e then !entStaged e && !entDirect e && entPpa e ≤ 1
     else !(entStaged e && entDirect e))

/-- The entry of a unit never written (R200). -/
def entNever : Nat := mkEntry 0 true false false false 0

/-- The entry at a key: what is pending for its whole page first (R220). -/
def State.entryAt (s : State) (key : Nat) : Nat :=
  match tget s.fw.dealloc (key / 1024) with
  | some e => e
  | none => tgetD s.fw.entries key entNever

/-- A page with a whole-page mark is built at its next use, and the mark is cleared (R220). -/
def State.buildPage (s : State) (mpn : Nat) : State :=
  match tget s.fw.dealloc mpn with
  | none => s
  | some e =>
    let t := (List.range 1024).foldl (fun (t : Tab Nat) i => tput t (mpn * 1024 + i) e) s.fw.entries
    { s with fw := { s.fw with entries := t, dealloc := tdel s.fw.dealloc mpn } }

/-- The entries of a map page as the owner sees them. -/
def State.pageImage (s : State) (mpn : Nat) : List Word :=
  (List.range 1024).map fun i => BitVec.ofNat 64 (s.entryAt (mpn * 1024 + i))

/-- The fields of a stored unit: tag, data and host metadata (R202). -/
def uSeq (u : List Word) : Nat := (u.getD 520 0#64).toNat
def uLba (u : List Word) : Nat := bits (u.getD 521 0#64) 0 48
def uNs (u : List Word) : Nat := bits (u.getD 521 0#64) 48 8
def uKind (u : List Word) : Nat := bits (u.getD 521 0#64) 56 8
def uStripe (u : List Word) : Nat := bits (u.getD 522 0#64) 0 32
def uData (u : List Word) : List Word := u.take 512
def uMeta (u : List Word) : List Word := (u.drop 512).take 8

/-- The entries of a map page as its table entry finds them in flash (R206). -/
def State.pageInFlash (s : State) (mpn : Nat) : List Word :=
  match tget s.fw.pageTab mpn with
  | none => List.replicate 1024 (BitVec.ofNat 64 entNever)
  | some e =>
    let p := e % 2 ^ 40
    uData (tgetD s.fw.flash p []) ++ uData (tgetD s.fw.flash (p + 1) [])

/-- The page differs from flash (R263). -/
def State.pageDirty (s : State) (mpn : Nat) : Bool := s.pageImage mpn != s.pageInFlash mpn

/-! ### The directory (R207, R208) -/

def Frame.empty : Frame := ⟨0, 0, false, false, false, false, false⟩

/-- The directory entry of frame `f`. -/
def State.frame (s : State) (f : Nat) : Frame := tgetD s.map.frames f Frame.empty

/-- A directory entry as its double (R207). -/
def Frame.word (e : Frame) : Nat :=
  e.mpn % 2 ^ 32 + (e.pins % 65536) * 2 ^ 32 + b2n e.valid * 2 ^ 48 + b2n e.dirty * 2 ^ 49 + b2n e.busy * 2 ^ 50 +
    b2n e.wb * 2 ^ 51 + b2n e.ref * 2 ^ 52

/-- The directory entry that a double spells (R207). -/
def Frame.ofWord (w : Nat) : Frame :=
  { mpn := w % 2 ^ 32, pins := w / 2 ^ 32 % 65536, valid := w / 2 ^ 48 % 2 == 1, dirty := w / 2 ^ 49 % 2 == 1
    busy := w / 2 ^ 50 % 2 == 1, wb := w / 2 ^ 51 % 2 == 1, ref := w / 2 ^ 52 % 2 == 1 }

/-- The address of a directory entry and of a frame (R207). -/
def State.dirAddr (s : State) (f : Nat) : Nat := s.fld fMAP_DBASE_BASE * 0x10000 + f * 8
def State.frameAddr (s : State) (f : Nat) : Nat := s.fld fMAP_CBASE_BASE * 0x10000 + f * 0x2000

/-- `MAP_OCC` and `MAP_PINS` from the directory (R227). -/
def State.mapCounts (s : State) : State :=
  let n (p : Frame → Bool) := countIf (fun (e : Nat × Frame) => p e.2) s.map.frames
  let s := s.setFld fMAP_OCC_RESIDENT (n (·.valid))
  let s := s.setFld fMAP_OCC_DIRTY (n (·.dirty))
  let s := s.setFld fMAP_PINS_PINNED (n (fun e => decide (0 < e.pins)))
  s.setFld fMAP_PINS_BUSY (n (fun e => e.busy || e.wb))

/-- Replace a directory entry, in the assist and in DRAM (R207). -/
def State.setFrame (s : State) (f : Nat) (e : Frame) : State :=
  let s := { s with map := { s.map with frames := if e = Frame.empty then tdel s.map.frames f else tput s.map.frames f e } }
  let s := (s.withMem (s.mem.writeDouble (s.dirAddr f) e.word false)).encode (s.dirAddr f)
  s.mapCounts

/-- Enabled, the assist takes the directory as DRAM holds it (R207); a double that was never written whole counts as empty (log
entry 156). -/
def State.readDirectory (s : State) : State :=
  let base := s.dirAddr 0
  let n := 8 * 2 ^ s.fld fMAP_CFG_SETBITS
  let listed := (s.mem.cells.filter fun c => base ≤ c.1 && c.1 < base + 8 * n).foldl
    (fun (t : Tab Unit) c => sAdd t ((c.1 - base) / 8)) []
  let frames := listed.foldl (fun (t : Tab Frame) e =>
    let f := Frame.ofWord (s.mem.read (s.dirAddr e.1) 8)
    if s.mem.whole (s.dirAddr e.1) && f != Frame.empty then tput t e.1 f else t) []
  State.mapCounts { s with map := { s.map with frames := frames, failed := [], wanted := [] } }

/-- The set of a map page number (R208). -/
def State.mapSet (s : State) (mpn : Nat) : Nat :=
  (mpn * 0x9E3779B1) % 2 ^ 32 / 2 ^ (32 - s.fld fMAP_CFG_SETBITS)

/-- The frame that holds, or is loading, a page (R207). -/
def State.findPage (s : State) (mpn : Nat) : Option Nat :=
  let b := s.mapSet mpn * 8
  (List.range 8).map (b + ·) |>.find? fun f => (s.frame f).valid && decide ((s.frame f).mpn = mpn)

/-- The way after the hand for each of `n` steps, clearing `REF` on each way passed, until one is free to take
(R208). -/
def State.sweep (s : State) (set way : Nat) : Nat → State × Option Nat
  | 0 => (s, none)
  | n + 1 =>
    let f := set * 8 + way % 8
    let e := s.frame f
    if e.pins = 0 ∧ e.busy = false ∧ e.wb = false ∧ e.dirty = false ∧ e.ref = false then (s, some (way % 8))
    else (s.setFrame f { e with ref := false }).sweep set (way + 1) n

/-- The victim way of a set (R208): a way that is not `VALID`, else one that the sweep finds within two turns (log
entry 14). The hand moves past the way taken. -/
def State.victim (s : State) (set : Nat) : State × Option Nat :=
  let hand := tgetD s.map.hands set 0
  match (List.range 8).map (fun i => (hand + i) % 8) |>.find? fun w => !(s.frame (set * 8 + w)).valid with
  | some w => ({ s with map := { s.map with hands := tput s.map.hands set ((w + 1) % 8) } }, some w)
  | none =>
    match s.sweep set hand 16 with
    | (t, some w) => ({ t with map := { t.map with hands := tput t.map.hands set ((w + 1) % 8) } }, some w)
    | (t, none) => (t, none)

/-- A miss message (R209). -/
def State.missMessage (s : State) (mpn flags req wbMpn frame addr : Nat) : State :=
  let s := s.incWrap fMAP_MISS_MISSES
  s.hwSend epDevice (s.fld fMAP_NOTE_DST) (s.fld fMAP_NOTE_MBX) 0x140
    (payloadOf [(0, 4, mpn), (4, 1, flags), (5, 1, req), (8, 4, wbMpn), (12, 4, frame), (16, 8, addr)])

/-- A miss (R208): claim a victim way and send the miss message, or the set-full one. True where a way was claimed. -/
def State.missOn (s : State) (mpn req : Nat) : State × Bool :=
  let set := s.mapSet mpn
  match s.victim set with
  | (t, some w) =>
    let f := set * 8 + w
    let t := t.setFrame f ⟨mpn, 0, true, false, true, false, false⟩
    let t := { t with map := { t.map with wanted := tput t.map.wanted mpn req } }
    (t.missMessage mpn 0 req 0 f (t.frameAddr f), true)
  | (t, none) =>
    let t := t.incWrap fMAP_MISS_SETFULL
    let dirty := (List.range 8).map (set * 8 + ·) |>.find? fun f => (t.frame f).dirty && decide ((t.frame f).pins = 0)
    match dirty with
    | some f =>
      let p := (t.frame f).mpn
      let t := { t with fw := { t.fw with missNamed := p :: t.fw.missNamed.filter (· ≠ p) } }
      (t.missMessage mpn 3 req (t.frame f).mpn 0 0, false)
    | none => (t.missMessage mpn 1 req 0 0 0, false)

/-- An entry of the set stands poisoned in DRAM (R225). -/
def State.dirPoisoned (s : State) (set : Nat) : Bool :=
  (List.range 8).any fun w => sHas s.mem.poison (s.dirAddr (set * 8 + w))

/-- An uncorrectable directory read: the set is treated as failed until it is written afresh, with one message (R225, R416). -/
def State.dirError (s : State) (mpn req : Nat) : State :=
  let set := s.mapSet mpn
  let s := s.incSat fMAP_ERR_UE
  let s := s.setFld fMAP_ERR_SET set
  if sHas s.map.failed set then s
  else State.missMessage { s with map := { s.map with failed := sAdd s.map.failed set } } mpn 4 req 0 0 0

/-- The `mlook` result word (R93). -/
def mlookWord (hit busy dirty refused : Bool) (pins addr : Nat) : Word :=
  BitVec.ofNat 64 (addr % 2 ^ 40 + (pins % 65536) * 2 ^ 40 + b2n refused * 2 ^ 60 + b2n dirty * 2 ^ 61 +
    b2n busy * 2 ^ 62 + b2n hit * 2 ^ 63)

def mlookRefused : Word := mlookWord false false false true 0 0

/-- Add to the pins that core `n` holds of a page, and to the page's own count (R211). -/
def State.addPin (s : State) (n mpn : Nat) : State :=
  match s.findPage mpn with
  | none => s
  | some f =>
    let e := s.frame f
    let c := s.core n
    let s := s.setCore n { c with pins := tput c.pins mpn (tgetD c.pins mpn 0 + 1) }
    s.setFrame f { e with pins := e.pins + 1 }

/-- Drop one pin of core `n` on a page (R211). -/
def State.dropPin (s : State) (n mpn : Nat) : State :=
  let c := s.core n
  let k := tgetD c.pins mpn 0
  if k = 0 then s
  else
    let s := s.setCore n { c with pins := if k = 1 then tdel c.pins mpn else tput c.pins mpn (k - 1) }
    match s.findPage mpn with
    | none => s
    | some f => let e := s.frame f; s.setFrame f { e with pins := e.pins - 1 }

/-- `mlook` operation `op` on page `mpn` by core `n` that requests as endpoint `ep` (R93, R208, R211). `defer` holds an
unpin back (R86). -/
def State.mlook (s : State) (n ep mpn op : Nat) (defer : Bool) : State × Word :=
  match s.findPage mpn with
  | none => if op = 2 then (s, mlookRefused) else ((s.missOn mpn ep).1, mlookWord false true false false 0 0)
  | some f =>
    let e := s.frame f
    if e.busy then
      if op = 2 then (s, mlookRefused) else (s, mlookWord false true e.dirty false e.pins 0)
    else
      let mine := tgetD (s.core n).pins mpn 0
      let s := s.incWrap fMAP_HITS_COUNT
      let s := s.setFrame f { e with ref := e.ref || op != 2 }
      let e := s.frame f
      let a := s.frameAddr f
      if op = 0 then (s, mlookWord true false e.dirty false e.pins a)
      else if op = 1 then
        if mine = 0 ∧ 64 ≤ (s.core n).pins.length then (s, mlookRefused)
        else (s.addPin n mpn, mlookWord true false e.dirty false (e.pins + 1) a)
      else if op = 2 then
        if mine = 0 then (s, mlookRefused)
        else if defer then (s, mlookWord true false e.dirty false e.pins a)
        else (s.dropPin n mpn, mlookWord true false e.dirty false (e.pins - 1) a)
      else
        if mine = 0 then (s, mlookRefused)
        else (s.setFrame f { e with dirty := true }, mlookWord true false true false e.pins a)

/-- The result of a `MAP_CMD` command (R210, R227): status, operation, page. -/
def State.mapResp (s : State) (status op mpn : Nat) : State :=
  s.setReg rMAP_RESP (BitVec.ofNat 64 (status + op * 2 ^ 8 + (mpn % 2 ^ 32) * 2 ^ 32))

/-- One command of R210 on the page `mpn`: `ok` says whether the entry is in the "From" state, `next` what it becomes. -/
def State.mapCmdOn (s : State) (mpn op : Nat) (ok : Frame → Bool) (next : Frame → Frame) (pinned : Frame → Bool) : State :=
  match s.findPage mpn with
  | none => s.mapResp 2 op mpn
  | some f =>
    let e := s.frame f
    if pinned e then s.mapResp 3 op mpn
    else if ok e then (s.setFrame f (next e)).mapResp 0 op mpn
    else s.mapResp 1 op mpn

/-- Loading: `BUSY` before the page was ever filled, so neither dirty nor written back (R210). -/
def Frame.loading (e : Frame) : Bool := e.busy && !e.dirty
def Frame.snapped (e : Frame) : Bool := e.busy && e.dirty
def neverPinned (_ : Frame) : Bool := false
def Frame.isPinned (e : Frame) : Bool := decide (0 < e.pins)

/-- The frame of a resident page holds what the owner sees, and is dirty where asked (R207, R217). -/
def State.putFrame (s : State) (mpn : Nat) (dirty : Bool) : State :=
  match s.findPage mpn with
  | none => s
  | some f =>
    let s := (s.withMem (s.mem.writeDoubles (s.frameAddr f) (s.pageImage mpn))).encodeRun (s.frameAddr f) 1024
    let e := s.frame f
    s.setFrame f { e with dirty := e.dirty || dirty }

/-- The map task answers the miss message with a filled message to the requester (R209; log entry 157). -/
def State.filledMessage (s : State) (mpn : Nat) : State :=
  match tget s.map.wanted mpn with
  | none => s
  | some req =>
    let s := { s with map := { s.map with wanted := tdel s.map.wanted mpn } }
    s.hwSend (s.fld fMAP_NOTE_DST) req (Config.filledMbx % 15) (Config.filledSub % 65536) (payloadOf [(0, 4, mpn)])

/-- A page becomes resident: its frame is filled, replay records are applied, and the owner marks it dirty where that or an
update in the meantime makes it differ from flash (R209, R217, R268). -/
def State.pageArrives (s : State) (mpn : Nat) (dirty : Bool) : State :=
  if s.fld fMAP_RESP_STATUS ≠ 0 then s
  else
    let s := s.buildPage mpn
    let s := s.putFrame mpn (dirty || s.pageDirty mpn)
    State.filledMessage { s with fw := { s.fw with replayIndex := tdel s.fw.replayIndex mpn } } mpn

def State.mapFilled (s : State) (mpn : Nat) : State :=
  (s.mapCmdOn mpn 1 Frame.loading (fun e => { e with busy := false }) neverPinned).pageArrives mpn false
/-- `BUILT` also clears a whole-page mark (R220). -/
def State.mapBuilt (s : State) (mpn : Nat) : State :=
  (s.mapCmdOn mpn 2 Frame.loading (fun e => { e with busy := false, dirty := true }) neverPinned).pageArrives mpn true
def State.mapAbandon (s : State) (mpn : Nat) : State :=
  s.mapCmdOn mpn 3 Frame.loading (fun _ => Frame.empty) neverPinned
def State.mapSnap (s : State) (mpn : Nat) : State :=
  s.mapCmdOn mpn 4 (fun e => e.dirty && !e.wb && !e.busy) (fun e => { e with busy := true }) Frame.isPinned
/-- After `COPIED` an update that waited for it reaches the frame and marks it dirty again (R217, R225). -/
def State.mapCopied (s : State) (mpn : Nat) : State :=
  let t := s.mapCmdOn mpn 5 Frame.snapped (fun e => { e with busy := false, dirty := false, wb := true }) neverPinned
  if t.fld fMAP_RESP_STATUS = 0 && t.mem.readDoubles (t.frameAddr ((t.findPage mpn).getD 0)) 1024 != t.pageImage mpn then
    t.putFrame mpn true
  else t
def State.mapWritten (s : State) (mpn : Nat) : State :=
  s.mapCmdOn mpn 6 (·.wb) (fun e => { e with wb := false }) neverPinned
def State.mapEvict (s : State) (mpn : Nat) : State :=
  s.mapCmdOn mpn 7 (fun e => !e.dirty && !e.wb && !e.busy) (fun _ => Frame.empty) Frame.isPinned

/-- PREFETCH claims a way for an absent page, with a miss message (R210). -/
def State.mapPrefetch (s : State) (mpn req : Nat) : State :=
  match s.findPage mpn with
  | some _ => s.mapResp 1 8 mpn
  | none =>
    match s.missOn mpn req with
    | (t, true) => t.mapResp 0 8 mpn
    | (t, false) => t.mapResp 1 8 mpn

/-- REINIT empties every way of a set and rewrites its entries (R210). -/
def State.mapReinit (s : State) (mpn : Nat) : State :=
  let set := mpn % 2 ^ 18
  let s := (List.range 8).foldl (fun (t : State) w => t.setFrame (set * 8 + w) Frame.empty) s
  State.mapResp { s with map := { s.map with failed := tdel s.map.failed set } } 0 9 mpn

/-- A write of `MAP_CMD` (R210, R227): any other operation code changes no page and reports a wrong state. -/
def State.mapCommand (s : State) (op mpn req : Nat) : State :=
  if op = 1 then s.mapFilled mpn
  else if op = 2 then s.mapBuilt mpn
  else if op = 3 then s.mapAbandon mpn
  else if op = 4 then s.mapSnap mpn
  else if op = 5 then s.mapCopied mpn
  else if op = 6 then s.mapWritten mpn
  else if op = 7 then s.mapEvict mpn
  else if op = 8 then s.mapPrefetch mpn req
  else if op = 9 then s.mapReinit mpn
  else s.mapResp 1 op mpn

end Sys2Proof.Machine
end

