-- ==== Sys2Proof/Machine/CoreOps.lean ====
section
/-! DEFINITION. What befalls a Facet core: trap entry, the end of a transaction, checkpoints, fault reports, takeover and
fatal faults (R69 to R72, R86 to R90, R430 to R432, R438). -/

namespace Sys2Proof.Machine

open Sys2Proof

/-! ### CRC-32C (R95) -/

/-- One bit of the reflected CRC-32C. -/
def crcBit (c : BitVec 32) : BitVec 32 := if c.getLsbD 0 then (c >>> 1) ^^^ 0x82F63B78#32 else c >>> 1

/-- One byte of the CRC-32C update, without inversion. -/
def crcByte (c : BitVec 32) (b : Byte) : BitVec 32 :=
  let x := c ^^^ b.zeroExtend 32
  crcBit (crcBit (crcBit (crcBit (crcBit (crcBit (crcBit (crcBit x)))))))

def crcBytes (c : BitVec 32) (l : List Byte) : BitVec 32 := l.foldl crcByte c

/-- The low `n` bytes of `v`, lowest first. -/
def bytesOf (v : Nat) : Nat → List Byte
  | 0 => []
  | n + 1 => BitVec.ofNat 8 v :: bytesOf (v / 256) n

/-- Bytes of memory. -/
def Mem.bytes (m : Mem) (k : Nat) : Nat → List Byte
  | 0 => []
  | n + 1 => m.byte k :: m.bytes (k + 1) n

/-- The standard CRC-32C of a message: NOT update(0xFFFF_FFFF, message) (R95). -/
def crc32c (l : List Byte) : BitVec 32 := ~~~(crcBytes 0xFFFFFFFF#32 l)

/-! ### Control-register fields (R65, R66, R68) -/

def Core.inTrap (c : Core) : Bool := bit c.cr.hstat 0
def Core.bpSup (c : Core) : Bool := bit c.cr.hstat 1
def Core.wdPend (c : Core) : Bool := bit c.cr.hstat 2
def Core.setStat (c : Core) (n : Nat) (b : Bool) : Core :=
  { c with cr := { c.cr with hstat := setBits c.cr.hstat n 1 (b2n b) } }

/-- The handler table base (R65). -/
def Core.base (c : Core) : Nat := bits c.cr.hbase 10 6

/-! ### The end of a transaction (R86) -/

/-- Put taken messages back at the heads of their mailboxes, in their original order (R86). -/
def State.returnTaken (s : State) (ep : Nat) (l : List Msg) : State :=
  l.foldr (fun m t => t.setBox ep m.mbx (m :: t.box ep m.mbx)) s

/-- Undo the immediate assist effects of a transaction, latest first (R86). -/
def State.undoEffects (s : State) (n : Nat) (l : List Effect) : State :=
  l.foldr (fun e t => match e with
    | .allocBead b => t.releaseBead b
    | .pinPage p => t.dropPin n p
    | _ => t) s

/-- The open transaction of core `n` ends without committing (R86): held effects are discarded, immediate ones undone,
taken messages return. `byTrap` sets `tstate` bit [1]. -/
def State.endTx (s : State) (n : Nat) (byTrap : Bool) : State :=
  let c := s.core n
  if c.tx.isOpen then
    let s := s.setCore n { c with tx := { Tx.none with ended := byTrap } }
    let s := s.returnTaken c.role c.tx.taken
    s.undoEffects n c.tx.effects
  else s

/-! ### Checkpoints (R89, R90) -/

/-- The address of checkpoint slot `k` of a role, in its cluster's SRAM (R89; log entry 16). -/
def State.ckAddr (s : State) (role k : Nat) : Nat :=
  0x0100000000 + role / 9 * 0x1000000 +
    (s.fld fFCT_CKBASE_BASE * 0x1000 + role % 9 * 0x280 + k * 0x140) % 0x400000

/-- A checkpoint slot is valid: written whole, unpoisoned, with a correct check value and a commit number (R89,
R416). -/
def State.ckValid (s : State) (role k : Nat) : Bool :=
  let a := s.ckAddr role k
  ((List.range 36).all fun i => s.mem.whole (a + 8 * i) && !s.mem.poisoned (a + 8 * i)) &&
    decide (s.mem.read (a + 0x108) 8 ≠ 0) &&
    decide (s.mem.read (a + 0x11C) 4 = (crc32c (s.mem.bytes a 0x118)).toNat)

/-- The slot that holds the valid checkpoint: of two, the higher commit number (R89). -/
def State.ckSlot (s : State) (role : Nat) : Option Nat :=
  let v0 := s.ckValid role 0
  let v1 := s.ckValid role 1
  if v0 && v1 then
    some (if s.mem.read (s.ckAddr role 0 + 0x108) 8 < s.mem.read (s.ckAddr role 1 + 0x108) 8 then 1 else 0)
  else if v0 then some 0
  else if v1 then some 1
  else none

/-- The commit number of the valid checkpoint, 0 where there is none. -/
def State.ckNumber (s : State) (role : Nat) : Nat :=
  match s.ckSlot role with
  | none => 0
  | some k => s.mem.read (s.ckAddr role k + 0x108) 8

/-- The doubles of a checkpoint, its check value left out (R89). -/
def Core.ckDoubles (c : Core) (resume number : Nat) : List Word :=
  let regs := (List.range 31).map fun i => (c.get (i + 1)).val
  let poison := (List.range 31).foldl (fun p i => p + b2n (c.get (i + 1)).poison * 2 ^ (i + 1)) 0
  regs ++ [BitVec.ofNat 64 poison, BitVec.ofNat 64 resume, BitVec.ofNat 64 number,
    BitVec.ofNat 64 (c.role + c.base * 2 ^ 16 + bits c.cr.wdog 0 32 * 2 ^ 32)]

/-- Write a checkpoint of core `n` with the given resume address into the slot that does not hold the last valid one, and
mark it valid (R88 step 1, R89). -/
def State.writeCheckpoint (s : State) (n resume : Nat) : State :=
  let c := s.core n
  let k := match s.ckSlot c.role with | some 0 => 1 | _ => 0
  let a := s.ckAddr c.role k
  let m := s.mem.writeDoubles a (c.ckDoubles resume (s.ckNumber c.role + 1))
  -- the check value covers byte 0x117, so the low word of the last double goes first
  let m := m.writeDouble (a + 0x118) (bits c.cr.wdog 32 1) false
  let crc := (crc32c (m.bytes a 0x118)).toNat
  s.withMem (m.writeDouble (a + 0x118) (bits c.cr.wdog 32 1 + crc * 2 ^ 32) false)

/-- Core `n` resumes from the valid checkpoint of its role, or at its image's entry with every register zero (R90). -/
def State.resume (s : State) (n : Nat) : State :=
  let c := s.core n
  match s.ckSlot c.role with
  | some k =>
    let a := s.ckAddr c.role k
    let poison := s.mem.read (a + 0xF8) 8
    let g := (List.range 31).foldl
      (fun (t : Tab RVal) i =>
        tput t (i + 1) ⟨BitVec.ofNat 64 (s.mem.read (a + 8 * i) 8), poison / 2 ^ (i + 1) % 2 == 1⟩) []
    let w := BitVec.ofNat 64 (s.mem.read (a + 0x110) 8)
    let en := s.mem.read (a + 0x118) 1 % 2
    s.setCore n { c with
      g := g
      pc := s.mem.read (a + 0x100) 8 % 2 ^ 40 / 4 * 4
      wild := none
      wdStart := s.now
      cr := { c.cr with
        hbase := BitVec.ofNat 64 (bits w 16 6 * 2 ^ 10)
        hstat := 0#64
        wdog := BitVec.ofNat 64 (bits w 32 32 + en * 2 ^ 32) } }
  | none =>
    s.setCore n { c with
      g := []
      pc := tgetD s.entries c.role 0
      wild := none
      wdStart := s.now
      cr := { CoreRegs.zero with icount := c.cr.icount } }

/-! ### Takeover (R431, R432) -/

/-- The takeover notice, placed first in mailbox 15 (R79, R90), outside the numbering of R22 with source 120 and `SEQ` 0, and with
a payload that is open (log entry 15). -/
def State.takeoverNotice (s : State) (role failed spare : Nat) : State :=
  s.setBox role 15 (mkMsg epDevice role 15 0x002 0 (Config.takeoverNotice failed spare) :: s.box role 15)

/-- A Locket sequence whose owner is fenced ends with result 1 (R515). -/
def State.endLocketSequence (s : State) (owner : Nat) : State :=
  if s.fld (fLKT_STAT_SEQ 0) != 0 && s.fld (fLKT_STAT_OWNER 0) == owner then
    (s.setFld (fLKT_STAT_SEQ 0) 0).setFld (fLKT_STAT_RESULT 0) 1
  else s

/-- A core's instruction store is loaded from its image again, if a service call asked for it (R420, R449; log entry 47). -/
def State.reloadStore (s : State) (n : Nat) : State :=
  if sHas s.sig.reload n then
    let keep (a : Nat) : Bool := a < (n + 1) * 2 ^ 40 || (n + 1) * 2 ^ 40 + 0x10000 ≤ a
    { s with
      mem := ⟨s.mem.cells.filter (fun c => keep c.1), s.mem.poison.filter (fun c => keep c.1), s.mem.tags⟩
      sig := { s.sig with reload := sDel s.sig.reload n } }
  else s

/-- A core that holds work: released, and neither fenced nor an idle spare. -/
def CoreStatus.live : CoreStatus → Bool
  | .running => true
  | .stopped => true
  | .waiting _ => true
  | .unreleased => false
  | .spare => false
  | .fenced => false

/-- A core fails (R431): its cluster's spare takes over (R432), or the failure is fatal without one (R430). The measured
`RESUME` is a free value of at most 3 µs (log entry 17). -/
def State.coreFail (s : State) (n kind : Nat) (injected : Bool) : State :=
  let c := s.core n
  let cl := n / 9
  let avail := bit (s.reg rFCT_SPARE) (8 * cl + 7)
  let sp := bits (s.reg rFCT_SPARE) (8 * cl) 6
  let s := s.setCore n { c with status := .stopped }
  if !avail then s.fatalFault 0x0C n injected
  else
    let s := s.faultDetected kind n injected true
    let s := s.endTx n false
    let f := s.core n
    let s := s.setFld fFCT_FENCE_FENCED (s.fld fFCT_FENCE_FENCED ||| 2 ^ n)
    let s := s.setCore n { f with status := .fenced, pins := [] }
    let s := s.endLocketSequence f.role
    let s := s.setFld fFCT_TAKE_COUNT ((s.fld fFCT_TAKE_COUNT + 1) % 65536)
    let s := (s.setFld fFCT_TAKE_FAILED n).setFld fFCT_TAKE_SPARE sp
    let s := s.setReg rFCT_SPARE (setBits (s.reg rFCT_SPARE) (8 * cl + 7) 1 0)
    let p := s.core sp
    let s := s.setCore sp { p with
      status := .running, role := f.role, pins := f.pins, tx := Tx.none }
    let s := (s.takeoverNotice f.role n sp).reloadStore n
    let s := s.resume sp
    let resume := (freshWord s).toNat % 301
    let s := s.tick
    let s := s.setReg rFLT_LAST0 (BitVec.ofNat 64 (faultWord kind n (injected || s.flt.blame) true resume))
    s.faultTold kind n injected true resume s.now

/-! ### Trap entry (R69 to R71, R86, R87) -/

/-- The core's registers after trap entry (R69). -/
def Core.enterTrap (c : Core) (code detail info : Nat) (async : Bool) : Core :=
  { c with
    status := .running
    wild := none
    pc := c.base * 0x400 + code * 0x40
    cr := { c.cr with
      hresume := BitVec.ofNat 64 (((if code = 0x0A then c.pc + 4 else c.pc) % 2 ^ 40) / 4 * 4)
      hcode := BitVec.ofNat 64 (detail * 2 ^ 16 + code * 2 ^ 8 + b2n async)
      hinfo := BitVec.ofNat 64 info
      hstat := setBits c.cr.hstat 0 1 1 } }

/-- Core `n` takes a trap (R69). A trap within a handler is a double trap (R71): the core stops and fails. A trap other
than 0x09 ends an open transaction (R86); an abort is counted (R101). -/
def State.trap (s : State) (n code detail info : Nat) (async : Bool := false) : State :=
  let c := s.core n
  if c.inTrap then s.coreFail n 0x02 false
  else
    let s := if code = 0x09 then s else s.endTx n (decide (code ≠ 0x07))
    let s := if code = 0x07 then
        (s.incSat (fFCT_TXS_ABORTS n)).setFld (fFCT_TXS_LAST n) detail
      else s
    s.setCore n ((s.core n).enterTrap code detail info async)

end Sys2Proof.Machine
end

