-- ==== Sys2Proof/Machine/HqeOps.lean ====
section
/-! DEFINITION. The host queue engine: parsing, the hazard table, dispatch, slots, groups of beads, completions, notices
and controller resets (R131 to R145, R158, R164 to R168, R173). -/

namespace Sys2Proof.Machine

open Sys2Proof

/-! ### Command fields (R134, R136) -/

abbrev NvmeOp := Nat

def cmdOp (c : NvmeCmd) : Nat := c.dw0.toNat % 256
def cmdFuse (c : NvmeCmd) : Nat := c.dw0.toNat / 256 % 4
def cmdPsdt (c : NvmeCmd) : Nat := c.dw0.toNat / 2 ^ 14 % 4
def cmdCid (c : NvmeCmd) : Nat := c.dw0.toNat / 2 ^ 16
def cmdSlba (c : NvmeCmd) : Nat := c.dw10.toNat + c.dw11.toNat * 2 ^ 32
/-- The number of logical blocks, from the zero-based field. -/
def cmdBlocks (c : NvmeCmd) : Nat := c.dw12.toNat % 65536 + 1

/-- The admin commands of R126, the vendor command included. -/
def adminOps : List Nat :=
  [0x00, 0x01, 0x02, 0x04, 0x05, 0x06, 0x08, 0x09, 0x0A, 0x0C, 0x0D, 0x10, 0x11, 0x14, 0x15, 0x1D, 0x1E, 0x80, 0x81,
   0x82, 0x84, 0xC0]
/-- The I/O commands of R126. -/
def ioOps : List Nat := [0x00, 0x01, 0x02, 0x04, 0x05, 0x08, 0x09, 0x0C]

/-- I/O commands that carry an SLBA. -/
def hasSlba (op : Nat) : Bool := [0x01, 0x02, 0x04, 0x05, 0x08, 0x0C].contains op
/-- I/O commands that move host data, which the 2 MiB limit covers (R134). -/
def movesData (op : Nat) : Bool := op == 0x01 || op == 0x02 || op == 0x05
/-- Commands whose data the engine pulls from the host (R139). -/
def pullsData (admin : Bool) (c : NvmeCmd) : Bool :=
  let op := cmdOp c
  if admin then
    -- Set Features has a data buffer for Timestamp, Namespace Management for a creation
    if op = 0x09 then c.dw10.toNat % 256 == 0x0E
    else if op = 0x0D then c.dw10.toNat % 16 == 0
    else [0x11, 0x15, 0x1D, 0x81].contains op
  else op == 0x01 || op == 0x05

/-- Bytes of data in one logical block (R130). -/
def blockBytes (format : Nat) : Nat := if format = 5 then 512 else 4096

/-- The namespace that an NSID names, if it is active: created and attached (R134). -/
def State.activeNs (s : State) (nsid : Nat) : Option Namespace :=
  if nsid = 0 ∨ 256 < nsid then none
  else match tget s.ns (nsid - 1) with
    | some n => if n.attached then some n else none
    | none => none

/-- The fields that NVMe 2.0 defines as reserved for an I/O opcode, as masks of dwords 2, 3 and 10 to 15 (R134; log entry
18). -/
def reservedMasks (op : Nat) : List Nat :=
  let all := 0xFFFFFFFF
  if op = 0x00 then [all, all, all, all, all, all, all, all]
  else if op = 0x01 then [all, all, 0, 0, 0x020F0000, 0x0000FF00, 0, 0]
  else if op = 0x02 then [all, all, 0, 0, 0x02FF0000, 0xFFFFFF00, 0, 0]
  else if op = 0x04 then [all, all, 0, 0, 0xFFFF0000, all, all, all]
  else if op = 0x05 then [all, all, 0, 0, 0x02FF0000, all, 0, 0]
  else if op = 0x08 then [all, all, 0, 0, 0x00FF0000, all, 0, 0]
  else if op = 0x09 then [all, all, 0xFFFFFF00, 0xFFFFFFF8, all, all, all, all]
  else [all, all, 0, 0, 0x02FF0000, all, 0, 0]

/-- A reserved field that the engine checks is non-zero, or `FUSE` or `PSDT` has an unsupported value: `SGLS` (R129) names no
metadata SGL (R134). Dwords 2 and 3 hold the upper 48 tag bits with the 32-bit and 64-bit guards (formats 3 and 4; log
entry 18). -/
def badFields (admin : Bool) (format : Nat) (c : NvmeCmd) : Bool :=
  let op := cmdOp c
  let dw0 := c.dw0.toNat / 2 ^ 10 % 16 != 0 || cmdFuse c != 0 || 2 ≤ cmdPsdt c || (admin && cmdPsdt c != 0)
  if admin then dw0
  else
    let tags := (format == 3 || format == 4) && hasSlba op && op != 0x04
    let masks := (reservedMasks op).mapIdx fun i m => if tags && i = 0 then 0 else if tags && i = 1 then 0xFFFF0000 else m
    let words := [c.dw2, c.dw3, c.dw10, c.dw11, c.dw12, c.dw13, c.dw14, c.dw15]
    dw0 || ((masks.zip words).any fun e => e.1 &&& e.2.toNat != 0)

/-- A completion status: SC, SCT and Do Not Retry (R142, R173). -/
def mkStatus (sct sc : Nat) (dnr : Bool) : Nat := sc + sct * 256 + b2n dnr * 2 ^ 14

/-- Statuses that always carry Do Not Retry, with those of R143 (R173). -/
def dnrOf (sct sc : Nat) : Bool :=
  (sct == 0 && [0x01, 0x02, 0x0B, 0x80, 0x13, 0x0D, 0x0F, 0x11, 0x20].contains sc) ||
    (sct == 2 && [0x82, 0x83, 0x84].contains sc)

/-- A status with the Do Not Retry bit that R173 states. -/
def stat (sct sc : Nat) : Nat := mkStatus sct sc (dnrOf sct sc)

/-- The CID is that of a command in flight on the same SQ (R134). -/
def State.cidBusy (s : State) (sq : Nat) (c : NvmeCmd) : Bool :=
  s.hqe.slots.any fun e => decide (e.2.sq = sq) && decide (cmdCid e.2.cmd = cmdCid c)

/-- The format of the namespace a command names. -/
def State.fmtOf (s : State) (c : NvmeCmd) : Nat := ((s.activeNs c.nsid.toNat).map (·.format)).getD 0

/-- The first failing check of R134, in table order. -/
def State.parse (s : State) (sq : Nat) (c : NvmeCmd) : Option Nat :=
  let admin := sq == 0
  let op := cmdOp c
  if !((if admin then adminOps else ioOps).contains op) then some (stat 0 0x01)
  else if s.cidBusy sq c then some (stat 0 0x03)
  else if badFields admin (s.fmtOf c) c then some (stat 0 0x02)
  else if !admin && !((s.activeNs c.nsid.toNat).any (!·.leaving.isSome)) && !(op == 0x00 && c.nsid == 0xFFFFFFFF#32) then some (stat 0 0x0B)
  else if !admin && movesData op && 0x200000 < cmdBlocks c * blockBytes (s.fmtOf c) then some (stat 0 0x02)
  else if !admin && hasSlba op &&
      ((s.activeNs c.nsid.toNat).map (·.lbas)).getD 0 < cmdSlba c + cmdBlocks c then some (stat 0 0x80)
  else match c.ptr with
    | .none => none
    | .prpOffset => some (stat 0 0x13)
    | .sglType => some (stat 0 0x11)
    | .sglSegment => some (stat 0 0x0D)
    | .sglLength => some (stat 0 0x0F)
    | .hostRead => some (stat 0 0x04)

/-! ### Slots (R137) -/

def State.slot (s : State) (k : Nat) : Option Slot := tget s.hqe.slots k
def State.setSlot (s : State) (k : Nat) (e : Slot) : State :=
  { s with hqe := { s.hqe with slots := tput s.hqe.slots k e } }

/-- `HQE_SLOT` and `HQE_HAZ` from the slots (R147). -/
def State.slotCounts (s : State) : State :=
  let n := s.hqe.slots.length
  let s := s.setFld fHQE_SLOT_INUSE n
  let s := s.setFld fHQE_SLOT_HIGH (max n (s.fld fHQE_SLOT_HIGH))
  let s := s.setFld fHQE_HAZ_ENTRIES (countIf (fun (e : Nat × Slot) => e.2.inHazard) s.hqe.slots)
  s.setFld fHQE_HAZ_HELD (countIf (fun (e : Nat × Slot) => e.2.held && !e.2.admin) s.hqe.slots)

/-- The lowest slot not in use. -/
def State.freeSlotNo (s : State) : Option Nat :=
  leastBelow (fun k => (tget s.hqe.slots k).isNone) (s.fld fHQE_SLOT_LIMIT)

/-- The range of 4 KiB units of a command with an SLBA (R138, R195). -/
def unitRange (format : Nat) (c : NvmeCmd) : Nat × Nat :=
  if format = 5 then (cmdSlba c / 8, (cmdSlba c + cmdBlocks c - 1) / 8)
  else (cmdSlba c, cmdSlba c + cmdBlocks c - 1)

/-- The units of a transfer that the engine pulls: whole units of the range, or 4 KiB pieces of admin data (R139). -/
def adminBytes (c : NvmeCmd) : Nat :=
  let op := cmdOp c
  if op = 0x11 then (c.dw10.toNat + 1) * 4
  else if op = 0x09 ∨ op = 0x0A then (if c.dw10.toNat % 256 = 0x0E then 8 else 0)
  else if op = 0x02 then (c.dw10.toNat / 2 ^ 16 + c.dw11.toNat % 2 ^ 16 * 2 ^ 16 + 1) * 4
  else if op = 0x81 ∨ op = 0x82 then c.dw11.toNat
  else if op = 0x1D then
    (if c.dw10.toNat % 256 = 3 then 0 else Config.miSendBytes c.dw10 c.dw11 c.dw12 % 4097)
  else if op = 0x1E then (if c.dw10.toNat % 256 ≤ 2 then 4096 else 0)
  else if op = 0x06 ∨ op = 0x15 ∨ (op = 0x0D ∧ c.dw10.toNat % 16 % 2 = 0) then 4096
  else 0

/-- A slot for a fetched command, nothing of it done yet. -/
def State.newSlot (s : State) (sq : Nat) (c : NvmeCmd) : Slot :=
  let admin := sq == 0
  let op := cmdOp c
  let fmt := s.fmtOf c
  let r := unitRange fmt c
  let kind : HazKind :=
    if admin then .none
    else if op == 0x02 || op == 0x05 || op == 0x0C then .readLike else .writeLike
  let units := if pullsData admin c then (if admin then (adminBytes c + 4095) / 4096 else r.2 - r.1 + 1) else 0
  { cmd := c, sq := sq, admin := admin, fetchedAt := s.now, order := s.hqe.nextOrder, kind := kind
    nsid := c.nsid.toNat
    firstUnit := if op = 0x00 then 0 else r.1
    lastUnit := if op = 0x00 then 2 ^ 64 else r.2
    allNs := !admin && op == 0x00 && c.nsid == 0xFFFFFFFF#32
    inHazard := false, listPending := !admin && op == 0x09, listBead := none
    held := false, wasHeld := false, cross := none, dispatched := false, ep := 0, mbx := 0, verdict := none
    units := units, requested := 0, groups := 0, pulls := [], pullStopped := none
    transfers := [], readFail := none, completion := none, notice := none, beadError := false, cancelled := false }

/-- The number of 4 KiB units that a slot's command touches (R136, R140). -/
def Slot.unitCount (e : Slot) : Nat :=
  if e.admin then (adminBytes e.cmd + 4095) / 4096
  else if hasSlba (cmdOp e.cmd) then e.lastUnit - e.firstUnit + 1 else 0

/-! ### The hazard table (R138) -/

def Slot.overlaps (a b : Slot) : Bool :=
  (a.allNs || b.allNs || decide (a.nsid = b.nsid)) &&
    decide (a.firstUnit ≤ b.lastUnit) && decide (b.firstUnit ≤ a.lastUnit)

def HazKind.isWrite (k : HazKind) : Bool := k == .writeLike

/-- An earlier entry of the same SQ overlaps, and either is write-like (R138). -/
def State.blocked (s : State) (e : Slot) : Bool :=
  e.kind != .none && s.hqe.slots.any fun f =>
    f.2.inHazard && decide (f.2.sq = e.sq) && decide (f.2.order < e.order) && f.2.overlaps e &&
      (f.2.kind.isWrite || e.kind.isWrite)

/-- The slot of the latest overlapping entry of another SQ (R136, R138). -/
def State.crossOf (s : State) (e : Slot) : Option Nat :=
  (s.hqe.slots.foldl (fun (best : Option (Nat × Nat)) f =>
    if f.2.inHazard && decide (f.2.sq ≠ e.sq) && f.2.overlaps e then
      match best with
      | some (o, k) => if o < f.2.order then some (f.2.order, f.1) else some (o, k)
      | none => some (f.2.order, f.1)
    else best) none).map (·.2)

/-! ### Notices and dispatch (R131, R135, R136) -/

/-- A notice of the engine (R136, R147). -/
def State.hqeNotice (s : State) (code word : Nat) : State :=
  let d := s.fld fHQE_NOTE_DST
  s.hwSend 113 (if d = 0 then s.fld fHQE_DCFG_AEP else d) (s.fld fHQE_NOTE_MBX) 0x102
    (payloadOf [(0, 1, code), (8, 8, word)])

/-- Queue commands, which the engine executes itself (R131). -/
def queueOp (op : Nat) : Bool := op == 0x00 || op == 0x01 || op == 0x04 || op == 0x05

/-- The dispatch table entry of an I/O command (R135). -/
def State.dispIndex (s : State) (e : Slot) : Nat :=
  let u := if hasSlba (cmdOp e.cmd) then e.firstUnit else 0
  (u / 2 ^ s.fld fHQE_DCFG_SHIFT + (e.nsid - 1) * s.fld fHQE_DCFG_NMUL) % 256

/-- Protection information is enabled for the command, so that the engine checked it (R136, R143). -/
def State.piFlag (s : State) (e : Slot) : Bool :=
  !e.admin && (((s.activeNs e.cmd.nsid.toNat).map (·.pi)).getD 0 != 0)

/-- The transfer length of a command in bytes (R136). -/
def State.transferBytes (s : State) (e : Slot) : Nat :=
  if e.admin then adminBytes e.cmd
  else if movesData (cmdOp e.cmd) then cmdBlocks e.cmd * blockBytes (s.fmtOf e.cmd) else 0

/-! ### What firmware checks at dispatch (R172, R461) -/

/-- A run of blocks touches a range whose lock bit is set: a locking range that overlaps, or the namespace's global range
where some block lies in none (R455, R461). -/
def State.touchesLocked (s : State) (write : Bool) (nsx lba count : Nat) : Bool :=
  let overlap (r : Nat × Range) : Nat :=
    if 256 ≤ r.1 && r.2.valid && r.2.nsx == nsx then min (lba + count) (r.2.start + r.2.len) - max lba r.2.start else 0
  let bitOf (r : Nat) : Bool :=
    (s.fld (if write then fSIG_WLOCK_WL (r / 64) else fSIG_RLOCK_RL (r / 64))) / 2 ^ (r % 64) % 2 == 1
  (s.sig.ranges.any fun r => overlap r != 0 && bitOf r.1) ||
    (decide (sumOf overlap s.sig.ranges < count) && bitOf nsx)

/-- The entries of a range list in a bead with a length: length and start (R138). -/
def State.rangeList (s : State) (b n : Nat) : List (Nat × Nat) :=
  ((List.range n).map fun (i : Nat) =>
    let w := s.mem.readDoubles (beadAddr b + 16 * i) 2
    (bits (w.getD 0 0#64) 32 32, (w.getD 1 0#64).toNat)).filter fun (x : Nat × Nat) => x.1 != 0

/-- Dataset Management with the Deallocate attribute (R151). -/
def deallocates (c : NvmeCmd) : Bool := cmdOp c == 0x09 && c.dw11.getLsbD 2

/-- The runs of blocks that a command names: first and count. -/
def State.cmdRuns (s : State) (e : Slot) : List (Nat × Nat) :=
  if hasSlba (cmdOp e.cmd) then [(cmdSlba e.cmd, cmdBlocks e.cmd)]
  else match e.listBead with
    | some b => (s.rangeList b (e.cmd.dw10.toNat % 256 + 1)).map fun (x : Nat × Nat) => (x.2, x.1)
    | none => []

/-- The status of commands during Sanitize, or after one has failed (R169, R475). -/
def State.sanGate (s : State) : Option Nat :=
  if s.sig.sanState = 3 then some (stat 0 0x1C)
  else if s.sig.sanState = 1 ∨ s.fld fARC_MODE_CUR = 6 then some (stat 0 0x1D)
  else none

/-- The command would change data: a write, Write Zeroes, Deallocate or Write Uncorrectable (R172). -/
def changesData (c : NvmeCmd) : Bool := cmdOp c == 0x01 || cmdOp c == 0x04 || cmdOp c == 0x08 || deallocates c

/-- Read-Only turns the command away (R172, R251). -/
def State.writeBarred (s : State) (e : Slot) : Bool := changesData e.cmd && s.fld fARC_MODE_HEALTH == 5

/-- The status with which firmware turns an I/O command away at its dispatch: Read-Only, Sanitize in progress or failed,
Format, a detach, a locked range, in the order of R172 (R169 to R171, R251, R461, R475). -/
def State.verdictOf (s : State) (e : Slot) : Option Nat :=
  let op := cmdOp e.cmd
  let writes := changesData e.cmd
  let moves := op != 0x00 && (op != 0x09 || deallocates e.cmd)
  let n := s.activeNs e.nsid
  if s.writeBarred e then some (stat 0 0x20)
  else if s.sanGate.isSome then s.sanGate
  else if (n.map (·.formatting)).getD false then some (stat 0 0x84)
  else if (n.map (·.leaving.isSome)).getD false then some (stat 0 0x0B)
  else if moves && (s.cmdRuns e).any (fun (x : Nat × Nat) => s.touchesLocked writes (e.nsid - 1) x.1 x.2) then some (stat 2 0x86)
  else none

/-- The payload of a dispatch message (R136). -/
def State.dispatchPayload (s : State) (k : Nat) (e : Slot) : BitVec 512 :=
  let c := e.cmd
  payloadOf [(0, 4, c.dw0.toNat), (4, 4, c.nsid.toNat), (8, 4, c.dw2.toNat), (12, 4, c.dw3.toNat),
    (16, 2, k), (18, 2, e.sq),
    (20, 1, b2n e.cross.isSome + 2 * b2n e.admin + 4 * b2n e.wasHeld + 8 * b2n (s.piFlag e)),
    (22, 2, e.listBead.getD 0xFFFF), (24, 4, s.transferBytes e), (28, 2, e.unitCount), (30, 2, e.cross.getD 0),
    (32, 4, c.dw10.toNat), (36, 4, c.dw11.toNat), (40, 4, c.dw12.toNat), (44, 4, c.dw13.toNat),
    (48, 4, c.dw14.toNat), (52, 4, c.dw15.toNat), (56, 8, e.fetchedAt)]

/-- The mode serves I/O: not Boot, ROM Recovery, Idle-Retain, Deep Sleep or Manufacturing (R43). -/
def State.servesIo (s : State) : Bool :=
  let m := s.fld fARC_MODE_CUR
  m != 0 && m != 1 && m != 8 && m != 9 && m != 0xB

/-- Dispatch of I/O commands is held back: by a drain or an activation, or by the mode (R43, R167, R168). -/
def State.dispatchStopped (s : State) : Bool := s.hqe.drained || !s.servesIo

/-- Dispatch the command of slot `k` (R135): to the admin endpoint, to its table entry, or wait for a valid entry; it waits, held,
while dispatch is stopped, an admin command in a drain or an activation only (R43, R167, R168). Queue commands stay with the
engine. -/
def State.dispatchSlot (s : State) (k : Nat) : State :=
  match s.slot k with
  | none => s
  | some e =>
    if (if e.admin then s.hqe.drained else s.dispatchStopped) then s.setSlot k { e with held := true }
    else if e.admin && queueOp (cmdOp e.cmd) then s.setSlot k { e with held := false, dispatched := true, ep := 113 }
    else if e.admin then
      let ep := s.fld fHQE_DCFG_AEP
      let mbx := s.fld fHQE_DCFG_AMBX
      (s.setSlot k { e with held := false, dispatched := true, ep := ep, mbx := mbx }).hwSend 113 ep mbx 0x100
        (s.dispatchPayload k e)
    else
      let i := s.dispIndex e
      if s.flag (fHQE_DISP_VALID i) then
        let ep := s.fld (fHQE_DISP_EP i)
        let mbx := s.fld (fHQE_DISP_MBX i)
        let p := s.dispatchPayload k e
        let s := match e.listBead with | some b => s.giveBead b ep | none => s
        (s.setSlot k { e with held := false, dispatched := true, ep := ep, mbx := mbx, verdict := s.verdictOf e }).hwSend
          113 ep mbx 0x100 p
      else s.setSlot k { e with held := false }

/-- Enter slot `k` in the hazard table: held behind an entry that blocks it, else dispatched (R138). -/
def State.enterHazard (s : State) (k : Nat) : State :=
  match s.slot k with
  | none => s
  | some e =>
    if e.kind = .none then s.dispatchSlot k
    else
      let hold := s.blocked e
      let e := { e with inHazard := true, cross := s.crossOf e, held := hold, wasHeld := hold }
      let s := s.setSlot k e
      if hold then s.incWrap fHQE_HAZ_HOLDS else s.dispatchSlot k

/-- Slots in the order of fetching. -/
def insertSlot (e : Nat × Slot) : List (Nat × Slot) → List (Nat × Slot)
  | [] => [e]
  | f :: t => if e.2.order ≤ f.2.order then e :: f :: t else f :: insertSlot e t
def sortSlots (l : List (Nat × Slot)) : List (Nat × Slot) := l.foldr insertSlot []

/-- Slots of one SQ that wait to enter the hazard table, in submission order, up to one whose range list is still to
arrive (R138). -/
def State.enterReady (s : State) (sq : Nat) : State :=
  let waits := (s.hqe.slots.filter fun (e : Nat × Slot) => decide (e.2.sq = sq) && !e.2.inHazard && !e.2.dispatched &&
    e.2.completion.isNone && decide (e.2.kind ≠ .none))
  let firstPending := (waits.filter (·.2.listPending)).foldl (fun m e => min m e.2.order) (2 ^ 80)
  let ready := sortSlots (waits.filter fun (e : Nat × Slot) => decide (e.2.order < firstPending))
  ready.foldl (fun t e => t.enterHazard e.1) s

/-- Held commands whose blocking entries have left are dispatched in submission order (R138). -/
def State.wakeHeld (s : State) : State :=
  if s.dispatchStopped then s
  else
    let held := sortSlots (s.hqe.slots.filter fun (e : Nat × Slot) => e.2.held && !e.2.cancelled)
    held.foldl (fun t e =>
      match t.slot e.1 with
      | some f => if t.blocked f then t else t.dispatchSlot e.1
      | none => t) s

/-- Commands in their slots that wait for a valid table entry are dispatched when it is valid (R135). -/
def State.wakeDisp (s : State) : State :=
  let l := sortSlots (s.hqe.slots.filter fun (e : Nat × Slot) =>
    (e.2.inHazard || (decide (e.2.kind = .none) && !e.2.admin && e.2.completion.isNone)) && !e.2.held && !e.2.dispatched)
  (l.foldl (fun t e => t.dispatchSlot e.1) s).slotCounts

/-- Bits of the AER status registers (R123; log entry 150). -/
def aerPoisoned : Nat := 12
def aerTimeout : Nat := 14
def aerUnsupported : Nat := 20
def aerBadTlp : Nat := 6
def aerAdvisory : Nat := 13

/-- Log an uncorrectable error, advisory non-fatal, or a correctable one (R123, R145). -/
def State.aerLog (s : State) (uncor cor : Option Nat) : State :=
  let l := s.hqe.link
  { s with hqe := { s.hqe with link := { l with
    uncor := match uncor with | some b => l.uncor ||| (1#32 <<< b) | none => l.uncor
    cor := match cor with | some b => l.cor ||| (1#32 <<< b) | none => l.cor } } }

/-! ### Ending a slot (R137, R142, R165, R190) -/

/-- Free the beads of a slot that the engine still holds (R141, R190). -/
def State.freeEngineBeads (s : State) (e : Slot) : State :=
  let l := (e.pulls.flatMap (·.beads)) ++ e.transfers.map (·.bead) ++ e.listBead.toList
  l.foldl (fun t b => if t.granted b 113 then t.releaseBead b else t) s

/-- A slot ends: its beads and its hazard entry go, and held commands behind it are dispatched (R137, R138). -/
def State.endSlot (s : State) (k : Nat) : State :=
  match s.slot k with
  | none => s
  | some e =>
    let s := { s with
      hqe := { s.hqe with slots := tdel s.hqe.slots k, aers := s.hqe.aers.filter (· ≠ k) }
      pool := { s.pool with waiting := s.pool.waiting.filter fun g => decide (g.slot ≠ k) } }
    let s := s.freeEngineBeads e
    ((s.enterReady e.sq).wakeHeld).slotCounts

/-- Hold a completion for a slot: the engine's own or the one that a core sent (R134, R142). -/
def State.complete (s : State) (k status dw0 dw1 : Nat) : State :=
  match s.slot k with
  | none => s
  | some e => s.setSlot k { e with completion := some ⟨status, dw0, dw1, false⟩ }

/-! ### Posting (R142) -/

/-- The CQ has no free entry. -/
def ComQueue.full (q : ComQueue) : Bool := decide ((q.tail + 1) % q.entries = q.head)

/-- The MSI-X write of a vector: held as a pending bit while the vector, its function or MSI-X is masked (R121, R125). -/
def State.msixSend (s : State) (v : Nat) : State :=
  let l := s.hqe.link
  if l.msixOn && !l.msixMask && (tgetD l.msix (4 * v + 3) 1#32).getLsbD 0 == false then
    { s with hqe := { s.hqe with hostOut := s.hqe.hostOut ++ [HostEvent.msix v] } }
  else { s with hqe := { s.hqe with link := { l with pending := sAdd l.pending v } } }

/-- The link carries traffic: clasps 0 and 1 are CLOSED and the function is in D0 (R114, R121). -/
def State.hostLink (s : State) : Bool :=
  s.fld (fCLP_STAT_STATE 0) == 2 && s.fld (fCLP_STAT_STATE 1) == 2 && s.hqe.link.power == 0

/-- Interrupts of a vector are coalesced: the Interrupt Coalescing feature has a threshold and a time, and Interrupt
Vector Configuration does not disable it for the vector (R127, R142). Vector 0 serves the admin queue and is never
coalesced. -/
def State.coalesces (s : State) (v : Nat) : Bool :=
  let f := tgetD s.hqe.features 0x08 0
  v != 0 && f % 256 != 0 && f / 256 % 256 != 0 && tgetD s.hqe.features (0x10000 + v) 0 == 0

/-- The MSI-X write after a completion entry (R142). -/
def State.interrupt (s : State) (q : ComQueue) : State :=
  if !q.ien then s
  else if s.coalesces q.iv then
    let n := tgetD s.hqe.coalesced q.iv 0 + 1
    if tgetD s.hqe.features 0x08 0 % 256 < n then
      State.msixSend { s with hqe := { s.hqe with coalesced := tdel s.hqe.coalesced q.iv } } q.iv
    else { s with hqe := { s.hqe with coalesced := tput s.hqe.coalesced q.iv n } }
  else s.msixSend q.iv

/-- Lifetime counts of the health log by number (R558): 0 data units read, 1 data units written, 2 host read commands, 3
host write commands, 4 media errors, 5 read and 6 written blocks of 512 bytes, 7 unsafe shutdowns. -/
def State.addLife (s : State) (i n : Nat) : State :=
  { s with evr := { s.evr with lifetime := tput s.evr.lifetime i (tgetD s.evr.lifetime i 0 + n) } }

def State.countLife (s : State) (e : Slot) (status : Nat) : State :=
  if e.admin then s
  else
    let op := cmdOp e.cmd
    let ok := status % 2048 == 0
    let sectors := cmdBlocks e.cmd * (blockBytes (s.fmtOf e.cmd) / 512)
    let s := if op = 0x02 ∨ op = 0x05 ∨ op = 0x0C then s.addLife 2 1 else s
    let s := if op = 0x01 ∨ op = 0x04 ∨ op = 0x08 then s.addLife 3 1 else s
    let s := if ok && op == 0x02 then s.addLife 5 sectors else s
    let listed := s.fw.lostUnits.any fun l => l.ns + 1 == e.nsid && e.firstUnit ≤ l.unit && l.unit ≤ e.lastUnit
    let s := if status % 2048 = 0x281 ∧ listed = true then s.addLife 4 1 else s
    if ok && op == 0x01 then s.addLife 6 sectors else s

/-- Post the completion of slot `k`, when every transfer is issued and its CQ has room (R142); the notice of a queue command
goes with it (R144). The entry waits while the link carries no traffic (R114); after a fatal fault nothing is posted
(R430). -/
def State.post (s : State) (k : Nat) : State :=
  match s.slot k with
  | none => s
  | some e =>
    match e.completion, (tget s.hqe.sqs e.sq) with
    | some h, some sq =>
      match tget s.hqe.cqs sq.cq with
      | none => s
      | some cq =>
        if !e.transfers.isEmpty ∨ cq.full = true ∨ s.flag fFLT_STAT_FATAL = true ∨ s.hostLink = false then s
        else
          let status := if h.status % 2048 = 0 then (e.readFail.map (·.2)).getD h.status else h.status
          let entry := HostEvent.cqe sq.cq e.sq (cmdCid e.cmd) status h.dw0 h.dw1 sq.head cq.phase
          let wrap := cq.tail + 1 == cq.entries
          let cq' := { cq with tail := if wrap then 0 else cq.tail + 1, phase := if wrap then !cq.phase else cq.phase }
          let s := { s with hqe := { s.hqe with
            cqs := tput s.hqe.cqs sq.cq cq'
            completed := s.hqe.completed + 1
            hostOut := s.hqe.hostOut ++ [entry] } }
          let s := s.countLife e status
          let s := s.interrupt cq'
          let s := match e.notice with | some (code, qid) => s.hqeNotice code qid | none => s
          s.endSlot k
    | _, _ => s

/-- A message of a core that the engine refuses: counted, with an Error record of kind 0x000A (R140 to R142, R549). -/
def State.stray (s : State) (event src slot unit bead : Nat) : State :=
  let s := s.incSat fHQE_PERR_STRAY
  s.log 4 113 0x000A (bodyOf [(0, 1, event), (1, 1, src), (2, 2, slot), (4, 2, unit), (6, 2, bead),
    (8, 8, (s.reg rHQE_PERR).toNat)])

/-! ### Write data (R139, R181) -/

/-- Request bead groups for slot `k` while fewer than `SEGS` are outstanding (R139, R181). -/
def State.requestGroups (s : State) (k : Nat) : Nat → State
  | 0 => s
  | fuel + 1 =>
    match s.slot k with
    | none => s
    | some e =>
      if e.pullStopped.isSome || decide (e.units ≤ e.requested) || decide (s.fld fHQE_GRANT_SEGS ≤ e.groups) then s
      else
        let cls := if e.admin then s.fld fHQE_GRANT_ACLASS else s.fld fHQE_GRANT_CLASS
        let n := min (s.fld fHQE_GRANT_UNITS) (e.units - e.requested)
        let s := s.setSlot k { e with requested := e.requested + n, groups := e.groups + 1 }
        (s.requestGroup ⟨k, e.requested, n, cls⟩).requestGroups k fuel

/-! ### Controller reset (R165) -/

/-- Portions that have not started are dropped, and those partly programmed whole, of the commands with certain order numbers; a
range whose record is being flushed, and its partial units, go on (R164, R165; log entry 161). -/
def State.dropWaiting (s : State) (p : Nat → Bool) : State :=
  let flushed (o : Nat) : Bool := s.fw.ranges.any fun r => r.order == o && r.seq.isSome
  let stays (w : Waiting) : Bool := !p w.order || (w.ranged && flushed w.order)
  let gone := (s.fw.staging ++ s.fw.direct.flatten ++ s.fw.placed.map (·.1)).filter fun w => !stays w
  let s := gone.foldl (fun (t : State) w => t.releaseBead w.bead) s
  { s with fw := { s.fw with
    staging := s.fw.staging.filter stays, direct := s.fw.direct.filter fun l => l.all stays
    placed := s.fw.placed.filter fun x => stays x.1, ranges := s.fw.ranges.filter fun r => !p r.order || r.seq.isSome } }

/-- Every slot ends with a discard, portions not started are dropped, I/O queues and held events go, `CSTS.RDY` becomes 0; the
map, namespaces and saved features stay (R165). -/
def State.controllerReset (s : State) : State :=
  let s : State := { s with pool := { s.pool with waiting := [] } }
  let s := s.dropWaiting fun _ => true
  let s := s.hqe.slots.foldl (fun t e =>
    match t.slot e.1 with
    | some f => t.freeEngineBeads f
    | none => t) s
  let s := { s with
    hqe := { s.hqe with
      slots := [], sqs := [], cqs := [], fetching := [], aers := [], events := [], coalesced := []
      features := s.hqe.saved, cc := 0, ams := 0, shn := 0, shutdown := false, pp := false } }
  let s := s.setFld fHQE_CTL_RDY 0
  let s := s.setFld fHQE_CTL_SHST 0
  s.slotCounts

/-- Completions that wait for room, a transfer or the link are posted in the order of fetching (R142). -/
def State.postWaiting (s : State) : State :=
  (sortSlots (s.hqe.slots.filter fun (e : Nat × Slot) => e.2.completion.isSome)).foldl
    (fun (t : State) e => t.post e.1) s

/-- Transfers that a break of clasp 0 or 1 cut off are issued again after the re-close, and what waited goes on (R145). -/
def State.hostReissue (s : State) : State :=
  if !s.hostLink then s
  else
    let again := s.hqe.fetching.map (fun f => HostEvent.fetch f.1 f.2.1 f.2.2 1) ++
      s.hqe.slots.flatMap fun e => e.2.pulls.flatMap fun g => g.beads.mapIdx fun i b => HostEvent.pull e.1 (g.first + i) b
    State.postWaiting { s with hqe := { s.hqe with hostOut := s.hqe.hostOut ++ again } }

/-- Report an asynchronous event, or keep it until a request is outstanding (R126). -/
def State.asyncEvent (s : State) (type info page : Nat) : State :=
  match s.hqe.aers with
  | k :: t =>
    let s := { s with hqe := { s.hqe with aers := t, hostOut := s.hqe.hostOut ++ [HostEvent.asyncEvent type info page] } }
    (s.complete k 0 (type + info * 256 + page * 65536) 0).post k
  | [] => { s with hqe := { s.hqe with events := s.hqe.events ++ [(type, info, page)] } }

end Sys2Proof.Machine
end

