-- ==== Sys2Proof/Machine/ClaspOps.lean ====
section
/-! DEFINITION. Clasps: breaks, opening, the close handshake and event lanes (R104 to R120, R437). -/

namespace Sys2Proof.Machine

open Sys2Proof

/-- `CLP_STAT.STATE` (R114). -/
def clOpen : Nat := 0
def clClosing : Nat := 1
def clClosed : Nat := 2
def clBroken : Nat := 3

def State.claspState (s : State) (c : Nat) : Nat := s.fld (fCLP_STAT_STATE c)

/-- The clasp belongs to a fused-off flash island, whose registers read as zero (R104). -/
def State.claspFused (s : State) (c : Nat) : Bool := 8 ≤ c && !s.part.seqOn ((c - 8) / 2)

/-- The bit of the clasp in `CLP_BRK0` or `CLP_BRK1` (R120). -/
def State.setBroken (s : State) (c : Nat) (b : Bool) : State :=
  if c < 64 then s.setReg rCLP_BRK0 (setBits (s.reg rCLP_BRK0) c 1 (b2n b))
  else s.setReg rCLP_BRK1 (setBits (s.reg rCLP_BRK1) (c - 64) 1 (b2n b))

/-- Enter a state; lanes are held-stable while the clasp is not CLOSED, and while `HOLD` = 1 (R112). -/
def State.setClasp (s : State) (c st : Nat) : State :=
  let s := s.setFld (fCLP_STAT_STATE c) st
  let s := s.setFld (fCLP_STAT_HELD c) (if st = clClosed then s.fld (fCLP_CTL_HOLD c) else 1)
  s.setBroken c (decide (st = clBroken))

/-- The break notice, at most one until `CLP_STAT` is read (R120). -/
def State.claspNotice (s : State) (c : Nat) : State :=
  if s.flag fCLP_NOTE_EN && !sHas s.clasps.noticed c then
    let s := { s with clasps := { s.clasps with noticed := sAdd s.clasps.noticed c } }
    s.hwSend epDevice (s.fld fCLP_NOTE_DST) (s.fld fCLP_NOTE_MBX) 0x010
      (payloadOf [(0, 8, c), (8, 8, (s.reg (rCLP_STAT c)).toNat)])
  else s

/-- The clasp goes to BROKEN with a cause: counts, record and notice (R115, R116; log entry 23). -/
def State.breakWith (s : State) (c cause lost sev : Nat) : State :=
  let s := s.setClasp c clBroken
  let s := s.setFld (fCLP_STAT_CAUSE c) cause
  let s := s.incSat (fCLP_CNT_BREAKS c)
  let s := s.incSat (fCLP_CNT_LOST c) lost
  let s := s.log sev epDevice 0x0002 (bodyOf [(0, 1, c), (8, 8, (s.reg (rCLP_STAT c)).toNat)])
  s.claspNotice c

/-! ### Sequencers behind a clasp (R20, R104, R307, R309) -/

def State.sq (s : State) (q : Nat) : Seq := tgetD s.seqs q Seq.reset
def State.setSq (s : State) (q : Nat) (e : Seq) : State := { s with seqs := tput s.seqs q e }

/-- The data clasp of a sequencer's island; the control clasp is the next one (R104). -/
def psqClasp (q : Nat) : Nat := 8 + 2 * q

/-- The sequencer whose island a clasp belongs to. -/
def claspSeq (c : Nat) : Option Nat := if 8 ≤ c then some ((c - 8) / 2) else none

/-- The sequencer whose event and counter lanes a clasp carries (R307). -/
def controlSeq (c : Nat) : Option Nat := if controlClasp c then claspSeq c else none

/-- The control clasp of a sequencer passes messages, or the channel is lost and the core side answers alone (R114, R306). -/
def State.psqReach (s : State) (q : Nat) : Bool := s.claspState (psqClasp q + 1) == clClosed || (s.sq q).lost

/-- The last agreed values of the lanes of a clasp that leaves CLOSED are held: `PC`, `STEPS` and the counts of a sequencer
(R309), `tnow` where clasp 7 breaks (R115). -/
def State.claspHold (s : State) (c : Nat) (broken : Bool) : State :=
  match controlSeq c with
  | some q =>
    if (tget s.clasps.held q).isSome then s
    else { s with clasps := { s.clasps with held := tput s.clasps.held q (s.reg (rPSQ_STAT q), s.reg (rPSQ_CNT q)) } }
  | none =>
    if c = 7 ∧ broken = true ∧ s.clasps.heldNow = none then { s with clasps := { s.clasps with heldNow := some s.now } } else s

/-- What a load shows of the lanes of sequencer `q` while its control clasp is not CLOSED (R309). -/
def State.heldLanes (s : State) (q : Nat) : Option (Word × Word) :=
  if s.claspState (psqClasp q + 1) = clClosed then none else some (tgetD s.clasps.held q (0#64, 0#64))

/-- The island of sequencer `q` is reset: its execution state is gone, its counts start afresh, so that the core side goes on
from the last agreed values, and the shadow table is to be re-run (R116 step 5, R283, R305; log entry 146). -/
def State.islandLoses (s : State) (q : Nat) : State :=
  let e := s.sq q
  let s := s.setSq q { e with
    stack := [], counters := [], timers := [], status := 0, ceOn := none, slotAt := none, senseAt := 0, cycle := none, offsets := [], ended := [], rerun := true }
  match tget s.clasps.held q with
  | some w => ((s.setReg (rPSQ_CNT q) w.2).setFld (fPSQ_STAT_STEPS q) (bits w.1 32 32)).setFld (fPSQ_STAT_PC q) 0
  | none => s.setFld (fPSQ_STAT_PC q) 0

/-- The DDR5 channel of a clasp (R104). -/
def ddrOf (c : Nat) : Option Nat := if c = 2 ∨ c = 3 then some 0 else if c = 4 ∨ c = 5 then some 1 else none

/-- The other clasp of a DDR5 island. -/
def ddrMate (c : Nat) : Nat := if c % 2 = 0 then c + 1 else c - 1

def breakCode : BreakCause → Nat
  | .islandReset => 1 | .coreReset => 2 | .islandStalled => 3 | .coreStalled => 4 | .disagreement => 7

def breakIsReset : BreakCause → Bool
  | .islandReset | .coreReset => true
  | _ => false

/-- Forget the event lanes of a clasp: its request and acknowledge lines are equal again (R115, R116 step 4). -/
def State.dropEvents (s : State) (c : Nat) : State :=
  { s with clasps := { s.clasps with acking := s.clasps.acking.filter fun e => e.1 / 32 != c } }

/-- One side of a clasp is reset or stalls (R115). A CLOSED or CLOSING clasp breaks: pending events are dropped, merged bits
kept, the lanes hold their last values. In OPEN or BROKEN the reset is only held, so that no handshake starts before it ends
(R115, R116, R118). A break of a DDR5 island is reported as a masked fault once for its two clasps (R437, R438). -/
def State.claspBreak (s : State) (c : Nat) (cause : BreakCause) (lost : Nat) (injected : Bool := false) : State :=
  let st := s.claspState c
  if s.claspFused c then s
  else
    let s := { s with clasps := { s.clasps with
      inReset := if breakIsReset cause then sAdd s.clasps.inReset c else s.clasps.inReset } }
    let t :=
      if st != clClosed && st != clClosing then s
      else
        let s := (if st = clClosed then s.claspHold c true else s).dropEvents c
        let s := if cause = .disagreement then s.incSat (fCLP_CNT_RETAKE c) 2 else s
        let s := s.breakWith c (breakCode cause) lost 3
        match ddrOf c with
        | none => s
        | some ch => if s.claspState (ddrMate c) = clBroken then s else s.faultNow 0x09 ch injected true
    match cause, claspSeq c with
    | .islandReset, some q => t.islandLoses q
    | _, _ => t

/-- Firmware opens a CLOSED clasp on purpose: cause 0x5, an Info record, no notice (R114, R118). -/
def State.claspOpen (s : State) (c : Nat) : State :=
  if s.claspFused c || s.claspState c != clClosed then s
  else
    let s := (((s.claspHold c false).dropEvents c).setClasp c clOpen).setFld (fCLP_STAT_CAUSE c) 5
    s.log 1 epDevice 0x0002 (bodyOf [(0, 1, c), (8, 8, (s.reg (rCLP_STAT c)).toNat)])

/-- The close handshake starts from OPEN or BROKEN once the reset side has left reset (R116). -/
def State.claspClose (s : State) (c : Nat) : State :=
  let st := s.claspState c
  if s.claspFused c || sHas s.clasps.inReset c || (st != clOpen && st != clBroken) then s
  else s.setClasp c clClosing

/-- The reset side leaves reset; with `AUTO` = 1 the handshake starts (R116). -/
def State.islandLeaves (s : State) (c : Nat) : State :=
  let s := { s with clasps := { s.clasps with inReset := sDel s.clasps.inReset c } }
  if s.flag (fCLP_CTL_AUTO c) then s.claspClose c else s

/-- The close words have been compared (R116): CLOSED with a new epoch, no event line in its acknowledge phase and the counter
lanes resumed, or BROKEN with cause 0x6. -/
def State.closeDone (s : State) (c : Nat) (agree : Bool) : State :=
  if s.claspState c != clClosing then s
  else if agree then
    let s := ((s.dropEvents c).setClasp c clClosed).incWrap (fCLP_STAT_EPOCH c)
    { s with clasps := { s.clasps with
      held := match controlSeq c with | some q => tdel s.clasps.held q | none => s.clasps.held
      heldNow := if c = 7 then none else s.clasps.heldNow } }
  else s.breakWith c 6 0 4

/-- The reset side has left reset within the step that brings it back (R283, R304, R437): with `AUTO` = 1 the handshake runs,
with words that agree (R116; log entry 145). -/
def State.claspRecloses (s : State) (c : Nat) : State := (s.islandLeaves c).closeDone c true

/-! ### Event and counter lanes (R107, R108, R111, R113, R307) -/

/-- The largest acknowledge phase of an event lane, ns: 5T + 40 ns, T the island's clock period (R113). -/
def State.ackBound (s : State) (c : Nat) : Nat :=
  match claspSeq c with
  | some q => let r := s.fld (fPSQ_RATE_MTS q); 40 + (if r < 80 then 50 else 40000 / r)
  | none => if c ≤ 1 then 45 else if c ≤ 5 then 46 else if c = 6 then 65 else 240

/-- The counter lane beside an event lane counts every occurrence in the island, wrapping at its width (R108, R111, R307). -/
def State.laneCount (s : State) (c lane : Nat) : State :=
  match controlSeq c with
  | some q => if lane = 0 then s.incWrap (fPSQ_CNT_DONE q) else if lane = 1 then s.incWrap (fPSQ_CNT_READY q) else s
  | none => s

/-- A pulse on an event line (R107, R108): the counter lane beside it counts it; a CLOSED clasp carries a new event, or
merges the pulse while the line is in its acknowledge phase, whose length within the bound of R113 is a free value. Only a
control clasp has event lanes (R105), and one that is not CLOSED carries no event (R115). -/
def State.eventPulse (s : State) (c lane : Nat) (ackEnded : Bool) : State :=
  if s.claspFused c || !controlClasp c then s
  else
    let s := s.laneCount c lane
    let key := c * 32 + lane
    if s.claspState c != clClosed then s
    else if (tget s.clasps.acking key).isSome && !ackEnded then
      s.setReg (rCLP_EVM c) (setBits (s.reg (rCLP_EVM c)) lane 1 1)
    else
      let upTo := s.now + (freshWord s).toNat % (s.ackBound c + 1)
      { s.tick with clasps := { s.clasps with acking := tput s.clasps.acking key upTo } }

/-- A pulse that the island of sequencer `q` sends now, on event lane `lane` of its control clasp (R307). -/
def State.psqEvent (s : State) (q lane : Nat) : State :=
  let c := psqClasp q + 1
  s.eventPulse c lane (tgetD s.clasps.acking (c * 32 + lane) 0 ≤ s.now)

/-- A core reads a value or counter lane of a CLOSED clasp: whether the island publishes meanwhile, so that the first pair of
samples disagrees and is retaken, is a free value (R109, R118). Held-stable lanes are sampled once (R112). -/
def State.laneRead (s : State) (c : Nat) : State :=
  if s.claspState c = clClosed ∧ s.flag (fCLP_STAT_HELD c) = false then
    s.tick.incSat (fCLP_CNT_RETAKE c) ((freshWord s).toNat % 2)
  else s

/-- `tnow` as a core reads it (R64, R113, R115). -/
def State.tnowRead (s : State) : Nat := s.clasps.heldNow.getD s.now

end Sys2Proof.Machine
end

