-- ==== Sys2Proof/Machine/FaultOps.lean ====
section
/-! DEFINITION. Fault injection: matching, counting and firing of the eight injectors, and delivery of a message through the
Chain with what an injector does to it (R22, R23, R439 to R443, R590). -/

namespace Sys2Proof.Machine

open Sys2Proof

/-! ### Injectors (R440) -/

def State.injArmed (s : State) (i : Nat) : Bool := s.flag (fFLT_INJA_ARM i)

/-- An event of kind `kind` meets the match fields of injector `i` (R440, R441): Chain fields, or target channel, LUN and
request operation. -/
def State.injMatchChain (s : State) (i kind src dst mbx : Nat) : Bool :=
  s.injArmed i && s.fld (fFLT_INJA_KIND i) == kind &&
    (s.flag (fFLT_INJB_ASRC i) || s.fld (fFLT_INJB_MSRC i) == src) &&
    (s.flag (fFLT_INJB_ADST i) || s.fld (fFLT_INJB_MDST i) == dst) &&
    (s.flag (fFLT_INJB_AMBX i) || s.fld (fFLT_INJB_MMBX i) == mbx)

def State.injMatchFlash (s : State) (i kind chan lun op : Nat) : Bool :=
  s.injArmed i && s.fld (fFLT_INJA_KIND i) == kind && s.fld (fFLT_INJA_TGT i) == chan &&
    (s.flag (fFLT_INJB_ALUN i) || s.fld (fFLT_INJB_MLUN i) == lun) &&
    (s.flag (fFLT_INJB_AOP i) || s.fld (fFLT_INJB_MOP i) == op)

/-- The injector is past the events that it passes unchanged (R440). -/
def State.injDue (s : State) (i : Nat) : Bool := s.fld (fFLT_INJC_SKIP i) ≤ s.fld (fFLT_INJD_SEEN i)

/-- Injector `i` sees a matching event (R440). -/
def State.injSee (s : State) (i : Nat) : State := s.incWrap (fFLT_INJD_SEEN i)

/-- Injector `i` fires; at `COUNT` firings it sets `DONE` and clears `ARM` (R440). -/
def State.injFire (s : State) (i : Nat) : State :=
  let s := s.setFld (fFLT_INJD_FIRED i) (s.fld (fFLT_INJD_FIRED i) + 1)
  let n := s.fld (fFLT_INJC_COUNT i)
  if n != 0 && n ≤ s.fld (fFLT_INJD_FIRED i) then (s.setFld (fFLT_INJA_DONE i) 1).setFld (fFLT_INJA_ARM i) 0 else s

/-- One event that the injectors of `l` match: each counts it, and the lowest-numbered one that is due fires (R440,
R443; log entry 37). -/
def State.injEvent (s : State) (l : List Nat) : State × Option Nat :=
  let due := l.find? s.injDue
  let t := l.foldl State.injSee s
  match due with
  | some i => (t.injFire i, some i)
  | none => (t, none)

/-- Arming resets the injector's results and starts its event count (R440, R445). -/
def State.injArm (s : State) (i : Nat) : State :=
  let s := (s.setFld (fFLT_INJA_DONE i) 0).setReg (rFLT_INJD i) 0#64
  let s := s.setFld (fFLT_INJA_ARM i) 1
  { s with flt := { s.flt with armedAt := tput s.flt.armedAt i s.now } }

/-- The kinds without a stream of events (R440, R441). -/
def injTicked (kind : Nat) : Bool := kind == 0x20 || kind == 0x21 || kind == 0x30

/-- What a firing of a kind without a message or flash event does (R441). -/
def State.injEffect (s : State) (i : Nat) : State :=
  let kind := s.fld (fFLT_INJA_KIND i)
  let tgt := s.fld (fFLT_INJA_TGT i)
  let par := s.fld (fFLT_INJC_PARAM i)
  if kind = 0x20 then s.setCore tgt { s.core tgt with stallBy := some i }
  else if kind = 0x21 then (if (s.core tgt).status.live then s.coreFail tgt 0x02 true else s)
  else if kind = 0x30 then
    s.blaming true fun s => s.claspBreak tgt (if par = 1 then .islandReset else if par = 2 then .coreReset
      else if par = 3 then .islandStalled else .coreStalled) 0 true
  else
    -- the errors of R123: what the partner meets, and what the function's own end logs and does
    let s := { s with hqe := { s.hqe with hostOut := s.hqe.hostOut ++ [HostEvent.linkError kind] } }
    let l := s.hqe.link
    if kind = 0x44 then s.aerLog none (some aerBadTlp)
    else if kind = 0x45 then { s with hqe := { s.hqe with link := { l with dropNext := l.dropNext + 1 } } }
    else if kind = 0x46 then { s with hqe := { s.hqe with link := { l with refuseNext := l.refuseNext + 1 } } }
    else s

/-- One event of a ticked or link injector: instant of arming, later microsecond, flit (R440; log entry 38). -/
def State.injTick (s : State) (i : Nat) : State :=
  let kind := s.fld (fFLT_INJA_KIND i)
  if s.injArmed i && (injTicked kind || (0x41 ≤ kind && kind ≤ 0x46)) then
    match s.injEvent [i] with
    | (t, some _) => t.injEffect i
    | (t, none) => t
  else s

/-- The sequencer that serves a channel: not fenced, with the channel in `CHAN` (R310). -/
def State.seqOf (s : State) (chan : Nat) : Option Nat :=
  (List.range 34).find? fun q => s.part.seqOn q && s.fld (fPSQ_CTL_CHAN q) == chan && s.fld (fPSQ_STAT_STATE q) != 6

/-- The target is a channel that a sequencer serves (R446). -/
def State.chanTarget (s : State) (c : Nat) : Bool := c < s.part.channels && (s.seqOf c).isSome

/-- The target and parameter are in the range of the kind (R441, R446). -/
def State.injValid (s : State) (kind tgt par : Nat) : Bool :=
  if kind = 0x01 ∨ kind = 0x02 then tgt == 0 && par == 0
  else if kind = 0x03 ∨ kind = 0x04 then tgt == 0 && 1 ≤ par && par ≤ 512
  else if kind = 0x05 then tgt == 0 && 1 ≤ par && par ≤ 15
  else if kind = 0x06 then tgt == 0 && 1 ≤ par
  else if kind = 0x10 then s.chanTarget tgt && 1 ≤ par % 4096 && par < 0x4000
  else if kind = 0x11 then s.chanTarget tgt && par % 4096 < 4 && par < 0x4000
  else if kind = 0x12 then s.chanTarget tgt && (par ≤ 15 || 65521 ≤ par)
  else if kind = 0x13 then s.chanTarget tgt && 30 ≤ par
  else if kind = 0x14 ∨ kind = 0x15 then s.chanTarget tgt && par == 0
  else if kind = 0x20 ∨ kind = 0x21 then
    s.part.coreOn tgt && par == 0 && decide ((s.core tgt).status ≠ .fenced)
  else if kind = 0x30 then tgt < 76 && !s.claspFused tgt && 1 ≤ par && par ≤ 4
  else if 0x41 ≤ kind ∧ kind ≤ 0x46 then tgt == 0 && par == 0
  else false

/-! ### Delivery (R22, R23, R441, R590) -/

def Msg.ofPair (m : Msg) (src dst : Nat) : Bool := decide (m.src = src) && decide (m.dst = dst)

/-- Renumber the messages of a pair that are still in the Chain, from `q` on (R441, kinds 0x01 and 0x05). -/
def renumber (src dst : Nat) : List Msg → Nat → List Msg
  | [], _ => []
  | m :: t, q =>
    if m.ofPair src dst then { m with seq := q % 65536 } :: renumber src dst t (q + 1) else m :: renumber src dst t q

/-- A message reaches its destination: a core's mailbox, with what its receiver will find, or a hardware endpoint, which
discards a bad one (R23, R84, R590). -/
def State.arrive (s : State) (m : Msg) : State :=
  let key := m.src * 128 + m.dst
  let ok := decide (tgetD s.rxSeq key 0 = m.seq)
  let s := { s with rxSeq := tput s.rxSeq key ((m.seq + 1) % 65536) }
  let ep := s.mailEp m.dst
  let m := { m with seqOk := ok }
  if m.dst < 54 then s.setBox ep m.mbx (s.box ep m.mbx ++ [m])
  else if m.chkOk && ok then s.setBox ep m.mbx (s.box ep m.mbx ++ [m])
  else
    -- a gap or a corruption that an injector made is flagged as such (R442)
    let gap := !ok && s.flt.gaps.contains key
    let s := if gap then { s with flt := { s.flt with gaps := s.flt.gaps.filter (· != key) } } else s
    s.blaming (m.inj || gap) fun s => s.logAll [chainFaultDraft m.dst (if m.chkOk then 2 else 1) m.src m.mbx m.sub m.header]

/-- Count a delivery for the messages of its pair that kind 0x05 holds; deliver those whose turn has come, renumbered in
delivery order (R441). -/
def State.reorderTurn (s : State) (src dst : Nat) : State :=
  let l := s.flt.reordered.map fun e => if e.1.ofPair src dst then (e.1, e.2 - 1) else e
  let due := l.filter fun e => e.1.ofPair src dst && decide (e.2 = 0)
  let s := { s with flt := { s.flt with reordered := l.filter fun e => !(e.1.ofPair src dst && decide (e.2 = 0)) } }
  due.foldl (fun t e =>
    let q := tgetD t.rxSeq (src * 128 + dst) 0
    let t := t.arrive { e.1 with seq := q }
    { t with net := renumber src dst t.net ((q + 1) % 65536) }) s

/-- Every held message is delivered at once, renumbered (R443). -/
def State.releaseReordered (s : State) : State :=
  let l := s.flt.reordered
  l.foldl (fun t e =>
    let q := tgetD t.rxSeq (e.1.src * 128 + e.1.dst) 0
    let t := t.arrive { e.1 with seq := q }
    { t with net := renumber e.1.src e.1.dst t.net ((q + 1) % 65536) })
    { s with flt := { s.flt with reordered := [] } }

/-- The next message of a pair, with the Chain without it. -/
def State.takeNet (s : State) (src dst : Nat) : Option (Msg × List Msg) := takeFirst (·.ofPair src dst) s.net

/-- The Chain delivers the oldest message of a pair (R22), unless its mailbox is full (R23), the control clasp of the sequencer
that it goes to is not CLOSED (R114, R115), or an injector holds or changes it (R441). -/
def State.deliver (s : State) (src dst : Nat) : State :=
  match s.takeNet src dst with
  | none => s
  | some (m, rest) =>
    let held := s.flt.delayed.any fun e => decide (e.1 = m) && decide (s.now < e.2)
    let away := 64 ≤ dst && dst < 98 && !s.psqReach (dst - 64)
    if held || away || s.boxFull (s.mailEp dst) m.mbx then s
    else
      let wasDelayed := s.flt.delayed.any fun e => decide (e.1 = m)
      let l := if wasDelayed then [] else
        (List.range 8).filter fun i => (List.range 7).any fun k => 1 ≤ k && s.injMatchChain i k src dst m.mbx
      let r := s.injEvent l
      let s := r.1
      match r.2 with
      | none =>
        let s := { s with net := rest, flt := { s.flt with delayed := s.flt.delayed.filter fun e => decide (e.1 ≠ m) } }
        (s.arrive m).reorderTurn src dst
      | some i =>
        let kind := s.fld (fFLT_INJA_KIND i)
        let par := s.fld (fFLT_INJC_PARAM i)
        if kind = 0x01 then
          { s with
            net := renumber src dst rest m.seq
            txSeq := tput s.txSeq (src * 128 + dst) ((s.nextSeq src dst + 65535) % 65536) }
        else if kind = 0x02 then { s with net := rest, flt := { s.flt with gaps := (src * 128 + dst) :: s.flt.gaps } }
        else if kind = 0x03 ∨ kind = 0x04 then
          let p := m.payload ^^^ Config.flipMask s.free par
          let s := { s.tick with net := rest }
          (if kind = 0x03 then s.arrive { m with payload := p, chkOk := false, inj := true }
           else s.arrive { m with
             payload := p, inj := true, chk := Config.chainCrc (BitVec.ofNat 48 (headerHigh m.dst m.src m.mbx m.sub m.seq)) p }).reorderTurn
            src dst
        else if kind = 0x05 then
          { s with net := renumber src dst rest m.seq, flt := { s.flt with reordered := s.flt.reordered ++ [(m, par)] } }
        else
          { s with flt := { s.flt with delayed := s.flt.delayed ++ [(m, s.now + par * 1000)] } }

end Sys2Proof.Machine
end

