-- ==== Sys2Proof/Machine/CtlCore.lean ====
section
/-! DEFINITION. Writes of the registers of the FCT, CLP, HQE, BPM, MAP, MEC, FLT and EVR blocks that do more than keep a
value: which writes are refused with an access fault, DETAIL 0x02, and what the others do (R101, R102, R120, R147, R148,
R178, R179, R189, R192, R193, R227, R228, R415, R424, R425, R431, R440, R445, R446, R553, R564, R565, R590). -/

namespace Sys2Proof.Machine

open Sys2Proof

/-! ### Refused writes -/

/-- A destination field names an endpoint that does not exist or is fused off (R590). -/
def State.badDst (s : State) (v : Word) (lo : Nat) : Bool := !s.epFitted (bits v lo 7)

/-- A mailbox field of 15. -/
def badMbx (v : Word) (lo : Nat) : Bool := bits v lo 4 == 15

/-- The index of a register within an array at `base` with stride `st`, if `off` is one of its `n` registers. -/
def regIndex (off base st n : Nat) : Option Nat :=
  if base ≤ off ∧ off < base + st * n ∧ (off - base) % st = 0 then some ((off - base) / st) else none

/-- R102. -/
def State.badDepths (s : State) (n : Nat) (v : Word) : Bool :=
  let old := s.reg (rFCT_MBX n)
  64 < sumOf (fun m => bits v (4 * m) 4) (List.range 16) || bits v 60 4 < 4 ||
    (List.range 16).any fun m => bits v (4 * m) 4 != bits old (4 * m) 4 && !(s.box n m).isEmpty

def State.refuseFct (s : State) (off : Nat) (v : Word) : Bool :=
  match regIndex off (rFCT_MBX 0) 0x10 54 with
  | some n => s.badDepths n v
  | none => false

def State.refuseClp (s : State) (off : Nat) (v : Word) : Bool :=
  if off = rCLP_NOTE then s.badDst v 0 || badMbx v 8 else false

/-- R148 and R590; 0 in `HQE_NOTE.DST` keeps its meaning. -/
def State.refuseHqe (s : State) (off : Nat) (v : Word) : Bool :=
  if off = rHQE_DCFG then s.badDst v 8 || badMbx v 16
  else if off = rHQE_NOTE then (bits v 0 7 != 0 && s.badDst v 0) || badMbx v 8
  else if off = rHQE_GRANT then
    bits v 4 4 < 1 || 8 < bits v 4 4 || bits v 8 8 < 1 || 128 < bits v 8 8
  else if off = rHQE_SLOT then bits v 32 16 == 0 || 32768 < bits v 32 16
  else if (regIndex off (rHQE_DISP 0) 8 256).isSome then s.badDst v 0 || badMbx v 8
  else false

/-- R192, R193, R590. -/
def State.refuseBpm (s : State) (off : Nat) (v : Word) : Bool :=
  if off = rBPM_CTL then s.flag fBPM_CTL_EN && !bit v 0 && s.grantedBeads != 0
  else if off = rBPM_WARN then bits v 0 16 < bits v 16 16
  else if off = rBPM_NOTE then s.badDst v 0 || badMbx v 8
  else if off = rBPM_RETIRE then
    let b := bits v 0 15
    decide ((s.bead b).st ≠ .retired) &&
      ((decide ((s.bead b).st = .granted) && s.flag fBPM_CTL_EN) || 64 ≤ s.retiredBeads)
  else match regIndex off (rBPM_CLS 0) 0x10 16 with
    | some c =>
      let reserve := bits v 0 16
      let others := sumOf (fun k => if k = c then 0 else s.reserveOf k) (List.range 16)
      bits v 16 16 < reserve || 32768 < bits v 16 16 ||
        (s.poolReady && s.spareBeads + s.owed c < reserve - s.heldOf c) ||
        32768 - s.retiredBeads < others + reserve
    | none => false

/-- R228, R590. -/
def State.refuseMap (s : State) (off : Nat) (v : Word) : Bool :=
  let en := s.flag fMAP_CTL_EN
  if off = rMAP_CFG then en || bits v 0 5 < 10 || 18 < bits v 0 5
  else if off = rMAP_DBASE ∨ off = rMAP_CBASE then en
  else if off = rMAP_NOTE then s.badDst v 0 || badMbx v 8
  else if off = rMAP_CTL then
    let frames := 8 * 2 ^ s.fld fMAP_CFG_SETBITS
    let inDram (a n : Nat) := 0x1000000000 ≤ a && a + n ≤ s.dramEnd
    (en && !bit v 0 && s.fld fMAP_PINS_PINNED != 0) ||
      (!en && bit v 0 && !(inDram (s.dirAddr 0) (frames * 8) && inDram (s.frameAddr 0) (frames * 0x2000)))
  else false

/-- The region entry that a write of `MEC_RGN0` or `MEC_RGN1` would make: base, size (MiB), valid, light, mirror, tag. -/
def State.badRegion (s : State) (r base size : Nat) (v1 : Word) : Bool :=
  let valid := bit v1 0
  (bit v1 2 && !bit v1 1) ||
    (valid &&
      (size == 0 || bits v1 8 7 == 0 || base < 0x10000 || 0x10000 + s.dramMiB < base + size ||
        (List.range 16).any fun k => k != r && s.flag (fMEC_RGN1_VALID k) &&
          base < s.fld (fMEC_RGN0_BASE k) + s.fld (fMEC_RGN0_SIZE k) && s.fld (fMEC_RGN0_BASE k) < base + size))

/-- R425, R590. -/
def State.refuseMec (s : State) (off : Nat) (v : Word) : Bool :=
  if off = rMEC_NOTE then s.badDst v 0 || badMbx v 8
  else if off = rMEC_SCRUB then
    bits v 32 12 < 50 || 4000 < bits v 32 12 || bits v 44 12 < 1
  else if off = rMEC_DCFG then bits v 0 16 == 0 || bits v 16 16 == 0
  else if off = rMEC_DMARK then
    (s.flag fMEC_DMARK_MARK0 && bits v 0 5 != s.fld fMEC_DMARK_DEV0) ||
      (s.flag fMEC_DMARK_MARK1 && bits v 8 5 != s.fld fMEC_DMARK_DEV1)
  else match regIndex off (rMEC_RGN0 0) 0x10 16 with
    | some r => s.badRegion r (bits v 20 20) (bits v 40 24) (s.reg (rMEC_RGN1 r))
    | none => match regIndex off (rMEC_RGN1 0) 0x10 16 with
      | some r => s.badRegion r (s.fld (fMEC_RGN0_BASE r)) (s.fld (fMEC_RGN0_SIZE r)) v
      | none => false

/-- R446, R590. A write of `FLT_INJA` arms with the kind and target that it writes. -/
def State.refuseFlt (s : State) (off : Nat) (v : Word) : Bool :=
  if off = rFLT_CTL then
    bits v 0 4 < 3 || 8 < bits v 0 4 || bits v 8 10 < 40 || 1000 < bits v 8 10
  else if off = rFLT_NOTE then s.badDst v 0 || badMbx v 8
  else match regIndex off (rFLT_INJA 0) 0x20 8 with
    | some i =>
      if s.injArmed i then bit v 16
      else bit v 16 && (!s.flag fFLT_STAT_GATE || !s.injValid (bits v 0 8) (bits v 8 7) (s.fld (fFLT_INJC_PARAM i)))
    | none =>
      match regIndex off (rFLT_INJB 0) 0x20 8, regIndex off (rFLT_INJC 0) 0x20 8 with
      | some i, _ => s.injArmed i
      | _, some i => s.injArmed i
      | _, _ => false

/-- R565, R590. -/
def State.refuseEvr (s : State) (off : Nat) (v : Word) : Bool :=
  if off = rEVR_CTL then (s.flag fEVR_CTL_EN && !bit v 0) || 4 < bits v 1 3
  else if off = rEVR_BASE then
    s.flag fEVR_CTL_EN || bits v 22 18 * 0x400000 < 0x1000000000 ||
      s.dramEnd < bits v 22 18 * 0x400000 + 0x400000
  else if off = rEVR_NOTE then s.badDst v 0 || badMbx v 8
  else false

/-! ### What an accepted write does -/

/-- FCT: a checkpoint area is fixed after the first commit on any core; a key slot takes effect with its high word (R96,
R101). -/
def State.actFct (s : State) (off : Nat) (old v new : Word) : State :=
  if off = rFCT_CKBASE then
    if s.cores.any fun e => e.2.commits != 0 then s.setReg off old else s.setReg off new
  else match regIndex off (rFCT_HKEY 0) 8 6 with
    | some j =>
      if j % 2 = 0 then { s with hkeyLow := tput s.hkeyLow (j / 2 + 1) v }
      else
        let low := tgetD s.hkeyLow (j / 2 + 1) 0#64
        { s with hkeys := tput s.hkeys (j / 2 + 1) (v ++ low) }
    | none => s.setReg off new

/-- CLP: `CLOSE` and `OPEN` act and read 0; a `HOLD` change shows in `HELD` (R112, R114, R116, R120). -/
def State.actClp (s : State) (off : Nat) (v new : Word) : State :=
  match regIndex off (rCLP_CTL 0) 0x20 76 with
  | some c =>
    if s.claspFused c then s
    else
      let s := s.setReg off (setBits (setBits new 1 1 0) 2 1 0)
      let s := if s.claspState c = clClosed then s.setFld (fCLP_STAT_HELD c) (b2n (bit v 3)) else s
      let s := if bit v 2 then s.claspOpen c else s
      if bit v 1 then s.claspClose c else s
  | none => s.setReg off new

/-- HQE: `CFS` sets `CSTS.CFS`; subsystem identifiers are fixed by `LOCK`; a dispatch entry lets waiting commands go
(R124, R135, R147, R148). -/
def State.actHqe (s : State) (off : Nat) (old v new : Word) : State :=
  if off = rHQE_PCID then (if bit old 32 then s else s.setReg off new)
  else if off = rHQE_CTL then
    let s := s.setReg off new
    if bit v 2 then s.setCfs else s
  else if (regIndex off (rHQE_DISP 0) 8 256).isSome then (s.setReg off new).wakeDisp
  else s.setReg off new

/-- Setting `EN` makes every bead that is not retired free; the AHM4816 then builds its list (R178, R179). Clearing it
disables the pool. -/
def State.poolEnable (s : State) (on : Bool) : State :=
  if on && !s.flag fBPM_CTL_EN then
    let s := s.setFld fBPM_CTL_EN 1
    let s := { s with pool := { s.pool with
      beads := (s.pool.beads.filter fun e => decide (e.2.st = .retired) || e.2.ue != 0).map fun e =>
        if e.2.st = .retired then e else (e.1, ⟨.free, 0, 0, e.2.ue⟩)
      freed := [], tail := 0 } }
    let s := (List.range 16).foldl (fun (t : State) c => t.setFld (fBPM_CST_HIGH c) 0) s
    if s.part.freeList then s
    else
      let s := s.setFld fBPM_STAT_READY 1
      let s := s.setFld fBPM_STAT_LOW s.spareBeads
      s.poolRefresh.decideWaiting
  else if !on && s.flag fBPM_CTL_EN then
    let s := (s.setFld fBPM_CTL_EN 0).setFld fBPM_STAT_READY 0
    (s.setFld fBPM_STAT_FREE 0).setFld fBPM_STAT_SPARE 0
  else s

/-- The list is built, in ascending order: the pool serves requests (R179). -/
def State.freelistReady (s : State) : State :=
  if s.part.freeList && s.flag fBPM_CTL_EN && !s.poolReady then
    let l := s.freeOrder
    let s := (l.zip ((l.drop 1).map some ++ [none])).foldl (fun (t : State) x => t.linkBead x.1 x.2) s
    let s := s.setFld fBPM_STAT_READY 1
    let s := s.setFld fBPM_STAT_LOW s.spareBeads
    s.poolRefresh.decideWaiting
  else s

/-- `BPM_RETIRE` retires a bead, with no record; a retired bead stays as it is (R189). -/
def State.retireBead (s : State) (b : Nat) : State :=
  if (s.bead b).st = .retired then s
  else
    let l := if s.part.freeList && s.poolReady then s.freeOrder else []
    let s := match (l.takeWhile (· != b)).getLast? with
      | some p => if l.contains b then s.linkBead p ((l.dropWhile (· != b)).drop 1).head? else s
      | none => s
    let s := s.setBead b { s.bead b with st := .retired, owner := 0, cls := 0 }
    let s := { s with pool := { s.pool with freed := s.pool.freed.filter fun x => decide (x ≠ b) } }
    (s.setFld fBPM_ERR_RET s.retiredBeads).poolRefresh

def State.actBpm (s : State) (off : Nat) (v new : Word) : State :=
  if off = rBPM_CTL then s.poolEnable (bit v 0)
  else if off = rBPM_RETIRE then s.retireBead (bits v 0 15)
  else if off = rBPM_WARN ∨ (regIndex off (rBPM_CLS 0) 0x10 16).isSome then (s.setReg off new).poolRefresh.decideWaiting
  else s.setReg off new

/-- MAP: a command starts with its write; `EN` starts the hit count afresh (R210, R227). -/
def State.actMap (s : State) (who off : Nat) (v new : Word) : State :=
  if off = rMAP_CMD then s.mapCommand (bits v 32 4) (bits v 0 32) who
  else if off = rMAP_CTL then
    let on := bit v 0 && !s.flag fMAP_CTL_EN
    let s := s.setReg off new
    if on then (s.setReg rMAP_HITS 0#64).readDirectory else s
  else s.setReg off new

/-- MEC: `MARK0` and `MARK1` mark the devices that `DEV0` and `DEV1` name (R415, R424). -/
def State.actMec (s : State) (off : Nat) (v new : Word) : State :=
  if off = rMEC_DMARK then
    let m0 := bit v 5 && !s.flag fMEC_DMARK_MARK0
    let m1 := bit v 13 && !s.flag fMEC_DMARK_MARK1
    let s := s.setReg off (setBits (setBits new 5 1 (s.fld fMEC_DMARK_MARK0)) 13 1 (s.fld fMEC_DMARK_MARK1))
    let s := if m0 then s.markDevice 0 (bits v 0 5) else s
    if m1 then s.markDevice 1 (bits v 8 5) else s
  else s.setReg off new

/-- FLT: a declaration fails the core it names, unless it is fenced, a spare or not released; arming starts an injector
(R431, R440, R443). -/
def State.declare (s : State) (n : Nat) : State :=
  if n < 54 ∧ (s.core n).status.live = true then
    s.coreFail n 0x03 false
  else s

def State.actFlt (s : State) (off : Nat) (v new : Word) : State :=
  if off = rFLT_DECL then (if bit v 6 then s.declare (bits v 0 6) else s)
  else match regIndex off (rFLT_INJA 0) 0x20 8 with
    | some i =>
      if bit v 16 then
        let t := (s.setReg off (setBits new 16 1 0)).injArm i
        if injTicked (bits v 0 8) then t.injTick i else t
      else if s.injArmed i then s.setFld (fFLT_INJA_ARM i) 0
      else s.setReg off new
    | none => s.setReg off new

/-- Setting `EN` moves the held records into the ring (R553). -/
def State.evrEnable (s : State) : State :=
  if s.flag fEVR_CTL_EN then s
  else
    let s := s.setFld fEVR_CTL_EN 1
    let s := { s with evr := { s.evr with ring := s.evr.ring ++ s.evr.early, early := [] } }
    s.setFld fEVR_STAT_COUNT s.evr.ring.length

def State.actEvr (s : State) (off : Nat) (v new : Word) : State :=
  if off = rEVR_CTL then
    let en := s.fld fEVR_CTL_EN
    let s := s.setReg off (setBits new 0 1 en)
    if bit v 0 then s.evrEnable else s
  else s.setReg off new

end Sys2Proof.Machine
end

