-- ==== Sys2Proof/Machine/ModeOps.lean ====
section
/-! DEFINITION. The mode machine: which requests are carried out, with which cause, and what entering or leaving a mode
does (R38 to R44, R439, R466). -/

namespace Sys2Proof.Machine

open Sys2Proof

/-- Signet's endpoint (R20). -/
def epSignet : Nat := 112

/-- Every injector is disarmed and held messages are delivered; the gate closes (R439, R443). -/
def State.disarmAll (s : State) : State :=
  let s := (List.range 8).foldl (fun (t : State) i => t.setFld (fFLT_INJA_ARM i) 0) s
  (s.setFld fFLT_STAT_GATE 0).releaseReordered

/-- The keyed session keeps its other privileges when Diagnostic ends (R466). -/
def State.losePrivilege (s : State) (bitNo : Nat) : State :=
  let p := s.fld fSIG_SESS_PRIV
  let q := if p / 2 ^ bitNo % 2 = 1 then p - 2 ^ bitNo else p
  let s := s.setFld fSIG_SESS_PRIV q
  match s.sig.ks with
  | some k => { s with sig := { s.sig with ks := some { k with granted := q } } }
  | none => s

/-- What goes with entering a mode: Quiesce stops dispatch (R168); Diagnostic opens the gate (R466); Manufacturing opens
JTAG unless a fuse keeps it closed (R466); a health mode dispatches what was held back (R43, R168). -/
def State.modeEntered (s : State) (m : Nat) : State :=
  if m = 7 then { s with hqe := { s.hqe with drained := true } }
  else if m = 0xA then s.setFld fFLT_STAT_GATE 1
  else if m = 0xB then (if s.flag fARC_OPT_JTAG_OFF then s else s.setFld fSIG_STAT_JTAGOPEN 1)
  else if isHealth m then s.wakeHeld
  else s

/-- What goes with leaving a mode (R168, R439). -/
def State.modeLeft (s : State) (m : Nat) : State :=
  if m = 7 then { s with hqe := { s.hqe with drained := false } }
  else if m = 0xA then s.disarmAll
  else s

/-- The cause of a change of the health level, if R41 lists it. -/
def healthCause (old new : Nat) : Option Nat :=
  if old = 5 then (if 2 ≤ new ∧ new ≤ 4 then some 8 else none)
  else if new = 5 then some 7
  else if old = new then none
  else if new = 4 then some 5
  else if old = 2 ∧ new = 3 then some 4
  else if (old = 3 ∨ old = 4) ∧ (new = 2 ∨ new = 3) then some 6
  else none

/-- The cause with which an overlay ends (R41). -/
def endCause (m : Nat) : Nat := if m = 6 then 0xA else if m = 7 then 0xD else if m = 8 then 0xF else 0x11

/-- A refused request (R42). -/
def State.modeRefused (s : State) : State := s.setFld fARC_MODE_REFUSED 1

/-- Enter a mode, leaving the present one. -/
def State.enterMode (s : State) (m cause : Nat) : State :=
  let old := s.fld fARC_MODE_CUR
  let s := s.modeLeft old
  (s.modeTo m (s.fld fARC_MODE_HEALTH) cause).modeEntered m

/-- Diagnostic ends because an overlay is requested (R40). -/
def State.diagnosticEnds (s : State) : State :=
  let s := s.modeLeft 0xA
  let s := s.losePrivilege 2
  s.modeTo (s.fld fARC_MODE_HEALTH) (s.fld fARC_MODE_HEALTH) 0x12

/-- A request to enter an overlay from a health mode (R41); `drain` names a queue drain as the reason for Quiesce. -/
def State.requestOverlay (s : State) (req who : Nat) (drain : Bool) : State :=
  if req = 6 then s.enterMode 6 9
  else if req = 7 then s.enterMode 7 (if drain then 0xC else 0xB)
  else if req = 8 ∨ req = 9 then s.enterMode req 0xE
  else if (req = 0xA ∨ req = 0xB) ∧ who = epSignet then s.enterMode req 0x10
  else s.modeRefused

/-- A request of the mode or health change that `req` names, made by `who` (R41, R42; log entry 24). -/
def State.modeRequest (s : State) (who req : Nat) (drain : Bool := false) : State :=
  let cur := s.fld fARC_MODE_CUR
  let h := s.fld fARC_MODE_HEALTH
  if cur = 1 then
    if who ≠ epSignet then s.modeRefused
    else if isHealth req then (s.modeTo req req 1).wakeHeld
    else if req = 6 then s.enterMode 6 9
    else if req = 0 then s.modeTo 0 h (if s.pwr.recovLow then 3 else 2)
    else s.modeRefused
  else if cur = 0 then
    (if who = epSignet ∧ req = 0xB then s.enterMode 0xB 0x10 else s.modeRefused)
  else if cur = 0xB then s.modeRefused
  else if isHealth cur then
    if isHealth req then
      match healthCause h req with
      | some c => s.modeTo req req c
      | none => s.modeRefused
    else s.requestOverlay req who drain
  else
    if isHealth req then
      match healthCause h req with
      | some c => s.modeTo cur req c
      | none => s.modeRefused
    else if req = cur then
      (if cur = 9 ∨ (cur = 0xA ∧ who ≠ epSignet) then s.modeRefused else s.enterMode h (endCause cur))
    else if cur = 0xA ∧ 6 ≤ req ∧ req ≤ 9 then s.diagnosticEnds.requestOverlay req who drain
    else s.modeRefused

/-- Boot ends with the level that firmware names (R41): the health mode, or Sanitize where one is in force; `CUR` and `HEALTH`
change at one instant. -/
def State.bootEnds (s : State) (level : Nat) : State :=
  if s.sig.sanState = 1 then (s.modeTo 6 level 9).modeEntered 6 else (s.modeTo level level 1).modeEntered level

/-- Another core has written `GO` at this same moment (R44). -/
def State.goTaken (s : State) (who : Nat) : Bool :=
  match s.modeGo with
  | some (w, t) => who < 54 && w != who && t == s.now
  | none => false

/-- A write of `ARC_MODE` (R33, R42, R44): write-one-to-clear bits clear, `REQ` is kept and `GO` carries the request out; of two
cores that write `GO` at the same moment the second is refused. -/
def State.writeMode (s : State) (who : Nat) (v : Word) : State :=
  let s := if bit v 29 then s.setFld fARC_MODE_REFUSED 0 else s
  let s := if bit v 30 then s.setFld fARC_MODE_CHANGED 0 else s
  if !bit v 28 then s.setFld fARC_MODE_REQ (bits v 24 4)
  else if s.goTaken who then s.modeRefused
  else
    let s := s.setFld fARC_MODE_REQ (bits v 24 4)
    State.modeRequest { s with modeGo := if who < 54 then some (who, s.now) else s.modeGo } who (bits v 24 4)

/-- The mode serves host I/O normally or is an overlay that still takes requests. -/
def State.mode (s : State) : Nat := s.fld fARC_MODE_CUR

end Sys2Proof.Machine
end

