-- ==== Sys2Proof/Machine/Loupe.lean ====
section
/-! DEFINITION. The Loupe read channel: slot layout, scrambler, bezel marks and framing, read offsets, fusion, equaliser and
detector, decoding, result words and learning records (R312 to R334). -/

namespace Sys2Proof.Machine

open Sys2Proof

/-! ### PPA fields (R198) -/

def ppaChan (p : Nat) : Nat := p / 2 ^ 35 % 32
/-- The LUN index, 4 × CE + LUN (R277). -/
def ppaLun (p : Nat) : Nat := p / 2 ^ 31 % 16
def ppaPlane (p : Nat) : Nat := p / 2 ^ 28 % 8
def ppaBlock (p : Nat) : Nat := p / 2 ^ 14 % 2 ^ 14
def ppaPage (p : Nat) : Nat := p / 4 % 2 ^ 12
def ppaSlot (p : Nat) : Nat := p % 4
/-- The number of a block among all blocks: its PPA without page and slot. -/
def blockOf (p : Nat) : Nat := p / 2 ^ 14
/-- The die index of a block number and of a PPA (R340). -/
def dieOfBlock (b : Nat) : Nat := b / 2 ^ 17
def ppaDie (p : Nat) : Nat := dieOfBlock (blockOf p)

/-! ### Scrambler and marks (R313, R315) -/

/-- One step of the scrambler: the register shifts left and takes the XOR of bits 31, 21, 1 and 0 (R313). -/
def scrambleStep (r : BitVec 32) : BitVec 32 :=
  (r <<< 1) ||| (if (r.getLsbD 31 ^^ r.getLsbD 21 ^^ r.getLsbD 1 ^^ r.getLsbD 0) then 1#32 else 0#32)

/-- One output byte, least significant bit first, and the register after it. -/
def scrambleByte (r : BitVec 32) : Nat → BitVec 32 × Nat
  | 0 => (r, 0)
  | n + 1 =>
    let q := scrambleByte (scrambleStep r) n
    (q.1, b2n (r.getLsbD 31) + 2 * q.2)

def scrambleBytes (r : BitVec 32) : Nat → List Byte
  | 0 => []
  | n + 1 => let q := scrambleByte r 8; BitVec.ofNat 8 q.2 :: scrambleBytes q.1 n

/-- The scrambler bytes of a slot, for its 4,676 payload and parity bytes in order (R313). -/
def slotScramble (ppa : Nat) : List Byte := scrambleBytes (BitVec.ofNat 32 (0xA * 2 ^ 28 + ppa % 2 ^ 28)) 4676

def xorBytes (a b : List Byte) : List Byte := List.zipWith (· ^^^ ·) a b

/-- Page type (R321): 0 lower, 1 middle, 2 upper, 3 single-level. -/
def pageType (slc : Bool) (ppa : Nat) : Nat := if slc then 3 else ppaPage ppa % 3

/-- Primary mark, bytes 0 to 7, of a page type (R315). -/
def primaryMark (t : Nat) : List Byte :=
  bytesOf (if t = 1 then 0xAAF03C695A0F5533 else if t = 2 then 0x66CC5A3C69330F55 else 0xC366695A3C55330F) 8

/-- Second mark, bytes 2104 to 2107, of a page type (R315). -/
def secondMark (t : Nat) : List Byte :=
  bytesOf (if t = 1 then 0xAAF03C69 else if t = 2 then 0x66CC5A3C else 0xC366695A) 4

/-- The slot as it is stored: marks, payload halves and parity (R312, R314). -/
def encodeSlot (t ppa : Nat) (payload : List Byte) : List Byte :=
  let body := xorBytes (payload ++ Config.ldpcParity payload) (slotScramble ppa)
  primaryMark t ++ body.take 2096 ++ secondMark t ++ body.drop 2096

/-! ### Framing (R317 to R319) -/

/-- The number of ones of a byte. -/
def onesOf (b : Byte) : Nat := countIf (fun i => b.getLsbD i) (List.range 8)

/-- A byte of a capture at a place relative to the nominal first byte: the capture starts 6 UI before it (R317). -/
def capByte (l : List Byte) (i : Int) : Byte := if i + 6 < 0 then 0#8 else l.getD (i + 6).toNat 0#8

/-- Hamming distance between a mark and the capture at place `p`. -/
def markDistance (l mark : List Byte) (p : Int) : Nat :=
  sumOf (fun e => onesOf (capByte l (p + Int.ofNat e.2) ^^^ e.1)) (mark.zipIdx)

/-- Candidate slips, the smaller first and the negative one first (R317). -/
def slips (win : Nat) : List Int :=
  0 :: (List.range win).flatMap fun i => [-(Int.ofNat (i + 1)), Int.ofNat (i + 1)]

/-- The slip at which a mark is found, if its distance reaches the threshold (R317). -/
def findMark (l mark : List Byte) (nominal win thr : Nat) : Option Int :=
  let best := (slips win).foldl (fun (a : Int × Nat) d =>
    let n := markDistance l mark (Int.ofNat nominal + d)
    if n < a.2 then (d, n) else a) (0, 1000)
  if best.2 ≤ thr then some best.1 else none

/-- A capture with the slips of its marks (R317). -/
def State.capture (s : State) (chan t : Nat) (l : List Byte) : Capture :=
  let win := s.fld (fLPE_FRAME_WIN chan)
  ⟨l, findMark l (primaryMark t) 0 win (s.fld (fLPE_FRAME_THR1 chan)),
    findMark l (secondMark t) 2104 win (s.fld (fLPE_FRAME_THR2 chan))⟩

/-- Fewer than `ERASEDPM` per mille of the captured bits are 0 (R319). -/
def State.erasedCapture (s : State) (chan : Nat) (c : Capture) : Bool :=
  let slot := (List.range 4688).map fun i => capByte c.bytes (Int.ofNat i)
  s.flag (fLPE_CTL_ERASEDET chan) &&
    (37504 - sumOf onesOf slot) * 1000 < s.fld (fLPE_FRAME_ERASEDPM chan) * 37504

def Capture.unframed (c : Capture) : Bool := c.primary.isNone && c.second.isNone

/-- The bytes of a slot framed on its primary mark, or on the second where only that is found or `onSecond` (R318). -/
def Capture.frame (c : Capture) (onSecond : Bool) : List Byte :=
  match c.primary, c.second with
  | some d1, some d2 =>
    if onSecond && d1 != d2 then
      (List.range 4688).map fun i =>
        -- the halves' first payload bytes stand 2,100 bytes apart, at slot bytes 8 and 2108
        capByte c.bytes (Int.ofNat i + d2)
    else (List.range 4688).map fun i => capByte c.bytes (Int.ofNat i + d1)
  | some d1, none => (List.range 4688).map fun i => capByte c.bytes (Int.ofNat i + d1)
  | none, some d2 => (List.range 4688).map fun i => capByte c.bytes (Int.ofNat i + d2)
  | none, none => (List.range 4688).map fun i => capByte c.bytes (Int.ofNat i)

/-- A frame's payload and parity bytes (R312). -/
def bodyBytes (frame : List Byte) : List Byte := (frame.drop 8).take 2096 ++ frame.drop 2108

/-! ### Read offsets (R321 to R323) -/

/-- A signed byte. -/
def signed8 (n : Nat) : Int := if n % 256 < 128 then Int.ofNat (n % 256) else Int.ofNat (n % 256) - 256

/-- The eight offsets of a word such as `LPE_OFS`: levels 1 to 7, then the single-level level. -/
def offsetsOf (w : Word) : List Int := (List.range 8).map fun k => signed8 (bits w (8 * k) 8)

/-- The bit of page type `t` in program state `k` (R316, R338). -/
def State.stateBit (s : State) (chan t k : Nat) : Bool := bit (s.reg (rLPE_SMAP chan)) (3 * k + t)

/-- The levels of a page type, numbered 1 to 7; the single-level level is 8 (R321). -/
def State.levelsOf (s : State) (chan t : Nat) : List Nat :=
  if t = 3 then [8]
  else (List.range 7).map (· + 1) |>.filter fun k => s.stateBit chan t (k - 1) != s.stateBit chan t k

/-- The entry of Assay for a PPA (R340). -/
def State.asyIndex (s : State) (ppa : Nat) : Nat :=
  ppaDie ppa * 64 + min (ppaBlock ppa / 2 ^ s.fld fASY_GROUP_GSHIFT) 63

/-- The applied offsets of an entry (R342, R348): zero until `READY`. -/
def State.appliedOf (s : State) (ix : Nat) : List Int :=
  if s.flag fASY_STAT_READY then tgetD s.assay.applied ix [0, 0, 0, 0, 0, 0, 0, 0] else [0, 0, 0, 0, 0, 0, 0, 0]

/-- The offsets of sense `i` of `n` for all eight levels, and whether one of the page's levels is clamped (R323). -/
def State.senseOffsets (s : State) (chan ppa t sel n i : Nat) : List Int × Bool :=
  let base := if sel % 4 = 0 then s.appliedOf (s.asyIndex ppa)
    else if sel % 4 = 2 then offsetsOf (s.reg (rLPE_OFS chan)) else [0, 0, 0, 0, 0, 0, 0, 0]
  let e := sel / 4 % 16
  let retry := if e = 0 then [0, 0, 0, 0, 0, 0, 0, 0] else offsetsOf (s.reg (rLPE_RTBL chan (e - 1)))
  let step := if n = 3 then s.fld (fLPE_SOFT_STEP3 chan) else s.fld (fLPE_SOFT_STEP7 chan)
  let j : Int := ([0, -1, 1, -2, 2, -3, 3] : List Int).getD i 0
  let raw := (List.range 8).map fun k => base.getD k 0 + retry.getD k 0 + j * Int.ofNat step
  let m := Int.ofNat (s.fld (fLPE_SOFT_MAXOFS chan))
  (raw.map fun o => max (-m) (min m o), (s.levelsOf chan t).any fun k => m < (raw.getD (k - 1) 0).natAbs)

/-- The number of senses that byte 10 of a request names (R292). -/
def sensesOf (b : Nat) : Nat := if b = 1 then 3 else if b = 2 then 7 else 1

/-! ### Fusion, equaliser and detector (R325, R326) -/

/-- A bit of a list of bytes, least significant bit first. -/
def bitOf (l : List Byte) (i : Nat) : Bool := (l.getD (i / 8) 0#8).getLsbD (i % 8)

/-- A quotient of the fixed-point arithmetic: exact, or open in direction (log entry 41). -/
def fixedQuot (a b : Int) : Int := if a % b = 0 then a / b else Config.roundOpen a b

/-- The fused estimate of a cell, in units of 1/64 (R325). -/
def fused (frames : List (List Byte)) (c : Nat) : Int :=
  let n := frames.length
  let z := countIf (fun f => !bitOf f c) frames
  fixedQuot ((2 * Int.ofNat z - Int.ofNat n) * 64) (Int.ofNat n)

/-- A value of a row at a place that may lie outside it. -/
def rowAt (l : List Int) (i : Int) : Int := if i < 0 then 0 else l.getD i.toNat 0

/-- The equalised samples, in units of 1/64 as the spec's six fractional bits (R325; log entry 41). `a` is the aggressor row, empty where none is used. -/
def State.equalise (s : State) (chan : Nat) (u a : List Int) : List Int :=
  if s.flag (fLPE_EQ_EN chan) then
    let e1 := signed8 (s.fld (fLPE_EQ_E1 chan))
    let e2 := signed8 (s.fld (fLPE_EQ_E2 chan))
    let kwl := signed8 (s.fld (fLPE_EQ_KWL chan))
    (List.range 37504).map fun i =>
      let c := Int.ofNat i
      fixedQuot (rowAt u c * 64 + e1 * (rowAt u (c - 1) + rowAt u (c + 1)) + e2 * (rowAt u (c - 2) + rowAt u (c + 2)) -
        kwl * 64 * rowAt a c) 64
  else u

/-- Four neighbouring decisions: cells c − 1, c, c + 1, c + 2 (R325). -/
abbrev Quad := Int × Int × Int × Int

/-- The least cost kept for each state. -/
def keepBest (l : List (Quad × Int)) : List (Quad × Int) :=
  l.foldl (fun acc e =>
    if acc.any (fun f => f.1 == e.1) then
      acc.map fun f => if f.1 == e.1 && e.2 < f.2 then e else f
    else acc ++ [e]) []

/-- The squared distance of cell `c`'s sample from the target response, in units of 2^-12 (R325). -/
def branchCost (tau1 tau2 y : Int) (xm2 xm1 x xp1 xp2 : Int) : Int :=
  let r := 64 * x + tau1 * (xm1 + xp1) + tau2 * (xm2 + xp2)
  (y - r) * (y - r)

/-- What cell `i` may hold: nothing outside the slot, the known bit of a mark cell, else either (R325). -/
def cellValues (t : Nat) (i : Int) : List Int :=
  if i < 0 ∨ 37504 ≤ i then [0]
  else
    let n := i.toNat
    if n < 64 then [if bitOf (primaryMark t) n then -1 else 1]
    else if 16832 ≤ n ∧ n < 16864 then [if bitOf (secondMark t) (n - 16832) then -1 else 1]
    else [1, -1]

/-- Survivors at cell `c + 1` from those at `c`. -/
def detectStep (t : Nat) (tau1 tau2 : Int) (y : List Int) (c : Int) (l : List (Quad × Int)) : List (Quad × Int) :=
  keepBest (l.flatMap fun e =>
    (cellValues t (c + 3)).map fun x3 =>
      ((e.1.2.1, e.1.2.2.1, e.1.2.2.2, x3),
        e.2 + branchCost tau1 tau2 (rowAt y (c + 1)) e.1.1 e.1.2.1 e.1.2.2.1 e.1.2.2.2 x3))

/-- Survivors at every cell from the left: costs of cells 0 to c. -/
def forwardCosts (t : Nat) (tau1 tau2 : Int) (y : List Int) : Nat → Int → List (Quad × Int) → List (List (Quad × Int))
  | 0, _, _ => []
  | n + 1, c, l =>
    let m := detectStep t tau1 tau2 y c l
    m :: forwardCosts t tau1 tau2 y n (c + 1) m

/-- Least costs of cells after c, by the state at c, from the right. -/
def backStep (t : Nat) (tau1 tau2 : Int) (y : List Int) (c : Int) (l : List (Quad × Int)) : List (Quad × Int) :=
  keepBest (l.flatMap fun e =>
    (cellValues t (c - 1)).map fun x0 =>
      ((x0, e.1.1, e.1.2.1, e.1.2.2.1),
        e.2 + branchCost tau1 tau2 (rowAt y (c + 1)) x0 e.1.1 e.1.2.1 e.1.2.2.1 e.1.2.2.2))

def backwardCosts (t : Nat) (tau1 tau2 : Int) (y : List Int) : Nat → Int → List (Quad × Int) → List (List (Quad × Int))
  | 0, _, _ => []
  | n + 1, c, l => backwardCosts t tau1 tau2 y n (c - 1) (backStep t tau1 tau2 y c l) ++ [l]

def minCost (l : List Int) : Option Int := l.foldl (fun a x => some (match a with | some b => min b x | none => x)) none

/-- The difference of the least path costs with the cell at bit 1 and at bit 0, in units of 2^-12 (R325). -/
def marginal (f b : List (Quad × Int)) : Int :=
  let tot := f.filterMap fun e => (b.find? fun g => g.1 == e.1).map fun g => (e.1, e.2 + g.2)
  let one := minCost ((tot.filter fun e => e.1.2.1 == -1).map (·.2))
  let zero := minCost ((tot.filter fun e => e.1.2.1 == 1).map (·.2))
  match one, zero with
  | some p, some q => p - q
  | _, _ => 0

/-- A rounded quotient; a tie is open in direction (log entry 41). -/
def roundQuot (a b : Int) : Int :=
  if 2 * (a % b) = b then Config.roundOpen a b else (2 * a + b) / (2 * b)

/-- The LLRs of every cell of a slot (R325). -/
def State.cellLlrs (s : State) (chan t : Nat) (frames : List (List Byte)) (aggressor : List Int) : List Int :=
  let hard := frames.length == 1 && s.flag (fLPE_CTL_HARDBYP chan)
  if hard then
    let m := Int.ofNat (s.fld (fLPE_LLR_HARDMAG chan))
    (List.range 37504).map fun c => if bitOf (frames.getD 0 []) c then -m else m
  else
    let u := (List.range 37504).map (fused frames)
    let y := s.equalise chan u aggressor
    let tau1 := signed8 (s.fld (fLPE_DET_TAU1 chan))
    let tau2 := signed8 (s.fld (fLPE_DET_TAU2 chan))
    let k := if frames.length = 1 then s.fld (fLPE_LLR_K1 chan) else if frames.length = 3 then s.fld (fLPE_LLR_K3 chan)
      else s.fld (fLPE_LLR_K7 chan)
    let starts := (cellValues t 0).flatMap fun x0 => (cellValues t 1).map fun x1 => (((0, 0, x0, x1) : Quad), (0 : Int))
    let fwd := forwardCosts t tau1 tau2 y 37504 (-1) starts
    let last := ((fwd.getLast?).getD []).map fun e => (e.1, (0 : Int))
    let bwd := backwardCosts t tau1 tau2 y 37504 37503 last
    List.zipWith (fun f b => max (-31) (min 31 (roundQuot (Int.ofNat k * marginal f b) (16 * 2 ^ 12)))) fwd bwd

/-- The byte columns of the page that `LPE_DCOL` lists for a LUN and plane (R326). -/
def State.defects (s : State) (chan lun plane : Nat) : List Nat :=
  (List.range 128).filterMap fun d =>
    if s.flag (fLPE_DCOL_VALID chan d) && s.fld (fLPE_DCOL_LUN chan d) == lun && s.fld (fLPE_DCOL_PLANE chan d) == plane
    then some (s.fld (fLPE_DCOL_COL chan d)) else none

/-- Slot byte of codeword byte `i` (R312). -/
def slotByteOf (i : Nat) : Nat := if i < 2096 then i + 8 else i + 12

/-- The LLRs of the codeword bits: descrambled, defect columns zero (R326). -/
def codewordLlrs (llr : List Int) (scr : List Byte) (bad : List Nat) : List Int :=
  (List.range 37408).map fun i =>
    let b := slotByteOf (i / 8)
    if bad.contains b then 0
    else
      let v := llr.getD (b * 8 + i % 8) 0
      if bitOf scr i then -v else v

/-! ### Decoding (R327, R328) -/

/-- The payload, the decoder used (0 hard, 1 soft) and the soft iterations of a decode that meets every parity check
(R327). -/
def State.decodeSlot (s : State) (chan senses : Nat) (llr : List Int) : Option (List Byte × Nat × Nat) :=
  let soft : Option (List Byte × Nat × Nat) :=
    match Config.softDecode (s.fld (fLPE_LLR_MAXIT chan)) llr with
    | (some p, it) => some (p, 1, min it (s.fld (fLPE_LLR_MAXIT chan)))
    | (none, _) => none
  if senses = 1 then
    match Config.hardDecode (llr.map fun v => decide (v < 0)) with
    | some p => some (p, 0, 0)
    | none => if s.flag (fLPE_CTL_SOFTHARD chan) then soft else none
  else soft

/-- Corrected bits: codeword bits that differ from the descrambled sense-0 decision, defect columns left out (R328). -/
def correctedBits (code sense0 : List Byte) (bad : List Nat) : Nat :=
  sumOf (fun i => if bad.contains (slotByteOf i) then 0 else onesOf (code.getD i 0#8 ^^^ sense0.getD i 0#8))
    (List.range 4676)

/-- Doubles of a list of bytes. -/
def wordsOf (l : List Byte) : Nat → List Word
  | 0 => []
  | n + 1 => BitVec.ofNat 64 (l.take 8 |>.foldr (fun b a => b.toNat + 256 * a) 0) :: wordsOf (l.drop 8) n

/-- The tag's CRC-32C over data, host metadata and tag bytes 0 to 27 (R202). -/
def tagCrcGood (payload : List Byte) : Bool :=
  decide ((crc32c (payload.take 4188)).toNat = ((payload.drop 4188).take 4).foldr (fun b a => b.toNat + 256 * a) 0)

/-! ### Writing a bead (R329) -/

/-- Write 524 doubles of a unit to a bead: 512 of data, 8 of host metadata, 4 of tag, with poison on the first 520 and on
the tag as given (R329). -/
def Mem.writeUnit (m : Mem) (bead : Nat) (ws : List Word) (poison tagPoison : Bool) : Mem :=
  (List.range 524).foldl (fun (m : Mem) i =>
    let w := (ws.getD i 0#64).toNat
    if i < 512 then m.writeDouble (beadAddr bead + 8 * i) w poison
    else if i < 520 then m.writeDouble (beadMetaAddr bead + 8 * (i - 512)) w poison
    else m.writeDouble (beadMetaAddr bead + 8 * (i - 512)) w tagPoison) m

/-- The 524 doubles of a unit as a bead holds them (R174, R314). -/
def Mem.readUnit (m : Mem) (bead : Nat) : List Word :=
  m.readDoubles (beadAddr bead) 512 ++ m.readDoubles (beadMetaAddr bead) 12

/-- Some double of a bead's unit reads as poisoned. -/
def Mem.unitPoisoned (m : Mem) (bead : Nat) : Bool :=
  (m.firstPoison (beadAddr bead) 512).isSome || (m.firstPoison (beadMetaAddr bead) 12).isSome

/-- The bytes of doubles. -/
def unitBytes (ws : List Word) : List Byte := ws.flatMap fun w => bytesOf w.toNat 8

/-! ### Result word and learning record (R330, R334) -/

/-- The result word of a slot (R330). -/
def resultWord (cbits ew dec frm : Nat) (slip : Int) (crc erased retx clamp : Bool) (defc iter : Nat) : Nat :=
  min cbits 2047 + ew * 2 ^ 11 + dec * 2 ^ 12 + frm * 2 ^ 14 + ((slip % 16).toNat % 16) * 2 ^ 16 + b2n crc * 2 ^ 20 +
    b2n erased * 2 ^ 21 + b2n retx * 2 ^ 22 + b2n clamp * 2 ^ 23 + min defc 7 * 2 ^ 24 + min iter 31 * 2 ^ 27

/-- The bit triples (upper, middle, lower) of a pilot cell give its program state (R316). -/
def State.pilotState (s : State) (chan byteNo bitNo : Nat) (second : Bool) : Nat :=
  let b (t : Nat) : Bool := if second then bitOf (secondMark t) (byteNo * 8 + bitNo) else bitOf (primaryMark t) (byteNo * 8 + bitNo)
  let v := 4 * b2n (b 2) + 2 * b2n (b 1) + b2n (b 0)
  ((List.range 8).find? fun k => bits (s.reg (rLPE_SMAP chan)) (3 * k) 3 == v).getD 0

/-- The pilots in use: cell in the slot, mark byte, bit, and whether it stands under the second mark (R316, R334). -/
def pilotCells (usePrimary useSecond : Bool) : List (Nat × Nat × Nat × Bool) :=
  (if usePrimary then (List.range 64).map fun i => (i, i / 8, i % 8, false) else []) ++
    (if useSecond then (List.range 32).map fun i => (16832 + i, i / 8, i % 8, true) else [])

/-- Pilot counts and estimate sum of level `k` of page type `t` (R334); the single-level level takes its two states from the
mark's bits, erased cells reading 1. -/
def State.levelCounts (s : State) (chan t k : Nat) (cells : List (Nat × Nat × Nat × Bool)) (frame0 : List Byte)
    (u : Nat → Int) : Nat × Nat × Int :=
  cells.foldl (fun (a : Nat × Nat × Int) c =>
    let known : Bool := if c.2.2.2 then bitOf (secondMark t) (c.2.1 * 8 + c.2.2.1) else bitOf (primaryMark t) (c.2.1 * 8 + c.2.2.1)
    let st := if t = 3 then (if known then 0 else 1) else s.pilotState chan c.2.1 c.2.2.1 c.2.2.2
    let lo := if t = 3 then 0 else k - 1
    let hi := if t = 3 then 1 else k
    let hiBit := if t = 3 then false else s.stateBit chan t hi
    let loBit := if t = 3 then true else s.stateBit chan t lo
    let read := bitOf frame0 c.1
    let sign : Int := if known then -1 else 1
    if st = lo then ((a.1 + b2n (read == hiBit)), a.2.1, a.2.2 + u c.1 * sign)
    else if st = hi then (a.1, a.2.1 + b2n (read == loBit), a.2.2 + u c.1 * sign)
    else a) (0, 0, 0)

end Sys2Proof.Machine
end

