-- ==== Sys2Proof/Machine/Layout.lean ====
section
/-! DEFINITION. The keyed hash and the keyed layout of stripes (R96, R361 to R363, R368). -/

namespace Sys2Proof.Machine

open Sys2Proof

/-! ### SipHash-2-4 (R96) -/

/-- SipHash-2-4 (R96). -/
structure Sip where
  v0 : Word
  v1 : Word
  v2 : Word
  v3 : Word
  deriving DecidableEq, Repr

/-- One SipRound. -/
def Sip.round (x : Sip) : Sip :=
  let v0 := x.v0 + x.v1
  let v1 := x.v1.rotateLeft 13 ^^^ v0
  let v0 := v0.rotateLeft 32
  let v2 := x.v2 + x.v3
  let v3 := x.v3.rotateLeft 16 ^^^ v2
  let v0 := v0 + v3
  let v3 := v3.rotateLeft 21 ^^^ v0
  let v2 := v2 + v1
  let v1 := v1.rotateLeft 17 ^^^ v2
  let v2 := v2.rotateLeft 32
  ⟨v0, v1, v2, v3⟩

/-- Absorb one 8-byte block. -/
def Sip.absorb (x : Sip) (m : Word) : Sip :=
  let y := ({ x with v3 := x.v3 ^^^ m } : Sip).round.round
  { y with v0 := y.v0 ^^^ m }

/-- SipHash-2-4 of the 8 bytes of `a`, little-endian, under a 128-bit key whose low word is `k0` (R96). -/
def sipHash (key : BitVec 128) (a : Word) : Word :=
  let k0 : Word := key.truncate 64
  let k1 : Word := (key >>> 64).truncate 64
  let x : Sip := ⟨k0 ^^^ 0x736F6D6570736575#64, k1 ^^^ 0x646F72616E646F6D#64, k0 ^^^ 0x6C7967656E657261#64,
    k1 ^^^ 0x7465646279746573#64⟩
  let x := (x.absorb a).absorb 0x0800000000000000#64
  let x := ({ x with v2 := x.v2 ^^^ 0xFF#64 } : Sip).round.round.round.round
  x.v0 ^^^ x.v1 ^^^ x.v2 ^^^ x.v3

/-- The PPA of page 0, slot 0 of a block. -/
def blockPpa (b : Nat) : Nat := b * 2 ^ 14

/-! ### The keyed layout (R368) -/

/-- `rnd` of R368, under khash key slot 0. -/
def layRnd (b wl sel i : Nat) : Nat :=
  (sipHash Config.layoutSeed
    (BitVec.ofNat 64 (b % 2 ^ 32 * 2 ^ 32 + wl % 4096 * 2 ^ 20 + sel % 256 * 2 ^ 12 + i % 4096))).toNat

def swapAt (l : List Nat) (i j : Nat) : List Nat := (l.set i (l.getD j 0)).set j (l.getD i 0)

/-- The steps of `shuffle` from index `i` down to 1. -/
def shuffleGo (b wl sel : Nat) : Nat → List Nat → List Nat
  | 0, l => l
  | i + 1, l => shuffleGo b wl sel i (swapAt l (i + 1) (layRnd b wl sel (i + 1) % (i + 2)))
def shuffle (b wl sel : Nat) (l : List Nat) : List Nat := shuffleGo b wl sel (l.length - 1) l

/-- `seq` of R368 for the dies of a band: channels in shuffled order, one LUN of each at every level. -/
def layoutSeq (b wl : Nat) (dies : List Nat) : List Nat :=
  let chans := shuffle b wl 0xFF ((List.range 32).filter fun c => dies.any fun d => d / 16 == c)
  let luns := chans.map fun c => shuffle b wl c (((List.range 16).map (c * 16 + ·)).filter fun d => dies.contains d)
  (List.range 16).flatMap fun level => luns.filterMap fun l => l[level]?

/-- One pass over `pending`: the stripe taken, of at most `w` dies in distinct channels, and the rest. -/
def pickStripe (w : Nat) : List Nat → List Nat → List Nat × List Nat
  | [], cur => (cur, [])
  | d :: t, cur =>
    if cur.length < w && !(cur.any fun x => x / 16 == d / 16) then pickStripe w t (cur ++ [d])
    else
      let r := pickStripe w t cur
      (r.1, d :: r.2)

def stripesGo (w : Nat) : Nat → List Nat → List (List Nat) × List Nat
  | 0, p => ([], p)
  | fuel + 1, p =>
    let r := pickStripe w p []
    if r.1.length < w then ([], p)
    else
      let q := stripesGo w fuel r.2
      (r.1 :: q.1, q.2)

/-- `layout` of R368: the stripes of a wordline, each the dies of positions 0 to k + 1, and the leftover dies. -/
def layout (b wl w : Nat) (dies : List Nat) : List (List Nat) × List Nat := stripesGo w dies.length (layoutSeq b wl dies)

/-- Bands whose blocks are written in single-level mode, by use (R213, R221, R264). -/
def slcUse (use : Nat) : Bool := use == 0 || use == 5 || use == 6

/-- The wordline of a row (R362). -/
def wordlineOf (use row : Nat) : Nat := if slcUse use then row else row / 3

def Band.layoutAt (bd : Band) (serial row : Nat) : List (List Nat) × List Nat :=
  layout serial (wordlineOf bd.use row) (bd.k + 2) ((bd.blocks.map dieOfBlock).filter fun d =>
    match tget bd.gone d with
    | some r => row < r
    | none => true)

/-- The block of a band on a die. -/
def Band.blockOn (bd : Band) (d : Nat) : Nat := (bd.blocks.find? fun b => dieOfBlock b == d).getD 0

/-- The PPA of a slot of the page in a row on a die of a band. -/
def Band.ppaOn (bd : Band) (d row slot : Nat) : Nat := blockPpa (bd.blockOn d) + row * 4 + slot

/-- The stripe number (R363). -/
def stripeNumber (serial row j : Nat) : Nat := serial * 2 ^ 19 + row * 128 + j

/-- The row of a PPA: its page field. -/
def rowOf (ppa : Nat) : Nat := ppa / 4 % 4096

/-- Where a PPA stands: band serial, band, row, the stripe's number in its row and its dies, and the position. -/
structure StripeSpot where
  serial : Nat
  band : Band
  row : Nat
  j : Nat
  dies : List Nat
  pos : Nat
  deriving DecidableEq, Repr

end Sys2Proof.Machine
end

