-- ==== Sys2Proof/Machine/AssayTable.lean ====
section
/-! DEFINITION. The entries of Assay: loop state, table in DRAM and applied offsets, and what the firmware freezes (R340 to R343, R348,
R351, R352). -/

namespace Sys2Proof.Machine

open Sys2Proof

/-! ### Entries (R341 to R343) -/

/-- A signed value of 16 bits, saturating (R341). -/
def sat16 (x : Int) : Int := max (-32768) (min 32767 x)

/-- A signed 16-bit value as its bits. -/
def bits16 (x : Int) : Nat := (x % 65536).toNat
def signed16 (n : Nat) : Int := if n % 65536 < 32768 then Int.ofNat (n % 65536) else Int.ofNat (n % 65536) - 65536

def State.asyEntry (s : State) (ix : Nat) : AsyEntry := tgetD s.assay.entries ix AsyEntry.zero

/-- The four doubles of an entry in the table (R341). -/
def AsyEntry.words (e : AsyEntry) : List Word :=
  let o (k : Nat) : Nat := bits16 (e.o.getD k 0)
  [BitVec.ofNat 64 (o 0 + o 1 * 2 ^ 16 + o 2 * 2 ^ 32 + o 3 * 2 ^ 48),
   BitVec.ofNat 64 (o 4 + o 5 * 2 ^ 16 + o 6 * 2 ^ 32 + bits16 e.os * 2 ^ 48),
   BitVec.ofNat 64 (bits16 e.g + bits16 e.a * 2 ^ 16 + bits16 e.r * 2 ^ 32 + e.n % 65536 * 2 ^ 48),
   BitVec.ofNat 64 (e.acause % 256 * 2 ^ 48 + (b2n e.alarm + 2 * b2n e.frozen + 4 * b2n e.learned) * 2 ^ 56)]

/-- The entry that four doubles of the table hold (R341). -/
def asyEntryOf (w0 w1 w2 w3 : Nat) : AsyEntry :=
  let f (w k : Nat) : Int := signed16 (w / 2 ^ (16 * k))
  ⟨[f w0 0, f w0 1, f w0 2, f w0 3, f w1 0, f w1 1, f w1 2], f w1 3, f w2 0, f w2 1, Int.ofNat (w2 / 2 ^ 32 % 65536),
    w2 / 2 ^ 48 % 65536, w3 / 2 ^ 48 % 256, w3 / 2 ^ 56 % 2 == 1, w3 / 2 ^ 57 % 2 == 1, w3 / 2 ^ 58 % 2 == 1⟩

/-- s(k): −1 for levels 1 to 3, 0 for 4, +1 for 5 to 7. -/
def levelSign (k : Nat) : Int := if k ≤ 3 then -1 else if k = 4 then 0 else 1

/-- Half away from zero, in sixteenths (R343). -/
def round16 (x : Int) : Int := if 0 ≤ x then (x + 8) / 16 else -((-x + 8) / 16)
def clamp127 (x : Int) : Int := max (-127) (min 127 x)

/-- The applied offsets of an entry: levels 1 to 7, then the single-level level (R343). -/
def AsyEntry.offsets (e : AsyEntry) : List Int :=
  ((List.range 7).map fun i => clamp127 (round16 (e.o.getD i 0 + e.g * (Int.ofNat i - 3) + e.a * levelSign (i + 1)))) ++
    [clamp127 (round16 e.os)]

def tableAddr (s : State) (ix : Nat) : Nat := s.fld fASY_TBASE_BASE * 2 ^ 20 + ix * 32
def copyAddr (s : State) (ix : Nat) : Nat := s.fld fASY_SBASE_BASE * 2 ^ 20 + ix * 32

/-- An entry's doubles in DRAM. -/
def State.putWords (s : State) (a : Nat) (e : AsyEntry) : State :=
  (List.range 4).foldl (fun (t : State) i => t.encode (a + 8 * i)) (s.withMem (s.mem.writeDoubles a e.words))

/-- Store an entry: loop state, the applied offsets and, while the table is Assay's, the table in DRAM (R341 to R343; log entry 53). -/
def State.putEntry (s : State) (ix : Nat) (e : AsyEntry) : State :=
  let s := { s with assay := { s.assay with entries := tput s.assay.entries ix e, applied := tput s.assay.applied ix e.offsets } }
  if s.flag fASY_STAT_READY then s.putWords (tableAddr s ix) e else s

/-- The firmware freezes or thaws every entry of a die, as it does when the die is lost, its LUN is offline or returns (R352). Before
`READY` there is no entry to freeze; those of dies that are lost or offline then are frozen after the load. -/
def State.freezeDie (s : State) (d : Nat) (on : Bool) : State :=
  if s.flag fASY_STAT_READY then
    (List.range 64).foldl (fun (t : State) g => t.putEntry (d * 64 + g) { t.asyEntry (d * 64 + g) with frozen := on }) s
  else s

/-- The table and the copy take 1 MiB each, within installed DRAM, apart (R341, R360). -/
def State.asyAreaBad (s : State) (base other : Nat) : Bool :=
  let a := base * 0x100000
  a < 0x1000000000 || s.dramEnd < a + 0x100000 || base == other

/-- The applied-table memory yields an uncorrectable error: the entry's offsets are rebuilt from its loop state (R351). -/
def State.appliedLost (s : State) (ix : Nat) : State :=
  { s with assay := { s.assay with applied := tput s.assay.applied ix (s.asyEntry ix).offsets } }

end Sys2Proof.Machine
end

