-- ==== Sys2Proof/Machine/FwOps.lean ====
section
/-! DEFINITION. What the firmware keeps: map entries, sequence numbers, the map journal, blocks, bands, the reserve and the
loss counts of stripes (R195 to R231, R243 to R264, R361 to R367, R380 to R391). -/

namespace Sys2Proof.Machine

open Sys2Proof

def State.withFw (s : State) (f : Fw) : State := { s with fw := f }

/-! ### Records without a stated kind (log entry 44) -/

/-- Events whose record the spec names and does not lay out. -/
inductive Told where
  | retire | wearStage | pfailStuck | sleepAbandoned | sanitizeCount | thermal | regulator | bringUp | dieLost | stripeLost
  | mapLost | mismatch | mismatchOpen | assayAlarm | vcore | crystalLost | dramMoved | slotFallback | locketIndet
  | locketRefresh | trip | protection
  deriving DecidableEq, Repr

def Told.code : Told → Nat
  | .retire => 1 | .wearStage => 2 | .pfailStuck => 3 | .sleepAbandoned => 4 | .sanitizeCount => 5 | .thermal => 6
  | .regulator => 7 | .bringUp => 8 | .dieLost => 9 | .stripeLost => 10 | .mapLost => 11 | .mismatch => 12
  | .mismatchOpen => 13 | .assayAlarm => 14 | .vcore => 15 | .crystalLost => 16 | .dramMoved => 17 | .slotFallback => 18
  | .locketIndet => 19 | .locketRefresh => 20 | .trip => 21 | .protection => 22

def State.tell (s : State) (sev : Nat) (e : Told) (arg : Nat) : State :=
  s.logFw sev (Config.recordCore e.code % 54) (Config.recordKind e.code) (Config.recordBody e.code arg)

/-- A Security record of Signet (R549, R561): kind 0x0006, its body by event. -/
def State.secRecord (s : State) (event arg : Nat) : State :=
  s.logAll [⟨7, false, true, false, 112, 0x0006, Config.recordBody (100 + event) arg⟩]

/-! ### Map updates (R217, R220) -/

/-- A page becomes dirty now, unless it is already (R212). -/
def State.noteDirty (s : State) (mpn : Nat) : State :=
  if (tget s.fw.dirtySince mpn).isSome then s
  else s.withFw { s.fw with dirtySince := tput s.fw.dirtySince mpn s.now }

/-- The owner stores an entry and marks its page dirty; a resident page's frame takes it too (R207, R217). A page that is loading
or being copied out takes it when that ends. -/
def State.setEntry (s : State) (key e : Nat) : State :=
  let mpn := key / 1024
  let s := (s.buildPage mpn).noteDirty mpn
  let s := s.withFw { s.fw with entries := tput s.fw.entries key e }
  match s.findPage mpn with
  | some f =>
    let fr := s.frame f
    if fr.busy then s
    else
      let a := s.frameAddr f + key % 1024 * 8
      let s := (s.withMem (s.mem.writeDouble a e false)).encode a
      s.setFrame f { fr with dirty := true }
  | none => s

/-! ### The journal (R221, R222) -/

def State.journal (s : State) (r : JRec) : State :=
  s.withFw { s.fw with
    jOldest := if s.fw.jWait.isEmpty then s.now else s.fw.jOldest
    jWait := s.fw.jWait ++ [r] }

/-- An early flush is asked for (R151, R166, R222). -/
def State.wantFlush (s : State) : State := s.withFw { s.fw with jEarly := true }

/-- A record as its 32 bytes (R221). -/
def JRec.bytes : JRec → List Byte
  | .nop => bytesOf 0 32
  | .unit ns cond old seq u e =>
    bytesOf 1 1 ++ bytesOf ns 1 ++ bytesOf (b2n cond) 1 ++ bytesOf (if cond then old else 0) 5 ++ bytesOf seq 8 ++ bytesOf u 6 ++
      bytesOf 0 2 ++ bytesOf e 8
  | .range ns kind count seq first e =>
    bytesOf 2 1 ++ bytesOf ns 1 ++ bytesOf kind 1 ++ bytesOf 0 1 ++ bytesOf count 4 ++ bytesOf seq 8 ++ bytesOf first 6 ++
      bytesOf 0 2 ++ bytesOf e 8
  | .mapPage mpn seq e => bytesOf 3 1 ++ bytesOf 0 3 ++ bytesOf mpn 4 ++ bytesOf seq 8 ++ bytesOf 0 8 ++ bytesOf e 8
  | .frontier use ppa => bytesOf 4 1 ++ bytesOf 0 1 ++ bytesOf use 1 ++ bytesOf 0 21 ++ bytesOf ppa 5 ++ bytesOf 0 3
  | .block st use ppa => bytesOf 5 1 ++ bytesOf 0 1 ++ bytesOf st 1 ++ bytesOf use 1 ++ bytesOf 0 20 ++ bytesOf ppa 5 ++ bytesOf 0 3
  | .snapshot done seq ppa =>
    bytesOf 6 1 ++ bytesOf 0 1 ++ bytesOf (b2n done) 1 ++ bytesOf 0 5 ++ bytesOf seq 8 ++ bytesOf 0 8 ++ bytesOf ppa 5 ++ bytesOf 0 3
  | .nspace ns gone base units =>
    bytesOf 7 1 ++ bytesOf ns 1 ++ bytesOf (b2n gone) 1 ++ bytesOf 0 1 ++ bytesOf base 4 ++ bytesOf 0 8 ++ bytesOf units 6 ++ bytesOf 0 10
  | .checkpoint clean flush seq =>
    bytesOf 8 1 ++ bytesOf 0 1 ++ bytesOf (b2n clean) 1 ++ bytesOf 0 1 ++ bytesOf flush 4 ++ bytesOf seq 8 ++ bytesOf 0 16

def State.stripeJournal (s : State) (r : SRec) : State :=
  s.withFw { s.fw with stripes := s.fw.stripes ++ [r] }

/-- A range's entry in each unit (R200, R218, R219). -/
def rangeEntry (kind seq : Nat) : Nat :=
  if kind = 0 then mkEntry 0 true false false false seq
  else if kind = 1 then mkEntry 1 true false false false seq
  else mkEntry 0 false true false false seq

/-- The frontiers that a list of records makes durable. -/
def durableFrontiers (t : Tab Nat) (l : List JRec) : Tab Nat :=
  l.foldl (fun t r => match r with
    | .frontier _ p => tput t (blockOf p) p
    | _ => t) t

/-! ### Sequence numbers (R203, R204, R257) -/

/-- The numbers of a portion of `n` units, in unit order, and the state with the counter advanced (R257). -/
def State.takeSeqs (s : State) (n : Nat) : State × List Nat :=
  let c := s.fw.seqC
  if n ≤ 1 then (s.withFw { s.fw with seqC := (c + 2) % 2 ^ 64, seqTop := c ||| 1 }, [c ||| 1])
  else
    let base := (c + 255) / 256 * 256
    (s.withFw { s.fw with seqC := (c + 512) % 2 ^ 64, seqTop := base + 2 * (n - 1) + 128 },
      (List.range n).map fun i => base + 2 * i + if i + 1 = n then 128 else 0)

/-- A single number for each of `n` units (R203, R257). -/
def State.takeEach (s : State) : Nat → State × List Nat
  | 0 => (s, [])
  | n + 1 =>
    let r := s.takeSeqs 1
    let q := r.1.takeEach n
    (q.1, r.2 ++ q.2)

/-! ### Units as stored (R202) -/

/-- The 4 doubles of a tag without its CRC: sequence number, LBA field, namespace index, kind, stripe. -/
def tagBytes (seq lba ns kind stripe : Nat) : List Byte :=
  bytesOf seq 8 ++ bytesOf lba 6 ++ bytesOf ns 1 ++ bytesOf kind 1 ++ bytesOf stripe 4 ++ bytesOf 0 8

/-- The 524 doubles of a unit with its tag and the tag's CRC (R202). -/
def mkUnit (data hmeta : List Word) (seq lba ns kind stripe : Nat) : List Word :=
  let body := ((List.range 512).map fun i => data.getD i 0#64) ++ (List.range 8).map fun i => hmeta.getD i 0#64
  let bytes := unitBytes body ++ tagBytes seq lba ns kind stripe
  wordsOf (bytes ++ bytesOf (crc32c bytes).toNat 4) 524

/-- A copy as another kind in another stripe: only kind, stripe number and CRC differ (R203). -/
def reKind (u : List Word) (kind stripe : Nat) : List Word :=
  mkUnit (uData u) (uMeta u) (uSeq u) (uLba u) (uNs u) kind stripe

/-- The tag check of a read against the map entry (R205). -/
def tagGood (w : List Word) (k u e : Nat) : Bool :=
  tagCrcGood (unitBytes w) && uKind w ≤ 2 && uLba w == u && uNs w == k && uSeq w % 65536 == entSeq e

/-! ### Blocks (R230, R231, R243, R244) -/

def BlockRec.fresh : BlockRec :=
  { erases := 0, state := 0, use := 0, ew := false, ewPrev := false, wear := 0, reads := 0, lastSlc := false, programmed := false
    ewPages := [], rebuilt := [], pooled := false, erasedRec := false, erasedSeq := 0, durable := none, ignoreRead := false, marked := false }
def State.blk (s : State) (b : Nat) : BlockRec := tgetD s.fw.blocks b BlockRec.fresh
def State.setBlk (s : State) (b : Nat) (r : BlockRec) : State :=
  s.withFw { s.fw with blocks := tput s.fw.blocks b r }

/-- An erase attempt is counted, complete or not (R231). -/
def BlockRec.attempt (r : BlockRec) : BlockRec :=
  { r with erases := min (r.erases + 1) (2 ^ 24 - 1)
           wear := min (r.wear + if r.programmed && !r.lastSlc then 10 else 2) (2 ^ 32 - 1) }

/-- An erase attempt begins: it is counted, and a block that waited for it is erasing (R230, R231, R233, R244). -/
def State.eraseBegins (s : State) (b : Nat) : State :=
  let r := s.blk b
  s.setBlk b { r.attempt with
    state := if r.state == 4 || r.state == 5 || (r.state == 0 && !r.pooled) then 1 else r.state
    ignoreRead := r.ignoreRead || r.state == 5 }

/-- An erase that succeeded: the block is empty, and free if it was erasing, with `EW` passed on to `EWPREV` (R230 to R232). -/
def State.blockErased (s : State) (b : Nat) : State :=
  let r := s.blk b
  let s := s.setBlk b { r with
    state := if r.state = 1 then 0 else r.state, pooled := r.state == 1 || r.pooled, erasedSeq := s.fw.seqC
    reads := 0, ewPrev := r.ew, ew := false, programmed := false, ewPages := [], rebuilt := [], marked := false }
  s.withFw { s.fw with
    flash := s.fw.flash.filter fun e => blockOf e.1 != b, released := s.fw.released.filter (· != b) }

/-- The block table record as its two words (R230). -/
def BlockRec.words (r : BlockRec) : List Nat :=
  [r.erases % 2 ^ 24 + r.state * 2 ^ 24 + r.use * 2 ^ 28 + b2n r.ew * 2 ^ 31 + b2n r.ewPrev * 2 ^ 32,
    r.wear % 2 ^ 32 + min (r.reads / 64) 65535 * 2 ^ 32]

def State.rawBlocks (s : State) : Nat := s.fw.dies * s.fw.planes * s.fw.blocksPer
def State.dieLost (s : State) (d : Nat) : Bool := (tget s.fw.lostDies d).isSome

/-- Blocks in a state on dies that are not lost. -/
def State.blocksIn (s : State) (st : Nat) : Nat :=
  countIf (fun (e : Nat × BlockRec) => e.2.state == st && !s.dieLost (dieOfBlock e.1)) s.fw.blocks

/-- Good blocks: neither factory bad, retired nor on a lost die (R245; log entry 45). -/
def State.goodBlocks (s : State) : Nat :=
  s.rawBlocks - s.fw.lostDies.length * s.fw.planes * s.fw.blocksPer - s.fw.factoryBad - s.blocksIn 6 - s.blocksIn 7

/-! ### The reserve (R245, R246, R249) -/

/-- Units of a namespace: format 5 has eight LBAs to a unit (R195). -/
def Namespace.units (n : Namespace) : Nat := if n.format = 5 then ceilDiv n.lbas 8 else n.lbas

def State.allocatedUnits (s : State) : Nat := sumOf (fun (e : Nat × Namespace) => e.2.units) s.ns

/-- `committed` for a total of allocated units (R245). -/
def State.committed (s : State) (units : Nat) : Nat :=
  committedBlocks s.rawBlocks s.fw.wordlines s.fw.shapeK units

def State.reserveFor (s : State) (units : Nat) : Int := Int.ofNat s.goodBlocks - Int.ofNat (s.committed units)
def State.reserve (s : State) : Int := s.reserveFor s.allocatedUnits

/-- The reserve is below a share of raw blocks, in thousandths. -/
def State.belowShare (s : State) (r : Int) (permille : Nat) : Bool := decide (r * 1000 < Int.ofNat (permille * s.rawBlocks))

def State.availableSpare (s : State) : Nat :=
  if s.fw.initialReserve = 0 then 0 else min 100 ((100 * s.reserve.toNat) / s.fw.initialReserve)

/-- The mean `WEAR` of good, non-retired blocks (R249). -/
def State.meanWear (s : State) : Nat :=
  let l := s.fw.blocks.filter fun e => e.2.state != 6 && e.2.state != 7 && !s.dieLost (dieOfBlock e.1)
  if s.goodBlocks = 0 then 0 else sumOf (fun (e : Nat × BlockRec) => e.2.wear) l / s.goodBlocks

def State.percentageUsed (s : State) : Nat :=
  if s.fw.ratedCycles = 0 then 255 else min 255 (100 * s.meanWear / (10 * s.fw.ratedCycles))

/-! ### Bands (R229, R232, R363, R390) -/

def State.band (s : State) (n : Nat) : Option Band := tget s.fw.bands n
def State.setBand (s : State) (n : Nat) (b : Band) : State := s.withFw { s.fw with bands := tput s.fw.bands n b }

/-- The band that holds a block and is not released. -/
def State.bandOf (s : State) (b : Nat) : Option (Nat × Band) :=
  s.fw.bands.find? fun e => e.2.state != 2 && e.2.blocks.contains b

/-- A block of the free pool (R232). -/
def BlockRec.inPool (r : BlockRec) : Bool := r.state == 0 && r.pooled

/-- The mean `WEAR` of the free pool over some dies (R237). -/
def State.poolWear (s : State) (dies : List Nat) : Nat :=
  let l := s.fw.blocks.filter fun e => e.2.inPool && dies.contains (dieOfBlock e.1)
  if l.isEmpty then 0 else sumOf (fun (e : Nat × BlockRec) => e.2.wear) l / l.length

/-- The shape of bands that open now: the target while a reshape is planned or moving (R361, R393). -/
def State.openShape (s : State) : Nat := if s.fw.reshapeState = 0 then s.fw.shapeK else s.fw.reshapeK

/-- Pages of a block in its mode (R198, R230). -/
def State.pagesOf (s : State) (r : BlockRec) : Nat := if r.lastSlc then s.fw.wordlines else 3 * s.fw.wordlines

/-- A band closes: its blocks take no further program (R229, R235). -/
def State.closeBand (s : State) (n : Nat) : State :=
  match s.band n with
  | none => s
  | some bd =>
    let s := bd.blocks.foldl (fun (t : State) b =>
      let r := t.blk b
      let t := if r.state = 2 then t.setBlk b { r with state := 3 } else t
      let t := t.withFw { t.fw with frontier := tdel t.fw.frontier b }
      if r.state = 2 then t.journal (.block 1 bd.use (blockPpa b)) else t) s
    let cap := sumOf (fun b => 4 * s.pagesOf (s.blk b)) bd.blocks
    s.setBand n { bd with state := 1, closedHours := s.hours, wearAtClose := s.poolWear (bd.blocks.map dieOfBlock), capacity := cap }

/-- A unit's place is stale: its band's hint counts down (R235). -/
def State.stale (s : State) (ppa : Nat) : State :=
  match s.bandOf (blockOf ppa) with
  | some (n, bd) => s.setBand n { bd with valid := bd.valid - 1 }
  | none => s
def State.fresh (s : State) (ppa : Nat) : State :=
  match s.bandOf (blockOf ppa) with
  | some (n, bd) => s.setBand n { bd with valid := bd.valid + 1 }
  | none => s

/-- Cached and mirrored copies of a unit go when it gets a new entry (R241, R242). -/
def State.dropCopies (s : State) (k u : Nat) : State :=
  let s := (s.fw.hot.filter fun h => h.ns == k && h.unit == u).foldl (fun t h => t.releaseBead h.bead) s
  s.withFw { s.fw with
    hot := s.fw.hot.filter fun h => !(h.ns == k && h.unit == u)
    mirrors := s.fw.mirrors.filter fun m => !(m.ns == k && m.unit == u)
    lostUnits := s.fw.lostUnits.filter fun l => !(l.ns == k && l.unit == u) }

/-- A unit gets a new entry (R217, R235, R241). -/
def State.newEntry (s : State) (k u e : Nat) : State :=
  match s.entryKey k u with
  | none => s
  | some key =>
    let old := s.entryAt key
    let s := if entWritten old then s.stale (entPpa old) else s
    let s := (s.setEntry key e).dropCopies k u
    if entWritten e then s.fresh (entPpa e) else s

/-- An unconditional update of a unit's entry, with its record (R217, R221). -/
def State.updateUnit (s : State) (k u seq e : Nat) : State :=
  if (s.entryKey k u).isSome then (s.newEntry k u e).journal (.unit k false 0 seq u e) else s

/-- A conditional update (R216): the new location is installed only if the entry still holds the old one; the record goes to
the journal in either case. -/
def State.moveUnit (s : State) (k u oldPpa seq e : Nat) : State :=
  match s.entryKey k u with
  | none => s
  | some key =>
    let old := s.entryAt key
    let s := s.journal (.unit k true oldPpa seq u e)
    if entWritten old && entPpa old == oldPpa then
      let s := s.stale oldPpa
      ((s.setEntry key e).dropCopies k u).fresh (entPpa e)
    else s

/-! ### Ranges (R151, R218 to R220) and the end of a flush -/

/-- The whole units in a run of blocks: first unit and count (R195, R218). -/
def wholeUnits (fmt lba blocks : Nat) : Nat × Nat :=
  if fmt = 5 then ((lba + 7) / 8, (lba + blocks) / 8 - (lba + 7) / 8) else (lba, blocks)

/-- A whole map page inside a range: its mark is set, without paging it in, and a resident page is updated (R220). `u0` is its
first unit. -/
def State.rangePage (s : State) (k u0 mpn e : Nat) : State :=
  let listed := s.fw.entries.filter fun x => x.1 / 1024 == mpn
  let s := listed.foldl (fun (t : State) x =>
    let t := if entWritten x.2 then t.stale (entPpa x.2) else t
    t.dropCopies k (u0 + x.1 % 1024)) s
  let s := s.noteDirty mpn
  let s := s.withFw { s.fw with
    entries := s.fw.entries.filter fun x => x.1 / 1024 != mpn
    dealloc := tput s.fw.dealloc mpn e }
  match s.findPage mpn with
  | some f => if (s.frame f).busy then s else s.putFrame mpn true
  | none => s

/-- A range takes effect: whole pages by their marks, the units of the partial pages at its ends one by one; Write Uncorrectable
unit by unit (R218 to R220). -/
def State.applyRange (s : State) (k kind first count e : Nat) : State :=
  match tget s.ns k with
  | none => s
  | some n =>
    let stop := first + count
    (List.range (ceilDiv stop 1024 - first / 1024)).foldl (fun (t : State) i =>
      let p := first / 1024 + i
      let lo := max first (1024 * p)
      let hi := min stop (1024 * p + 1024)
      if hi - lo == 1024 && kind != 2 then t.rangePage k (1024 * p) (n.base + p) e
      else (List.range (hi - lo)).foldl (fun (t : State) j => t.newEntry k (lo + j) e) t) s

/-- Something of the command with this order number still waits for its commit point. -/
def State.orderWaits (s : State) (o : Nat) : Bool :=
  (s.fw.staging.any fun w => w.order == o) || (s.fw.direct.any fun l => l.any fun w => w.order == o) ||
    (s.fw.placed.any fun x => x.1.order == o) || s.fw.ranges.any fun r => r.order == o

/-- The command completes once all its portions have reached their commit points (R153). -/
def State.slotDone (s : State) (o : Nat) : State :=
  if s.orderWaits o then s
  else match s.hqe.slots.find? fun (e : Nat × Slot) => decide (e.2.order = o) with
    | some (k, e) => if e.completion.isSome then s else s.complete k 0 0 0
    | none => s

/-- Units and ranges of a command that wait. -/
def State.waitingOf (s : State) (o : Nat) : Nat :=
  countIf (fun (w : Waiting) => w.order == o) (s.fw.staging ++ s.fw.direct.flatten ++ s.fw.placed.map (·.1)) +
    countIf (fun (r : RangeOp) => r.order == o) s.fw.ranges

/-- A command ends with this status whatever else it met. -/
def State.orderEnds (s : State) (o st : Nat) : State :=
  match s.hqe.slots.find? fun (e : Nat × Slot) => decide (e.2.order = o) with
  | some (k, e) => s.setSlot k { e with readFail := some (0, st) }
  | none => s

/-- A failure of a unit of a command stands in place of success; that of the lowest unit counts (R143, R172). -/
def Slot.failsAt (e : Slot) (unit st : Nat) : Slot :=
  { e with readFail := match e.readFail with
      | some x => if unit < x.1 then some (unit, st) else some x
      | none => some (unit, st) }

/-- A command ends with this status in place of success. -/
def State.orderFails (s : State) (o st : Nat) : State :=
  match s.hqe.slots.find? fun (e : Nat × Slot) => decide (e.2.order = o) with
  | some (k, e) => s.setSlot k (e.failsAt (2 ^ 16) st)
  | none => s

/-- The valid host unit at a PPA: a unit whose map entry still holds this PPA (R236). -/
def State.validAt (s : State) (ppa : Nat) : Option (Nat × Nat × Nat) :=
  match tget s.fw.flash ppa with
  | none => none
  | some w =>
    if uKind w ≤ 2 then
      match s.entryKey (uNs w) (uLba w) with
      | some key =>
        let e := s.entryAt key
        if entWritten e && entPpa e == ppa then some (uNs w, uLba w, e) else none
      | none => none
    else none

/-! ### Loss counts and health (R381) -/

/-- Where a PPA stands in its band, if its page belongs to a stripe. -/
def State.spotOf (s : State) (ppa : Nat) : Option StripeSpot :=
  match s.bandOf (blockOf ppa) with
  | none => none
  | some (n, bd) =>
    let d := dieOfBlock (blockOf ppa)
    let row := rowOf ppa
    let l := (bd.layoutAt n row).1
    match l.findIdx? fun ds => ds.contains d with
    | none => none
    | some j =>
      let ds := l.getD j []
      some ⟨n, bd, row, j, ds, (ds.findIdx? (· == d)).getD 0⟩

/-- Members of a stripe on lost dies (R381). -/
def State.lossCount (s : State) (dies : List Nat) : Nat := countIf (fun d => s.dieLost d) dies

/-- A page table names the unit at a PPA as half of a map page (R206). -/
def tableNames (t : Tab Nat) (ppa : Nat) : Bool :=
  t.any fun e => e.2 / 2 ^ 40 % 2 == 0 && (e.2 % 2 ^ 40 == ppa || e.2 % 2 ^ 40 + 1 == ppa)

/-- The unit at a PPA is valid: a host unit whose entry holds the PPA, half of a map page that the page table names, a journal
unit that is kept (R223), parity that recovery wrote afresh (R267), or a unit in the band of a kept snapshot (R264). -/
def State.holdsValid (s : State) (ppa : Nat) : Bool :=
  (s.validAt ppa).isSome || tableNames s.fw.pageTab ppa || (s.fw.jUnits.any fun u => u.1 == ppa) ||
    (s.fw.reparity.any fun e => e.2.contains ppa) ||
    s.fw.snaps.any fun x => x.complete && (((s.band x.band).map (·.blocks)).getD []).contains (blockOf ppa)

/-- The health level that the losses call for: Critical while a stripe that holds a valid unit has two or more members on lost
dies, Degraded while one has one (R381). -/
def State.lossLevel (s : State) : Nat :=
  if s.fw.lostDies.isEmpty then 2
  else
    let counts := s.fw.flash.filterMap fun e =>
      if s.holdsValid e.1 then (s.spotOf e.1).map fun x => s.lossCount x.dies else none
    if counts.any (2 ≤ ·) then 4 else if counts.any (1 ≤ ·) then 3 else 2

/-- The level that applies: Read-Only first (R39, R251, R253). -/
def State.dueHealth (s : State) : Nat :=
  let h := s.fld fARC_MODE_HEALTH
  let r := s.reserve
  if h = 5 then (if s.belowShare r 8 then 5 else s.lossLevel)
  else if s.belowShare r 6 then 5 else s.lossLevel

/-- Firmware requests the level that applies (R251, R253, R381). -/
def State.checkHealth (s : State) : State :=
  let cur := s.fld fARC_MODE_CUR
  if cur = 0 ∨ cur = 1 ∨ cur = 0xB then s
  else if s.dueHealth = s.fld fARC_MODE_HEALTH then s
  else s.modeRequest 0 s.dueHealth

/-- The first row of a band of which nothing is programmed, at the start of a wordline. -/
def State.nextRow (s : State) (bd : Band) : Nat :=
  let top := (bd.blocks.map fun b => (tget s.fw.frontier b).elim 0 rowOf).foldl max 0
  if slcUse bd.use then top else ceilDiv top 3 * 3

/-- The open bands of a die go on without it, from the next wordline on (R254, R369). -/
def State.leaveBands (s : State) (d : Nat) (p : Nat → Bool) : State :=
  s.withFw { s.fw with bands := s.fw.bands.map fun e =>
    (e.1, if e.2.state == 0 && e.2.blocks.any (fun b => dieOfBlock b == d && p b) && (tget e.2.gone d).isNone then
      { e.2 with gone := tput e.2.gone d (s.nextRow e.2) } else e.2) }

/-- A die is gone: open bands go on without it, with a `LOSS` record; its entries of Assay are frozen (R352, R369,
R380). -/
def State.dieGone (s : State) (d cause : Nat) : State :=
  let s := s.withFw { s.fw with
    lostDies := tput s.fw.lostDies d cause, lostHours := tput s.fw.lostHours d s.hours
    offlineAt := tdel s.fw.offlineAt d
    rebuildAt := match s.fw.rebuildAt with | some h => some h | none => some s.hours
    served := if s.fw.rebuildAt.isSome then s.fw.served else [] }
  ((s.freezeDie d true).leaveBands d fun _ => true).stripeJournal (.loss cause d s.hours)

/-- A die is lost: it is gone, with an Error record, and the health level follows (R380, R381, R438). -/
def State.loseDie (s : State) (d cause : Nat) : State :=
  if s.dieLost d then s else ((s.dieGone d cause).faultNow 0x07 (d / 16) false true).checkHealth

/-- A block is retired, with its record and a Notice record; a die beyond 10 % of its blocks is lost (R243, R251). -/
def State.retire (s : State) (b : Nat) : State :=
  let r := s.blk b
  if r.state = 6 then s
  else
    let s := (s.setBlk b { r with state := 6 }).leaveBands (dieOfBlock b) (· == b)
    let s := s.withFw { s.fw with
      retiredEver := s.fw.retiredEver + 1, retiredAt := s.hours :: s.fw.retiredAt
      frontier := tdel s.fw.frontier b, released := s.fw.released.filter (· != b) }
    let s := s.journal (.block 3 r.use (blockPpa b))
    let s := s.tell 2 .retire b
    let d := dieOfBlock b
    let n := countIf (fun (e : Nat × BlockRec) => e.2.state == 6 && dieOfBlock e.1 == d) s.fw.blocks
    let s := if s.fw.planes * s.fw.blocksPer < 10 * n then s.loseDie d 2 else s
    s.checkHealth

/-- A block becomes erase-indeterminate; `begun` says that its interrupted attempt is counted already (R231, R244). -/
def State.eraseIndet (s : State) (b : Nat) (begun : Bool) : State :=
  let r := s.blk b
  let s := s.setBlk b { (if begun then r else r.attempt) with state := 5 }
  let s := s.withFw { s.fw with indetEver := s.fw.indetEver + 1 }
  s.journal (.block 4 r.use (blockPpa b))

/-- A host unit is lost beyond the masked set (R387): its entry is poisoned and it is listed in page 0xC4, under a fresh
sequence number (log entry 158), with one Critical record for each stripe. -/
def State.loseUnit (s : State) (k u cause stripe : Nat) : State :=
  match s.entryKey k u with
  | none => s
  | some _ =>
    let told := s.fw.lostUnits.any fun l => l.stripe == stripe
    let r := s.takeSeqs 1
    let seq := r.2.headD 0
    let s := r.1.updateUnit k u seq (mkEntry 1 false true false false seq)
    let s := s.withFw { s.fw with
      lostEver := s.fw.lostEver + 1
      lostUnits := if s.fw.lostUnits.length < 4092 then s.fw.lostUnits ++ [⟨k, u, cause, s.hours, stripe⟩] else s.fw.lostUnits }
    if told then s else s.tell 5 .stripeLost stripe

/-- Released blocks: the record is written and the block waits for its erase (R229, R233, R262). -/
def State.releaseBand (s : State) (n : Nat) : State :=
  match s.band n with
  | none => s
  | some bd =>
    let s := bd.blocks.foldl (fun (t : State) b =>
      let r := t.blk b
      if r.state = 6 ∨ r.state = 7 then t
      else if (r.ew && r.ewPrev) || 2 ≤ r.rebuilt.length then (t.retire b)
      else
        let t := t.setBlk b { r with state := 4 }
        let t := t.journal (.block 2 bd.use (blockPpa b))
        t.withFw { t.fw with released := t.fw.released ++ [b] }) s
    let s := s.setBand n { bd with state := 2 }
    -- mirrors that lie in the band go (R242)
    let s := s.withFw { s.fw with
      bandReleased := true, mirrors := s.fw.mirrors.filter fun m => !bd.blocks.contains (blockOf m.ppa)
      reparity := s.fw.reparity.filter fun e => e.1 / 2 ^ 19 != n }
    s.stripeJournal (.released n)

/-- The released record of a block is durable (R262). -/
def State.releaseDurable (s : State) (b : Nat) : Bool := (s.blk b).durable == some 2

end Sys2Proof.Machine
end

