-- ==== Sys2Proof/Machine/LocketOps.lean ====
section
/-! DEFINITION. Locket: the ports' command sequences, programs, erases and their suspension, reads, checks and warnings
(R510 to R526; log entries 50 and 51). -/

namespace Sys2Proof.Machine

open Sys2Proof

/-! ### Array (R510, R511, R518) -/

def LkWord.erased : LkWord := ⟨BitVec.allOnes 128, false, false⟩
def LkSector.fresh : LkSector := ⟨0, false, 0⟩
def State.lkWord (s : State) (cw : Nat) : LkWord := tgetD s.lkt.words cw LkWord.erased
def State.lkSector (s : State) (k : Nat) : LkSector := tgetD s.lkt.sectors k LkSector.fresh
def State.withLkt (s : State) (l : Lkt) : State := { s with lkt := l }

/-- The sector of a codeword: 256 codewords each (R510). -/
def lkSectorOf (cw : Nat) : Nat := cw / 256

/-- A Facet load may not read the partitions of factory secrets and security state (R511). -/
def lkHidden (sector : Nat) : Bool := 8 ≤ sector && sector < 0x80

/-- Port F writes the firmware store, port S what Signet writes; port 2 is the event recorder's (R511, R514). -/
def lkWrites (port sector : Nat) : Bool :=
  if port = 0 then 0xF0 ≤ sector && sector < 0x100
  else if port = 1 then sector < 0x80 || (0xE0 ≤ sector && sector < 0xF0) || 0x100 ≤ sector
  else 0x80 ≤ sector && sector < 0xE0

/-- The sector is being erased, running or suspended (R513). -/
def State.lkErasing (s : State) (sector : Nat) : Bool :=
  match s.lkt.erase with
  | some e => e.sector == sector
  | none => false

/-! ### Notices and warnings (R520, R525) -/

def State.lkNotice (s : State) (event word : Nat) : State :=
  if s.flag fLKT_NOTE_EN then
    s.hwSend epDevice (s.fld fLKT_NOTE_DST) (s.fld fLKT_NOTE_MBX) 0x1B0 (payloadOf [(0, 1, event), (8, 8, word)])
  else s

/-- A read of a codeword that corrects `cbits` bits, or is uncorrectable or torn (R520). -/
def State.lkReport (s : State) (cw cbits : Nat) (ue : Bool) : State :=
  if ue || s.fld fLKT_EW_THRESH ≤ cbits then
    let s := if ue then s.incSat fLKT_EW_UE else s.incSat fLKT_EW_WARNS
    let s := if s.flag fLKT_RDLOG_VALID then s else
      (((s.setFld fLKT_RDLOG_CW cw).setFld fLKT_RDLOG_CBITS cbits).setFld fLKT_RDLOG_UE (b2n ue)).setFld fLKT_RDLOG_VALID 1
    s.lkNotice (if ue then 3 else 2) (s.reg rLKT_RDLOG).toNat
  else s

/-- The corrected bits that an outcome of the code reports, and whether it is uncorrectable (R513). -/
def lkBits : Ecc → Nat × Bool
  | .clean => (0, false)
  | .corrected d => (max 1 (min 3 d.toNat), false)
  | .uncorrectable _ => (0, true)
  | .otherCopy _ => (0, true)

/-! ### Suspension (R517) -/

/-- The running erase has run for `MINRUN` since it began or last resumed, and `EN` = 1. -/
def State.lkMaySuspend (s : State) (e : LkErase) : Bool :=
  s.flag fLKT_ESUSP_EN && !e.suspended && s.fld fLKT_ESUSP_MINRUN * 1000 ≤ s.now - e.since

/-- The erase is suspended, and counted (R517). -/
def State.lkSuspend (s : State) (e : LkErase) : State :=
  let k := s.lkSector e.sector
  s.withLkt { s.lkt with
    erase := some { e with suspended := true, ran := e.ran + (s.now - e.since) }
    sectors := tput s.lkt.sectors e.sector { k with suspends := min (k.suspends + 1) 65535 } }

/-- A read of another sector suspends a running erase; it waits for `MINRUN` first (R517). -/
def State.lkReadSuspends (s : State) (sector : Nat) : State :=
  match s.lkt.erase with
  | some e => if e.sector != sector && !e.suspended && s.flag fLKT_ESUSP_EN then s.lkSuspend e else s
  | none => s

/-- What a read of a codeword delivers, with its effects: the 128 bits, and whether they are poisoned (R513, R518, R520). -/
def State.lkRead (s : State) (cw : Nat) (ecc : Ecc) : State × BitVec 128 × Bool :=
  let sec := lkSectorOf cw
  let w := s.lkWord cw
  if s.lkErasing sec then (s, BitVec.allOnes 128, true)
  else
    let s := s.lkReadSuspends sec
    let b := lkBits ecc
    let torn := w.begun && !w.done
    let t := s.lkReport cw b.1 (b.2 || torn)
    if (s.lkSector sec).indet then
      (t.tick, (freshWord t ++ freshWord t), b.2)
    else (t, w.data, b.2 || torn)

/-- A window load of the double at byte `off` of the array (R513). -/
def State.lkLoad (s : State) (off : Nat) (ecc : Ecc) : State × Nat × Bool :=
  let r := s.lkRead (off / 16) ecc
  (r.1, (r.2.1.toNat >>> (64 * (off / 8 % 2))) % 2 ^ 64, r.2.2)

/-! ### The recorder's pools (R554, R555) -/

/-- The pool of a severity. -/
def Evr.pool (e : Evr) (sev : Nat) : PPool :=
  if sev = 7 then e.poolSec else if sev = 6 then e.poolFatal else if sev = 5 then e.poolCrit else e.poolErr

/-- A pool changes, and `EVR_PPOOL` shows the records that it holds. -/
def State.setPool (s : State) (sev : Nat) (p : PPool) : State :=
  if sev = 7 then State.setFld { s with evr := { s.evr with poolSec := p } } fEVR_PPOOL_SEC p.recs.length
  else if sev = 6 then State.setFld { s with evr := { s.evr with poolFatal := p } } fEVR_PPOOL_FATAL p.recs.length
  else if sev = 5 then State.setFld { s with evr := { s.evr with poolCrit := p } } fEVR_PPOOL_CRIT p.recs.length
  else State.setFld { s with evr := { s.evr with poolErr := p } } fEVR_PPOOL_ERR p.recs.length

/-- The first sector of a pool, and how many it has. -/
def poolSector (sev : Nat) : Nat := if sev = 7 then 0x80 else if sev = 6 then 0x90 else if sev = 5 then 0xA0 else 0xB8
def poolSectors (sev : Nat) : Nat := if sev = 7 then 16 else if sev = 6 then 16 else if sev = 5 then 24 else 40

/-- The pool that a sector lies in, by its severity. -/
def poolOf (sector : Nat) : Nat := if sector < 0x90 then 7 else if sector < 0xA0 then 6 else if sector < 0xB8 then 5 else 4

/-- The codeword of a record's place (R554). -/
def poolWord (sev place word : Nat) : Nat := 256 * poolSector sev + 4 * place + word

/-- A sector that a record may enter: not erase-indeterminate, not being erased (R554). -/
def State.lkUsable (s : State) (sector : Nat) : Bool := !(s.lkSector sector).indet && !s.lkErasing sector

/-- The place of the next record of a severity: the pool's pointer, or the start of the next sector that may be entered. None
where no sector may, or where that place has been programmed since its sector was erased. -/
def State.copyPlace (s : State) (sev : Nat) : Option Nat :=
  let n := (s.evr.pool sev).next
  let m := poolSectors sev
  let places := n :: (List.range (m - 1)).map fun i => 64 * ((n / 64 + 1 + i) % m)
  (places.find? fun p => s.lkUsable (poolSector sev + p / 64)).filter fun p => !(s.lkWord (poolWord sev p 0)).begun

/-- The sectors that the recorder wants erased: the one after each pool's pointer, and the pointer's own where it is at its start
(R554). -/
def State.wantsErase (s : State) : Option Nat :=
  let dirty (k : Nat) : Bool := (s.lkSector k).indet || s.lkt.words.any fun (w : Nat × LkWord) => w.1 / 256 == k
  ([7, 6, 5, 4].flatMap fun sev =>
    let n := (s.evr.pool sev).next
    let b := poolSector sev
    (if n % 64 = 0 then [b + n / 64] else []) ++ [b + (n / 64 + 1) % poolSectors sev]).find? dirty

/-- The recorder's next operation, when its port is free and the supply is good: a codeword of the oldest pending copy, else an
erase (R554, R555). -/
def State.recorderOp (s : State) : State :=
  let ask (t : State) (o : LkOp) : State := t.withLkt { t.lkt with waiting := t.lkt.waiting ++ [o] }
  let word (t : State) (c : Copying) : State :=
    ask t ⟨2, 1, poolWord c.record.sev c.place c.word, BitVec.ofNat 128 (c.record.bytes.toNat >>> (128 * c.word))⟩
  let busy := s.lkt.waiting.any (fun o => o.port == 2) || s.lkt.program.any (fun o => o.port == 2)
  if busy || s.flag fLKT_VMON_VLKTLOW || s.fld fPWR_STAT_STATE == 1 || s.fld fPWR_STAT_STATE == 2 then s
  else match s.evr.copying, s.evr.copies with
  | some c, _ => word s c
  | none, l =>
    match l.head?.bind fun r => (s.copyPlace r.sev).map fun p => (⟨r, p, 0⟩ : Copying) with
    | some c =>
      let p := s.evr.pool c.record.sev
      let t := s.setPool c.record.sev { p with next := (c.place + 1) % (64 * poolSectors c.record.sev) }
      word { t with evr := { t.evr with copies := l.drop 1, copying := some c } } c
    | none =>
      if s.lkt.erase.isSome then s
      else match s.wantsErase with
      | some k => ask s ⟨2, 2, 256 * k, 0#128⟩
      | none => s

/-- A codeword of a copy is programmed: with the fourth the record is in its pool. One that fails leaves its place, and the record
takes another (R554; log entry 50). -/
def State.recorderWord (s : State) (good : Bool) : State :=
  match s.evr.copying with
  | none => s
  | some c =>
    if !good then State.showPending { s with evr := { s.evr with copies := c.record :: s.evr.copies, copying := none } }
    else if c.word < 3 then { s with evr := { s.evr with copying := some { c with word := c.word + 1 } } }
    else
      let p := s.evr.pool c.record.sev
      let t := s.setPool c.record.sev { p with recs := tput p.recs c.place c.record }
      State.showPending { t with evr := { t.evr with copying := none } }

/-- A sector of a pool is erased, or its erase was cut: its records are no longer in the pool (R518, R554). -/
def State.poolErased (s : State) (sector : Nat) : State :=
  let sev := poolOf sector
  let p := s.evr.pool sev
  s.setPool sev { p with recs := p.recs.filter fun (e : Nat × Record) => poolSector sev + e.1 / 64 != sector }

/-! ### Operations (R514 to R517, R521) -/

/-- The register ports are F and S; the recorder's port has no registers (R514), and what fails there is a program. -/
def State.lkEnd (s : State) (port result : Nat) (equal : Bool) : State :=
  if port < 2 then
    let s := (s.setFld (fLKT_STAT_BUSY port) 0).setFld (fLKT_STAT_RESULT port) result
    let s := s.setFld (fLKT_STAT_EQUAL port) (b2n equal)
    if port = 0 then s.lkNotice 1 (s.reg (rLKT_STAT 0)).toNat else s
  else if result = 3 ∨ result = 4 ∨ result = 5 ∨ result = 7 then s.recorderWord false
  else s

/-- The result with which a program is refused, if it is: 5 indeterminate, 4 torn, 3 already programmed (R516, R518). -/
def State.lkProgramRefused (s : State) (o : LkOp) : Option (Nat × Bool) :=
  let w := s.lkWord o.cw
  if (s.lkSector (lkSectorOf o.cw)).indet || s.lkErasing (lkSectorOf o.cw) then some (5, false)
  else if w.begun && !w.done then some (4, false)
  else if w.begun then some (3, w.data == o.data)
  else none

/-- A program starts: `BEGUN` is set and the data written (R516). -/
def State.lkStartProgram (s : State) (o : LkOp) : State :=
  match s.lkProgramRefused o with
  | some (r, eq) => s.lkEnd o.port r eq
  | none => s.withLkt { s.lkt with program := some o, words := tput s.lkt.words o.cw ⟨o.data, true, false⟩ }

/-- An erase starts: the attempt is counted (R517, R518). -/
def State.lkStartErase (s : State) (o : LkOp) : State :=
  let sec := lkSectorOf o.cw
  let k := s.lkSector sec
  s.withLkt { s.lkt with
    erase := some ⟨o.port, sec, false, 0, s.now⟩
    sectors := tput s.lkt.sectors sec { k with erases := min (k.erases + 1) (2 ^ 24 - 1), suspends := 0 } }

/-- Start the waiting operation of one port, if the array may take it now: one program or erase at a time, a program
suspending an erase; the recorder pauses its own (R514, R517, R555). -/
def State.lkRunPort (s : State) (port : Nat) : State :=
  match s.lkt.program, s.lkt.waiting.find? (·.port == port) with
  | none, some o =>
    let rest := s.lkt.waiting.filter fun x => x.port != port
    match s.lkt.erase with
    | none =>
      let t := s.withLkt { s.lkt with waiting := rest }
      if o.op = 2 then t.lkStartErase o else t.lkStartProgram o
    | some e =>
      if o.op = 2 then (s.withLkt { s.lkt with waiting := rest }).lkEnd port 6 false
      else if e.suspended then (s.withLkt { s.lkt with waiting := rest }).lkStartProgram o
      else if s.lkMaySuspend e || (port == 2 && e.port == 2) then ((s.withLkt { s.lkt with waiting := rest }).lkSuspend e).lkStartProgram o
      else s
  | _, _ => s

/-- Waiting operations start in the order S, event recorder, F (R514). -/
def State.lkRun (s : State) : State := ((s.lkRunPort 1).lkRunPort 2).lkRunPort 0

/-- A program or erase is asked for: refused outside the partitions and with the supply low, else it waits its turn
(R511, R514, R521). -/
def State.lkSubmit (s : State) (o : LkOp) : State :=
  if !lkWrites o.port (lkSectorOf o.cw) then s.lkEnd o.port 2 false
  else if s.flag fLKT_VMON_VLKTLOW then s.lkEnd o.port 11 false
  else
    let s := if o.port < 2 then s.setFld (fLKT_STAT_BUSY o.port) 1 else s
    (s.withLkt { s.lkt with waiting := s.lkt.waiting ++ [o] }).lkRun

/-- CHECK: the codeword, its count and its markers, without poison (R520). -/
def State.lkCheck (s : State) (port cw : Nat) (ecc : Ecc) : State :=
  if port = 0 && lkHidden (lkSectorOf cw) then s.lkEnd port 2 false
  else
    let w := s.lkWord cw
    let erasing := s.lkErasing (lkSectorOf cw)
    let r := s.lkRead cw ecc
    let b := lkBits ecc
    let s := (r.1.setReg (rLKT_DATA0 port) (r.2.1.truncate 64)).setReg (rLKT_DATA1 port) ((r.2.1 >>> 64).truncate 64)
    let s := (s.setFld (fLKT_STAT_CBITS port) b.1).setFld (fLKT_STAT_WRITTEN port) (b2n w.done)
    let s := s.setFld (fLKT_STAT_TORN port) (b2n (w.begun && !w.done))
    s.lkEnd port (if b.2 || erasing then 10 else 0) false

/-! ### The command sequence (R515) -/

/-- The sequence ends and the port relocks (R515). -/
def State.lkRelock (s : State) (port : Nat) : State := s.setFld (fLKT_STAT_SEQ port) 0
def State.lkSeqError (s : State) (port : Nat) : State :=
  ((s.lkRelock port).setFld (fLKT_STAT_RESULT port) 1).setFld (fLKT_STAT_EQUAL port) 0

/-- The sequence goes on to a further state. -/
def State.lkStep (s : State) (port st : Nat) : State :=
  (s.setFld (fLKT_STAT_SEQ port) st).withLkt { s.lkt with lastAt := tput s.lkt.lastAt port s.now }

/-- A store to a port register of a sequence by an endpoint: 0 `KEY`, 1 `CMD`, 2 `ADDR`, 3 `DATA0`, 4 `DATA1` (R515). A busy
port takes no store (log entry 51). -/
def State.lkStore (s : State) (port who reg : Nat) (v : Word) (ecc : Ecc) : State :=
  let q := s.fld (fLKT_STAT_SEQ port)
  if s.flag (fLKT_STAT_BUSY port) then s
  else if q != 0 && tgetD s.lkt.lastAt port 0 + 10000 < s.now then s.lkSeqError port
  else if reg = 0 then
    if q = 0 && v == 0x00000000A5C36E1D#64 then (s.lkStep port 1).setFld (fLKT_STAT_OWNER port) (if port = 0 then who else 0)
    else if q = 1 && v == 0x000000005A3C91E2#64 then s.lkStep port 2
    else s.lkSeqError port
  else if reg = 1 then
    if q = 2 && 1 ≤ bits v 0 4 && bits v 0 4 ≤ 3 then
      let s := s.lkStep port 3
      s.withLkt { s.lkt with op := tput s.lkt.op port (bits v 0 4) }
    else s.lkSeqError port
  else if reg = 2 then
    if q = 3 then
      let op := tgetD s.lkt.op port 0
      let cw := bits v 4 17
      if op = 1 then
        let s := s.lkStep port 4
        s.withLkt { s.lkt with addr := tput s.lkt.addr port cw }
      else
        let s := s.lkRelock port
        if op = 3 then s.lkCheck port cw ecc
        else if cw % 256 != 0 then s.lkEnd port 9 false
        else s.lkSubmit ⟨port, 2, cw, 0#128⟩
    else s.lkSeqError port
  else if reg = 3 then
    if q = 4 then
      let s := (s.lkStep port 5).setReg (rLKT_DATA0 port) v
      s.withLkt { s.lkt with d0 := tput s.lkt.d0 port v }
    else s.lkSeqError port
  else
    if q = 5 then
      let s := (s.lkRelock port).setReg (rLKT_DATA1 port) v
      s.lkSubmit ⟨port, 1, tgetD s.lkt.addr port 0, v ++ tgetD s.lkt.d0 port 0#64⟩
    else s.lkSeqError port

/-- The port that a register offset belongs to, and the register: `LKT_KEY` to `LKT_DATA1` (R524). -/
def lkPortReg (off : Nat) : Option (Nat × Nat) :=
  if off < 0x550000 ∨ 0x550100 ≤ off then none
  else
    let o := (off - 0x550000) % 0x80
    if o < 0x28 ∧ o % 8 = 0 then some ((off - 0x550000) / 0x80, o / 8) else none

/-- The port that an endpoint uses: S for Signet, F for cores (R514). -/
def lkPortOf (who : Nat) : Nat := if who = epSignet then 1 else 0

/-! ### Ends and supply (R516 to R521) -/

/-- The program in progress ends: verified, or failed and torn (R516). -/
def State.lkProgramDone (s : State) (verified : Bool) : State :=
  match s.lkt.program with
  | none => s
  | some o =>
    let w := s.lkWord o.cw
    let s := s.withLkt { s.lkt with program := none, words := tput s.lkt.words o.cw { w with done := verified } }
    let s := s.lkEnd o.port (if verified then 0 else 7) false
    (if o.port = 2 ∧ verified = true then s.recorderWord true else s).recorderOp.lkRun

/-- The running erase completes, or fails (R517, R518). -/
def State.lkEraseDone (s : State) (good : Bool) : State :=
  match s.lkt.erase with
  | none => s
  | some e =>
    if e.suspended then s
    else
      let k := s.lkSector e.sector
      let s := s.withLkt { s.lkt with
        erase := none
        words := if good then s.lkt.words.filter (fun x => lkSectorOf x.1 != e.sector) else s.lkt.words
        sectors := tput s.lkt.sectors e.sector { k with indet := !good } }
      let s := s.lkEnd e.port (if good then 0 else 8) false
      (if e.port = 2 ∧ good = true then s.poolErased e.sector else s).recorderOp.lkRun

/-- A suspended erase resumes when nothing has been pending; the recorder's while no copy is pending (R517, R555). -/
def State.lkEraseResume (s : State) : State :=
  match s.lkt.erase, s.lkt.program with
  | some e, none => if e.suspended && !(e.port == 2 && (s.evr.copying.isSome || !s.evr.copies.isEmpty)) then s.withLkt { s.lkt with erase := some { e with suspended := false, since := s.now } } else s
  | _, _ => s

/-- At sleep entry a running erase is suspended and left so (R523). -/
def State.lkSleep (s : State) : State :=
  match s.lkt.erase with
  | some e => if e.suspended then s else s.lkSuspend e
  | none => s

/-- A reset or power loss interrupts what is under way: a program leaves its codeword torn, an erase its sector
indeterminate (R516, R518). -/
def State.lkInterrupted (s : State) : State :=
  let secs := match s.lkt.erase with
    | some e => tput s.lkt.sectors e.sector { s.lkSector e.sector with indet := true }
    | none => s.lkt.sectors
  let s := match s.lkt.erase with
    | some e => if e.port = 2 then s.poolErased e.sector else s
    | none => s
  s.withLkt { s.lkt with program := none, erase := none, waiting := [], sectors := secs, lastAt := [], op := [], addr := [], d0 := [] }

/-- tACC for a VAON in mV, 0 where there is no operation (R519). -/
def lkTacc (vaon : Nat) : Nat :=
  if 750 ≤ vaon then 45 else if 730 ≤ vaon then 60 else if 713 ≤ vaon then 80 else 0

/-- `LOWMARGIN`: `WS` × 0.95 × `PERIOD` falls below the table value, times in ps (R519). -/
def State.lkMargin (s : State) : State :=
  s.setFld fLKT_WAIT_LOWMARGIN
    (b2n (decide (s.fld fLKT_WAIT_WS * s.fld fLKT_REF_PERIOD * 95 < lkTacc (s.fld fLKT_VMON_VAON) * 1000 * 100)))

/-- The wait states of R519's rule: 15 while the reference is not valid. -/
def lkWaitStates (valid : Bool) (period vaon : Nat) : Nat :=
  if !valid || period == 0 then 15 else max 1 (min 15 (ceilDiv (lkTacc vaon * 100000) (95 * period)))

/-- `LKT_SINFO` for the selected sector (R524, R525). -/
def State.lkInfo (s : State) : Word :=
  let k := s.fld fLKT_SSEL_SECT
  let e := s.lkSector k
  let run := match s.lkt.erase with | some x => x.sector == k && !x.suspended | none => false
  let sus := match s.lkt.erase with | some x => x.sector == k && x.suspended | none => false
  BitVec.ofNat 64 (e.erases + b2n e.indet * 2 ^ 24 + b2n run * 2 ^ 25 + b2n sus * 2 ^ 26 + e.suspends * 2 ^ 32)

end Sys2Proof.Machine
end

