-- ==== Sys2Proof/Machine/PsqOps.lean ====
section
/-! DEFINITION. Prong sequencers: requests and replies, scheduling of the LUNs, die operations, offline LUNs, training,
failure and the switch to a spare (R277 to R311). -/

namespace Sys2Proof.Machine

open Sys2Proof

/-! ### Accessors -/

/-- The endpoint of a sequencer (R20). -/
def psqEp (q : Nat) : Nat := 64 + q

/-- A LUN is offline: by a timeout, by force, or because its CE failed the last training (R283, R302, R310). -/
def State.lunOff (s : State) (q l : Nat) : Bool :=
  bit (s.reg (rPSQ_LUNOFF q)) l || bit (s.reg (rPSQ_LUNOFF q)) (16 + l) ||
    (s.flag (fPSQ_TRAIN_FAIL q) && !bit (s.reg (rPSQ_TRAIN q)) (4 + l / 4))

def PsqReq.lun (r : PsqReq) : Nat := ppaLun r.ppa
def PsqReq.isRead (r : PsqReq) : Bool := r.op == 1
def PsqReq.isErase (r : PsqReq) : Bool := r.op == 3
def PsqReq.slc (r : PsqReq) : Bool := r.flags % 2 == 1
def PsqReq.more (r : PsqReq) : Bool := r.flags / 2 % 2 == 1
def PsqReq.given (r : PsqReq) : Bool := r.flags / 4 % 2 == 1
def PsqReq.bead (r : PsqReq) (i : Nat) : Nat := r.beads.getD i 0xFFFF
/-- The slots of the mask, in mask order (R292). -/
def PsqReq.masked (r : PsqReq) : List Nat := (List.range 4).filter fun k => r.mask / 2 ^ k % 2 == 1

/-- The feature address of a LUN Set or Get Features (R293). -/
def PsqReq.feature (r : PsqReq) : Nat := r.args % 256

/-- `PSQ_STAT.ACTIVE` and the LUN registers show the shadow table (R310). -/
def State.psqView (s : State) (q : Nat) : State :=
  let e := s.sq q
  let s := s.setFld (fPSQ_STAT_ACTIVE q) e.shadow.length
  (List.range 16).foldl (fun (t : State) l =>
    let mine := e.shadow.filter fun r => r.lun == l
    let busy := mine.any fun r => r.phase == 1 || r.phase == 4
    let susp := mine.any fun r => r.phase == 2
    let waits := countIf (fun (r : PsqReq) => r.phase == 0 || r.phase == 3) mine
    let t := t.setFld (fPSQ_LUN_BUSY q l) (b2n busy)
    let t := t.setFld (fPSQ_LUN_ESUSP q l) (b2n susp)
    let t := t.setFld (fPSQ_LUN_QUEUED q l) (min 15 waits)
    t.setFld (fPSQ_LUN_OFF q l) (b2n (t.lunOff q l))) s

/-! ### Requests and replies (R292 to R295) -/

/-- A request as its message carries it (R292). -/
def parseReq (now : Nat) (m : Msg) : PsqReq :=
  let p := m.payload
  { op := pGet p 0 1, flags := pGet p 1 1, replyMbx := pGet p 2 1 % 16, replyEp := pGet p 3 1 % 128, ppa := pGet p 4 5
    mask := pGet p 9 1 % 16, senses := pGet p 10 1, selector := pGet p 11 1, tag := pGet p 12 4
    beads := (List.range 12).map fun i => pGet p (16 + 2 * i) 2
    args := pGet p 40 24, src := m.src, phase := 0, sensed := false, outFlags := 0, busyNs := 0, slots := [], offs0 := []
    clamped := false, retrimmed := false, acceptedAt := now, startedAt := 0, ran := 0 }

/-- The operation is one of R293. -/
def psqOpKnown (op : Nat) : Bool := (1 ≤ op && op ≤ 8) || (0x20 ≤ op && op ≤ 0x2F)

/-- The beads that a request's operation uses: those of the masked slots and aggressors of a `READ`, all of a program, bead 0
of `PARAM`, whatever a customer operation names (R293, R294, R324). -/
def PsqReq.usedBeads (r : PsqReq) : List Nat :=
  if r.op = 1 then r.masked.map r.bead ++ ((List.range 4).map fun k => r.bead (4 + k)).filter (· != 0xFFFF)
  else if r.op = 2 then (List.range (if r.slc then 4 else 12)).map r.bead
  else if r.op = 8 then [r.bead 0]
  else if 0x20 ≤ r.op then r.beads.filter (· != 0xFFFF)
  else []

/-- Each bead is granted to the source or, with flag [2], to the sequencer (R294). -/
def State.psqBeadsGranted (s : State) (q : Nat) (r : PsqReq) : Bool :=
  r.usedBeads.all fun b => s.granted b (if r.given then psqEp q else s.mailEp r.src)

/-- The fields of a request are invalid (R292, R293, R322; log entry 42). -/
def State.psqInvalid (s : State) (q : Nat) (r : PsqReq) : Bool :=
  !psqOpKnown r.op || 8 ≤ r.flags ||
    (r.op == 1 && (2 < r.senses || r.selector % 4 == 3 || 128 ≤ r.selector)) ||
    (r.op == 2 && !r.slc && ppaPage r.ppa % 3 != 0) ||
    (0x20 ≤ r.op && !s.flag (fPSQ_SIG_CUST q)) ||
    ppaChan r.ppa != s.fld (fPSQ_CTL_CHAN q)

/-- The status with which a request is answered before any bus activity, if it is: 0x07, 0x08 or 0x04 (R292 to R294,
R302, R306). -/
def State.psqRefused (s : State) (q : Nat) (r : PsqReq) : Option Nat :=
  if (s.sq q).lost then some 8
  else if s.psqInvalid q r then some 7
  else if s.lunOff q r.lun then some 4
  else if !s.psqBeadsGranted q r then some 7
  else none

/-- The reply to a request (R295): given beads pass to the reply endpoint first (R294). -/
def State.psqReply (s : State) (q : Nat) (r : PsqReq) (status delivered data : Nat) : State :=
  let s := if r.given then
      r.usedBeads.foldl (fun (t : State) b => if t.granted b (psqEp q) then t.giveBead b (t.mailEp r.replyEp) else t) s
    else s
  let p := payloadOf ([(0, 1, r.op), (1, 1, status), (2, 1, r.outFlags), (3, 1, q), (4, 5, r.ppa), (9, 1, delivered),
    (12, 4, r.tag), (40, 16, data), (56, 4, r.busyNs)] ++ r.beads.mapIdx fun i b => (16 + 2 * i, 2, b))
  (s.psqEvent q 0).hwSend (psqEp q) r.replyEp r.replyMbx 0x151 p

/-- A block whose erase ended without a status of its own stays out of the free pool until it is erased afresh (R233, R244; log entry
164). -/
def State.eraseCut (s : State) (b : Nat) : State := if (s.blk b).state = 1 then s.eraseIndet b true else s

/-- A request leaves the shadow table with its reply. -/
def State.psqEnd (s : State) (q : Nat) (r : PsqReq) (status delivered data : Nat) : State :=
  let e := s.sq q
  let s := s.setSq q { e with shadow := e.shadow.filter fun x => decide (x ≠ r) }
  let s := if r.isErase then s.eraseCut (blockOf r.ppa) else s
  (s.psqReply q r status delivered data).psqView q

/-- The island ends a request: its reply crosses the control clasp at once, or is held back until the clasp is CLOSED again
(R115, R118). -/
def State.psqFinish (s : State) (q : Nat) (r : PsqReq) (status delivered data : Nat) : State :=
  if s.psqReach q then s.psqEnd q r status delivered data
  else
    let e := s.sq q
    let h := { r with phase := 4 }
    s.setSq q { e with shadow := e.shadow.map fun x => if x = r then h else x, ended := e.ended ++ [(h, status, delivered, data)] }

/-- Replace a request of the shadow table. -/
def State.psqPut (s : State) (q : Nat) (old new : PsqReq) : State :=
  let e := s.sq q
  s.setSq q { e with shadow := e.shadow.map fun x => if x = old then new else x }

/-! ### Starting operations (R296, R297, R300) -/

/-- The offset selector that a read goes by (R322): with `BASE` 1 in place of 0 where the look-up was lost (R351). -/
def PsqReq.sel (r : PsqReq) : Nat := if r.noBase then r.selector + 1 else r.selector

/-- The offsets of every sense of a read, what the LUN holds after them, and whether one had to be written (R297, R323). -/
def State.readOffsets (s : State) (q chan : Nat) (r : PsqReq) : Tab Int × Bool :=
  let n := sensesOf r.senses
  let t := pageType r.slc r.ppa
  (List.range n).foldl (fun (a : Tab Int × Bool) i =>
    let o := (s.senseOffsets chan r.ppa t r.sel n i).1
    (s.levelsOf chan t).foldl (fun (b : Tab Int × Bool) k =>
      let key := r.lun * 8 + (k - 1)
      let v := o.getD (k - 1) 0
      if tget b.1 key = some v then b else (tput b.1 key v, true)) a) ((s.sq q).offsets, false)

/-- A request starts on its LUN. -/
def State.psqStart (s : State) (q : Nat) (r : PsqReq) (duringErase : Bool) : State :=
  let chan := s.fld (fPSQ_CTL_CHAN q)
  if r.isRead then
    let w := s.readOffsets q chan r
    let o := s.senseOffsets chan r.ppa (pageType r.slc r.ppa) r.sel (sensesOf r.senses) 0
    let any := (List.range (sensesOf r.senses)).any fun i =>
      (s.senseOffsets chan r.ppa (pageType r.slc r.ppa) r.sel (sensesOf r.senses) i).2
    let r' := { r with
      phase := 1, startedAt := s.now, offs0 := o.1, clamped := any, sensed := false
      slots := r.masked.map fun k => ⟨k, [], false, none, 0⟩
      outFlags := r.outFlags ||| (if w.2 then 4 else 0) ||| (if duringErase then 8 else 0) }
    let s := s.psqPut q r r'
    s.setSq q { s.sq q with offsets := w.1 }
  else
    let s := s.psqPut q r { r with phase := 1, startedAt := s.now }
    let s := if r.isErase then s.eraseBegins (blockOf r.ppa) else s
    if 0x20 ≤ r.op then s.setFld (fPSQ_STAT_PC q) (0xC00 + (r.op - 0x20) * 16) else s

/-- The running erase of a LUN has run for `MINRUN` since it began or last resumed (R286 condition 6). -/
def State.minRun (s : State) (q : Nat) (r : PsqReq) : Bool := s.fld (fPSQ_SUSP_MINRUN q) * 1000 ≤ s.now - r.startedAt

/-- The requests of a LUN in arrival order. -/
def State.lunReqs (s : State) (q l : Nat) : List PsqReq := (s.sq q).shadow.filter fun r => r.lun == l

/-- The two programs are planes of one wordline (R293). -/
def samePlanes (a b : PsqReq) : Bool :=
  b.op == 2 && a.slc == b.slc && ppaPage a.ppa == ppaPage b.ppa && ppaPlane a.ppa != ppaPlane b.ppa

/-- Start the group of programs at the head of a LUN's queue, or hold its planes until the next one arrives (R293). -/
def State.psqProgram (s : State) (q : Nat) : List PsqReq → List PsqReq → State
  | held, r :: rest =>
    let fits := match held.head? with | some h => samePlanes h r | none => r.op == 2
    if !fits then s
    else if r.more then
      (s.psqPut q r { r with phase := 3 }).psqProgram q (held ++ [{ r with phase := 3 }]) rest
    else
      let t := held.foldl (fun (t : State) h => t.psqStart q h false) s
      t.psqStart q r false
  | _, [] => s

/-- A feature write that waits while an erase is suspended: not a read-level address of the record (R279, R300). -/
def State.levelFeature (s : State) (chan a : Nat) : Bool :=
  (((tgetD s.fw.records chan []).drop 26).take 8).contains (BitVec.ofNat 8 a)

/-- May start while an erase of the LUN is suspended (R300). -/
def State.overErase (s : State) (q : Nat) (r : PsqReq) : Bool :=
  r.isRead || (r.op == 4 && s.levelFeature (s.fld (fPSQ_CTL_CHAN q)) r.feature)

/-- Suspend the running erase of a LUN for a read that waits (R300). -/
def State.psqSuspend (s : State) (q l : Nat) (e : PsqReq) : State :=
  let s := s.psqPut q e { e with phase := 2, ran := e.ran + (s.now - e.startedAt) }
  s.incSat (fPSQ_LUN_SUSPN q l)

/-- What LUN `l` does next (R296, R300). -/
def State.psqLun (s : State) (q l : Nat) : State :=
  let reqs := s.lunReqs q l
  let hold := s.flag (fPSQ_CTL_HOLDREQ q)
  let read := reqs.find? fun r => r.phase == 0 && r.isRead
  match reqs.find? (·.phase == 1) with
  | some e =>
    (match read with
    | some r =>
      if e.isErase && s.flag (fPSQ_SUSP_EN q) && s.minRun q e && !hold then
        let s := s.psqSuspend q l e
        s.psqStart q r true
      else s
    | none => s)
  | none =>
    match reqs.find? (·.phase == 2) with
    | some e =>
      (match reqs.find? fun r => r.phase == 0 && s.overErase q r with
      | some r => if hold then s else s.psqStart q r r.isRead
      | none => s.psqPut q e { e with phase := 1, startedAt := s.now })
    | none =>
      if hold then s
      else
        match reqs with
        | r :: _ =>
          if r.op = 2 then s.psqProgram q [] reqs
          else
            let s := if r.isErase then s.setFld (fPSQ_LUN_SUSPN q l) 0 else s
            s.psqStart q r false
        | [] => s

/-- Both clasps of a sequencer's island are CLOSED (R114). -/
def State.psqClosed (s : State) (q : Nat) : Bool :=
  s.claspState (psqClasp q) == clClosed && s.claspState (psqClasp q + 1) == clClosed

/-- The sequencer executes requests: enabled, loaded, its clasps CLOSED, not in training and not lost (R114, R283, R304,
R310). -/
def State.psqRuns (s : State) (q : Nat) : Bool :=
  s.flag (fPSQ_CTL_EN q) && (s.fld (fPSQ_STAT_STATE q) == 2 || s.fld (fPSQ_STAT_STATE q) == 3) &&
    (s.sq q).training == 0 && !(s.sq q).lost && !(s.sq q).loading && s.psqClosed q

/-- Every LUN goes on; `STATE` is running while a request is active, held while `HOLDREQ` stops new ones (R296, R310). -/
def State.psqRun (s : State) (q : Nat) : State :=
  let s := if s.psqRuns q then (List.range 16).foldl (fun (t : State) l => t.psqLun q l) s else s
  let s := s.psqView q
  let st := s.fld (fPSQ_STAT_STATE q)
  if st = 2 ∨ st = 3 ∨ st = 4 then
    let active := (s.sq q).shadow.any fun r => r.phase != 0
    s.setFld (fPSQ_STAT_STATE q) (if active then 3 else if s.flag (fPSQ_CTL_HOLDREQ q) then 4 else 2)
  else s

/-- The look-up of the applied offsets for a `READ` with `BASE` 0, and what the table's memory yields there (R342, R351, R407): an
uncorrectable error gives zero offsets for this one look-up. -/
def State.appliedLookup (s : State) (r : PsqReq) (e : Ecc) : State × PsqReq :=
  if r.isRead && r.selector % 4 == 0 then
    let ix := s.asyIndex r.ppa
    let s := s.countHidden 9 0 (8 * ix) e .assay 116
    if hiddenBad e then (s.appliedLost ix, { r with noBase := true }) else (s, r)
  else (s, r)

/-- Take a request of operation `op` from the front of mailbox 0 (R292): into the shadow table, or answered; while the control
clasp is not CLOSED it waits (R114). -/
def State.psqAccept (s : State) (q : Nat) (isOp : Nat → Bool) (lookup : Ecc) : State :=
  match s.box (psqEp q) 0 with
  | m :: rest =>
    let r := parseReq s.now m
    if !isOp r.op || !s.psqReach q || 64 ≤ (s.sq q).shadow.length || (s.fld (fPSQ_STAT_STATE q) == 6 && !(s.sq q).lost) then s
    else
      let s := s.setBox (psqEp q) 0 rest
      match s.psqRefused q r with
      | some st => s.psqReply q r st 0 0
      | none =>
        let u := s.appliedLookup r lookup
        (u.1.setSq q { u.1.sq q with shadow := (u.1.sq q).shadow ++ [u.2] }).psqRun q
  | [] => s

/-- A message that is no request of R293 is answered with status 0x07: another mailbox, sub-operation or operation value
(R292, R293). -/
def State.psqTurnAway (s : State) (q : Nat) : State :=
  if !s.psqReach q then s else
  let s := (List.range 15).foldl (fun (t : State) i =>
    (t.box (psqEp q) (i + 1)).foldl (fun (u : State) m =>
      (u.setBox (psqEp q) (i + 1) []).psqReply q (parseReq u.now m) 7 0 0) t) s
  match s.box (psqEp q) 0 with
  | m :: rest =>
    if m.sub != 0x150 || !psqOpKnown (pGet m.payload 0 1) then
      (s.setBox (psqEp q) 0 rest).psqReply q (parseReq s.now m) 7 0 0
    else s
  | [] => s

/-! ### Notices, timeouts and offline LUNs (R302, R311) -/

def State.psqNotice (s : State) (q srcEp sub b1 stat : Nat) : State :=
  if s.flag (fPSQ_NOTE_EN q) then
    s.hwSend srcEp (s.fld (fPSQ_NOTE_DST q)) (s.fld (fPSQ_NOTE_MBX q)) sub (payloadOf [(0, 1, srcEp - 64), (1, 1, b1), (8, 8, stat)])
  else s

/-- A LUN goes offline: notice and Error record; its entries of Assay are frozen (R302, R352, R549). -/
def State.lunGoesOff (s : State) (q l cause : Nat) : State :=
  let chan := s.fld (fPSQ_CTL_CHAN q)
  let s := s.setReg (rPSQ_LUNOFF q) (setBits (s.reg (rPSQ_LUNOFF q)) l 1 1)
  let s := s.psqNotice q (psqEp q) 0x152 l (s.reg (rPSQ_STAT q)).toNat
  let s := s.log 4 (psqEp q) 0x000B (bodyOf [(0, 1, q), (1, 1, l), (2, 1, chan), (3, 1, cause), (8, 8, (s.reg (rPSQ_STAT q)).toNat)])
  let d := chan * 16 + l
  if (tget s.fw.offlineAt d).isSome then s
  else
    let s := if s.flt.blame then { s with flt := { s.flt with blamedDies := d :: s.flt.blamedDies } } else s
    (s.freezeDie d true).withFw { s.fw with offlineAt := tput s.fw.offlineAt d s.now }

/-- Requests of a LUN that has gone offline are answered with status 0x04 (R302). -/
def State.psqDropOff (s : State) (q l : Nat) : State :=
  if s.lunOff q l then
    (s.lunReqs q l).foldl (fun (t : State) r => t.psqEnd q r 4 0 0) s
  else s

/-! ### Training (R282, R283, R301, R305) -/

/-- Re-run one request of the shadow table (R305). -/
def State.psqRerunOne (s : State) (q : Nat) (r : PsqReq) : State :=
  if r.phase = 0 ∨ r.phase = 3 then s.psqPut q r { r with phase := 0 }
  else if r.op = 2 then s.psqEnd q r 6 0 0
  else
    let s := s.incSat (fPSQ_ERR_RERUN q)
    s.psqPut q r { r with
      phase := 0, sensed := false, slots := [], ran := 0
      outFlags := r.outFlags ||| (if r.isErase then 3 else 2) }

/-- Re-run the shadow table in arrival order; what the island had ended and not sent is re-run too (R305). -/
def State.psqRerun (s : State) (q : Nat) : State :=
  let s := s.setSq q { s.sq q with ended := [], rerun := false }
  ((s.sq q).shadow.foldl (fun (t : State) r => t.psqRerunOne q r) s).psqRun q

/-- A channel whose clasps are CLOSED goes on once no training and no load is in progress: the shadow table is re-run where the
island was reset or taken over, and replies that were held back are sent (R115, R116 step 6, R305). -/
def State.psqResume (s : State) (q : Nat) : State :=
  let e := s.sq q
  if !s.psqClosed q || e.training != 0 || e.loading then s
  else if e.rerun then s.psqRerun q
  else
    let s := s.setSq q { e with ended := [] }
    (e.ended.foldl (fun (t : State) x => t.psqEnd q x.1 x.2.1 x.2.2.1 x.2.2.2) s).psqRun q

/-- The close handshake of a clasp ends; what waited behind it goes on: a sequencer, or the host's transfers (R116, R145,
R305). -/
def State.claspCloses (s : State) (c : Nat) (agree : Bool) : State :=
  let was := s.claspState c
  let s := s.closeDone c agree
  match claspSeq c with
  | some q => s.psqResume q
  | none => if c ≤ 1 && was == clClosing && s.claspState c == clClosed then s.hostReissue else s

/-- A re-trim starts (R282). -/
def State.startRetrim (s : State) (q : Nat) : State :=
  if (s.sq q).training != 0 || (s.sq q).lost || s.fld (fPSQ_STAT_STATE q) == 6 then s
  else (s.setSq q { s.sq q with training := 1 }).setFld (fPSQ_TRAIN_BUSY q) 1

/-- Full training starts: the island resets and its clasps break (R283). -/
def State.startTraining (s : State) (q kind : Nat) : State :=
  if (s.sq q).lost || s.fld (fPSQ_STAT_STATE q) == 6 then s
  else
    let e := s.sq q
    let s := s.setSq q { e with training := kind, stack := [], counters := [], timers := [], status := 0, offsets := [], retrimFails := 0 }
    let s := s.setFld (fPSQ_TRAIN_BUSY q) 1
    if kind = 2 then (s.claspBreak (psqClasp q) .islandReset 0).claspBreak (psqClasp q + 1) .islandReset 0 else s

/-- The clasps of an island close again within the step that brings it back (R283, R304; log entry 145). -/
def State.psqCloses (s : State) (q : Nat) : State := (s.claspRecloses (psqClasp q)).claspRecloses (psqClasp q + 1)

/-! ### Loss of a channel and failure of a sequencer (R303 to R306) -/

/-- The dies of a channel are lost with cause 3 (R306, R380). -/
def State.loseChannelDies (s : State) (chan : Nat) : State :=
  (List.range 16).foldl (fun (t : State) l =>
    if chan * 16 + l < t.fw.dies && !t.dieLost (chan * 16 + l) then
      t.dieGone (chan * 16 + l) 3
    else t) s

/-- The unit of a fault of a sequencer: the channel that it serves, else its endpoint (R445). -/
def State.psqUnit (s : State) (q : Nat) : Nat :=
  let c := s.fld (fPSQ_CTL_CHAN q)
  if c = 0x3F then 64 + q else c

/-- The channel is lost: every request is answered with status 0x08 (R306). -/
def State.psqLost (s : State) (q : Nat) : State :=
  let chan := s.fld (fPSQ_CTL_CHAN q)
  let s := s.setSq q { s.sq q with lost := true, loading := false, ended := [] }
  let s := (s.sq q).shadow.foldl (fun (t : State) r => t.psqEnd q r 8 0 0) s
  let s := s.faultNow 0x06 chan false true
  (s.loseChannelDies chan).checkHealth

/-- Fence a sequencer: its clasps open (R304 step 2). -/
def State.psqFence (s : State) (q : Nat) : State :=
  let s := s.setReg rARC_PQFENCE (setBits (s.reg rARC_PQFENCE) q 1 1)
  let s := s.setFld (fPSQ_STAT_STATE q) 6
  (s.claspOpen (psqClasp q)).claspOpen (psqClasp q + 1)

/-- The grants of a fenced sequencer whose channel none takes pass to `BPM_NOTE.DST`, with a notice for each bead (R177). -/
def State.psqOrphans (s : State) (q : Nat) : State :=
  let dst := s.fld fBPM_NOTE_DST
  let l := (s.pool.beads.filter fun (b : Nat × Bead) => b.2.st == BeadSt.granted && b.2.owner == psqEp q).map (·.1)
  l.foldl (fun (t : State) b =>
    (t.giveBead b dst).hwSend 114 dst (t.fld fBPM_NOTE_MBX) 0x131 (payloadOf [(0, 2, b), (2, 1, psqEp q)])) s

/-- A sequencer is fenced and no other takes its place (R177, R304). -/
def State.psqFenceOut (s : State) (q : Nat) : State := (s.psqFence q).psqOrphans q

/-- The lowest-numbered spare that is not fenced and serves no channel (R304). -/
def State.psqSpare (s : State) : Option Nat :=
  [32, 33].find? fun q => s.fld (fPSQ_STAT_STATE q) != 6 && s.fld (fPSQ_CTL_CHAN q) == 0x3F

/-- The core-side registers that pass at a switch: all but state, load state and counter lanes (R304, R309). -/
def psqPassing : List Nat := [0x00, 0x10, 0x18, 0x20, 0x28, 0x30, 0x38, 0x40, 0x48, 0x50, 0x60, 0x68, 0x70] ++
  (List.range 16).map fun l => 0x100 + 8 * l

/-- The channel, core-side registers, shadow table, messages and grants of a sequencer pass to a spare (R177, R304; log
entry 43). -/
def State.psqPass (s : State) (q sp : Nat) : State :=
  let chan := s.fld (fPSQ_CTL_CHAN q)
  let s := psqPassing.foldl (fun (t : State) o => t.setReg (rPSQ_CTL sp + o) (t.reg (rPSQ_CTL q + o))) s
  let s := (s.setFld (fPSQ_CTL_CHAN sp) chan).setFld (fPSQ_CTL_CHAN q) 0x3F
  let e := s.sq q
  let s := s.setSq sp { s.sq sp with
    shadow := e.shadow, offsets := e.offsets, training := 0, retrimFails := 0, loading := true, lost := false, tookOverAt := none
    ended := [], rerun := true }
  let s := s.setSq q Seq.reset
  let s := s.setBox (psqEp sp) 0 (s.box (psqEp sp) 0 ++ s.box (psqEp q) 0)
  let s := s.setBox (psqEp q) 0 []
  let s := { s with pool := { s.pool with
    beads := s.pool.beads.map fun (b : Nat × Bead) => if b.2.st = BeadSt.granted ∧ b.2.owner = psqEp q then (b.1, { b.2 with owner := psqEp sp }) else b } }
  (s.setFld (fPSQ_STAT_STATE sp) 1).psqView sp

/-- The takeover of R304 by a spare, from the choice of the spare on: `RESUME` is a free value of at most 2 µs (log entry
17). -/
def State.psqSwitch (s : State) (q sp kind : Nat) (injected : Bool) : State :=
  let stat := (s.reg (rPSQ_STAT q)).toNat
  let unit := s.psqUnit q
  let s := s.faultDetected kind unit injected true
  let s := s.psqFence q
  let s := s.psqPass q sp
  let s := if s.flag (fPSQ_NOTE_EN sp) then
      s.hwSend (psqEp sp) (s.fld (fPSQ_NOTE_DST sp)) (s.fld (fPSQ_NOTE_MBX sp)) 0x153 (payloadOf [(0, 1, q), (1, 1, sp), (8, 8, stat)])
    else s
  let resume := (freshWord s).toNat % 201
  let s := s.tick
  let s := s.setReg rFLT_LAST0 (BitVec.ofNat 64 (faultWord kind unit (injected || s.flt.blame) true resume))
  s.faultTold kind unit injected true resume s.now

/-- A sequencer fails (R303): the channel is switched to a spare (R304), or lost (R306). A spare that serves no channel is
fenced. -/
def State.seqFail (s : State) (q : Nat) (injected : Bool) : State :=
  let st := s.fld (fPSQ_STAT_STATE q)
  if !s.part.seqOn q || st == 6 || (s.sq q).lost then s
  else if s.fld (fPSQ_CTL_CHAN q) = 0x3F then (s.faultDetected 0x04 (64 + q) injected true).psqFenceOut q |>.faultTold 0x04 (64 + q) injected true 0 s.now
  else
    let again := match (s.sq q).tookOverAt with | some t => decide (s.now ≤ t + 1000000000) | none => false
    match s.psqSpare with
    | some sp => if again then (s.psqFenceOut q).psqLost q else s.psqSwitch q sp 0x04 injected
    | none => (s.psqFenceOut q).psqLost q

/-- Signet has loaded a spare (R290, R304 steps 3 to 5): the channel goes on with the shadow table re-run, or a bad load
fences it and the other spare is taken. -/
def State.spareLoaded (s : State) (q : Nat) (good : Bool) : State :=
  if !(s.sq q).loading then s
  else if good then
    let s := s.setSq q { s.sq q with loading := false, tookOverAt := some s.now }
    let s := (s.setFld (fPSQ_SIG_LOADED q) 1).setFld (fPSQ_SIG_BAD q) 0
    let s := s.setFld (fPSQ_STAT_STATE q) 2
    (s.psqCloses q).psqResume q
  else
    let s := (s.setFld (fPSQ_SIG_LOADED q) 0).setFld (fPSQ_SIG_BAD q) 1
    match s.psqSpare with
    | some sp => if sp = q then s else s.psqSwitch q sp 0x05 false
    | none => ((s.faultNow 0x05 (s.psqUnit q) false true).psqFenceOut q).psqLost q

/-! ### Ends of die operations (R295 to R302) -/

/-- The units of a program: PPA and bead of each slot (R293). -/
def PsqReq.programUnits (r : PsqReq) : List (Nat × Nat) :=
  (List.range (if r.slc then 4 else 12)).map fun i => (r.ppa - r.ppa % 4 + i, r.bead i)

/-- The errors that the data path meets in the units of a program's beads (R591). -/
def PsqReq.meets (r : PsqReq) (l : List BeadError) : List BeadError :=
  l.filter fun e => decide (e.double.val < 524) && r.programUnits.any fun u => u.2 == e.bead.toNat

/-- Which beads of a program hold an uncorrectable double (R298). -/
def State.badBeads (s : State) (r : PsqReq) (errors : List BeadError) : Nat :=
  sumOf (fun i => if s.mem.unitPoisoned (r.bead i) || fatalIn (r.meets errors) (r.bead i) then 2 ^ i else 0)
    (List.range (if r.slc then 4 else 12))

/-- The requests that run on a LUN: the planes of a multi-plane program run together (R293). -/
def State.runningOn (s : State) (q l : Nat) : List PsqReq := (s.lunReqs q l).filter fun r => r.phase == 1

/-- A program ends (R187, R298): bead errors stop it, and every plane that is programmed with it, before the confirm; else it
passes or fails. -/
def State.endProgram (s : State) (q : Nat) (r : PsqReq) (pass stopped : Bool) (errors : List BeadError) (busy : Nat) : State :=
  let bad := s.badBeads r errors
  let s := s.meetErrors (r.meets errors) .prong (psqEp q)
  if stopped then
    let s := s.incSat (fPSQ_ERR_BEADUE q)
    s.psqFinish q r 5 0 bad
  else
    let r' := { r with busyNs := busy }
    let s := s.psqPut q r r'
    if pass then
      let s := s.withFw { s.fw with
        flash := r.programUnits.foldl (fun (t : Tab (List Word)) u => tput t u.1 (s.mem.readUnit u.2)) s.fw.flash }
      s.psqFinish q r' 0 0 0
    else (s.incSat (fPSQ_ERR_FAIL q)).psqFinish q r' 1 0 0

/-- An erase ends (R299). -/
def State.endErase (s : State) (q : Nat) (r : PsqReq) (pass : Bool) (busy : Nat) : State :=
  let r' := { r with busyNs := busy }
  let s := s.psqPut q r r'
  if pass then (s.blockErased (blockOf r.ppa)).psqFinish q r' 0 0 0
  else (State.incSat (s.retire (blockOf r.ppa)) (fPSQ_ERR_FAIL q)).psqFinish q r' 1 0 0

/-- The bytes of the parameter page in a bead, from byte 0 (R293). -/
def State.writeBeadBytes (s : State) (b : Nat) (l : List Byte) : State :=
  s.withMem (s.mem.writeDoubles (beadAddr b) (wordsOf l (min 512 ((l.length + 7) / 8))))

/-- A `FEATS` of a read-level address is the offset last written to that level of the LUN (R279, R293, R297; log entry 167). -/
def State.levelWritten (s : State) (q : Nat) (r : PsqReq) : State :=
  if r.op != 4 then s
  else
    let at8 := (tgetD s.fw.records (s.fld (fPSQ_CTL_CHAN q)) []).drop 26 |>.take 8
    let e := s.sq q
    s.setSq q { e with offsets := at8.zipIdx.foldl (fun (t : Tab Int) x =>
      if x.1.toNat = r.feature then tput t (r.lun * 8 + x.2) (signed8 (r.args / 2 ^ 8)) else t) e.offsets }

/-- The die reports ready: what that means for the running request (R295 to R299). `stopped`: a bead error of any plane of the
multi-plane program. -/
def State.dieReady (s : State) (q : Nat) (r : PsqReq) (busy : Nat) (pass stopped : Bool) (data : List Byte)
    (errors : List BeadError) : State :=
  if r.op = 1 then
    let r' := { r with sensed := true, busyNs := busy }
    let s := s.psqPut q r r'
    if r.masked.isEmpty then s.psqFinish q r' 0 0 0 else s
  else if r.op = 2 then s.endProgram q r pass stopped errors busy
  else if r.op = 3 then s.endErase q r pass busy
  else if 0x20 ≤ r.op then s.psqPut q r { r with busyNs := busy }
  else
    let r' := { r with busyNs := busy }
    let s := if pass then s.levelWritten q r else s
    let s := s.psqPut q r r'
    let v := (data.take (if r.op = 5 then 4 else if r.op = 6 then 1 else 0)).foldr (fun b n => b.toNat + 256 * n) 0
    let s := if r.op = 8 then s.writeBeadBytes (r.bead 0) data else s
    let s := if r.op = 7 then s.setSq q { s.sq q with offsets := (s.sq q).offsets.filter fun e => e.1 / 8 != r.lun } else s
    let s := if pass then s else s.incSat (fPSQ_ERR_FAIL q)
    s.psqFinish q r' (if pass then 0 else 1) 0 v

/-- A LUN reports ready (R295, R307): its running requests end, the consecutive timeouts too. -/
def State.dieDone (s : State) (q l busy : Nat) (pass : Bool) (data : List Byte) (errors : List BeadError) : State :=
  match (s.runningOn q l).filter fun r => !r.sensed with
  | [] => s
  | rs =>
    let s := s.psqEvent q 1
    let s := s.setFld (fPSQ_LUN_TMO q l) 0
    let stopped := rs.any fun r => r.op == 2 && s.badBeads r errors != 0
    (rs.foldl (fun (t : State) r => t.dieReady q r busy pass stopped data errors) s).psqRun q

/-- A die timer expires (R302): Reset LUN, status 0x03, which a suspended erase of the LUN does not survive (R301; log entry
167); the LUN goes offline when Reset LUN itself times out or after two
consecutive timeouts. -/
def State.dieTimedOut (s : State) (q l : Nat) (resetOk : Bool) : State :=
  match s.runningOn q l with
  | [] => s
  | rs =>
    let rs := rs ++ (s.lunReqs q l).filter fun r => r.phase == 2
    let s := s.incSat (fPSQ_ERR_TMO q)
    let s := s.incSat (fPSQ_LUN_TMO q l)
    let s := s.setSq q { s.sq q with offsets := (s.sq q).offsets.filter fun e => e.1 / 8 != l }
    let s := rs.foldl (fun (t : State) r => t.psqFinish q r 3 0 0) (s.psqEvent q 2)
    let off := !resetOk || 2 ≤ s.fld (fPSQ_LUN_TMO q l)
    let s := if off && !s.lunOff q l then s.lunGoesOff q l (if resetOk then 2 else 1) else s
    (s.psqDropOff q l).psqRun q

/-- A held plane that is not followed within 100 µs is answered with status 0x07 (R293). -/
def State.planeHoldOver (s : State) (q l : Nat) : State :=
  (((s.lunReqs q l).filter fun r => r.phase == 3).foldl (fun (t : State) r => t.psqFinish q r 7 0 0) s).psqRun q

/-- Training or a re-trim ends (R281 to R283): `good` is the outcome of a re-trim, `ceok` that of a training, `luns` the LUNs
that answered and matched at bring-up. -/
def State.trainingDone (s : State) (q : Nat) (good : Bool) (ceok luns : Nat) : State :=
  let e := s.sq q
  if e.training = 0 then s
  else if e.training = 1 then
    let s := s.psqEvent q 3
    let s := (s.setSq q { e with trimAt := s.now }).incSat (fPSQ_TRAIN_COUNT q)
    let s := s.setFld (fPSQ_TRAIN_BUSY q) 0
    if good then
      (s.setSq q { s.sq q with training := 0, retrimFails := 0 }).psqRun q
    else if 1 ≤ e.retrimFails then s.startTraining q 2
    else (s.setSq q { s.sq q with training := 0, retrimFails := 1 }).psqRun q
  else if e.training = 2 then
    let s := (s.setSq q { e with training := 0, retrimFails := 0 }).setFld (fPSQ_TRAIN_BUSY q) 0
    let s := (s.setFld (fPSQ_TRAIN_CEOK q) ceok).setFld (fPSQ_TRAIN_FAIL q) (b2n (ceok % 16 != 15))
    let s := (s.psqCloses q).psqEvent q 3
    if ceok % 16 = 0 then s.psqLost q
    else ((List.range 16).foldl (fun (t : State) l => t.psqDropOff q l) s).psqResume q
  else
    let s := s.psqEvent q 3
    let s := (s.setSq q { e with training := 0 }).setFld (fPSQ_TRAIN_BUSY q) 0
    ((List.range 16).foldl (fun (t : State) l =>
      if luns / 2 ^ l % 2 = 1 then t
      else
        let t := t.setReg (rPSQ_LUNOFF q) (setBits (t.reg (rPSQ_LUNOFF q)) (16 + l) 1 1)
        t.tell 4 .bringUp (q * 16 + l)) s).psqRun q

/-- `EN` is set: the bring-up in SDR mode starts (R281 steps 3 and 4). -/
def State.psqBringUp (s : State) (q : Nat) : State :=
  let was := s.flag (fPSQ_CTL_EN q)
  let s := s.setFld (fPSQ_CTL_EN q) 1
  if was then s else (s.startTraining q 3).psqView q

end Sys2Proof.Machine
end

