-- ==== Sys2Proof/Machine/SlotOps.lean ====
section
/-! DEFINITION. Slots on their way through the Loupe channel: captures and re-transfers, decoding, bead writes, result words
and learning records (R317 to R334), and the microcode of a sequencer (R284 to R288). -/

namespace Sys2Proof.Machine

open Sys2Proof

/-! ### Captures (R317 to R320) -/

/-- The request whose slots the channel transfers: the first `READ` in its data phase (R297). -/
def State.transferring (s : State) (q : Nat) : Option PsqReq :=
  (s.sq q).shadow.find? fun r => r.isRead && r.phase == 1 && r.sensed

/-- A slot has a sense that is neither framed nor erased (R320). -/
def State.slotLost (s : State) (chan : Nat) (w : SlotWork) : Bool :=
  w.senses.any fun c => c.unframed && !s.erasedCapture chan c

/-- The slot to transfer next: after the re-trim each lost slot once more, then the masked slots in order for each sense
(R297, R320). True: a transfer made again. -/
def State.nextTransfer (s : State) (chan : Nat) (r : PsqReq) : Option (SlotWork × Bool) :=
  match r.slots.find? fun w => r.retrimmed && !w.again && s.slotLost chan w with
  | some w => some (w, true)
  | none =>
    let n := sensesOf r.senses
    let least := r.slots.foldl (fun m w => min m w.senses.length) 99
    if n ≤ least then none
    else (r.slots.find? fun w => w.senses.length == least).map fun w => (w, false)

/-- Replace a slot of a request. -/
def PsqReq.putSlot (r : PsqReq) (w : SlotWork) : PsqReq :=
  { r with slots := r.slots.map fun x => if x.slot = w.slot then w else x }

/-- The captures of a slot with a transfer made again: the lost captures are replaced. -/
def State.recapture (s : State) (chan : Nat) (c : Capture) : List Capture → List Capture
  | [] => []
  | x :: t => if x.unframed && !s.erasedCapture chan x then c :: t else x :: s.recapture chan c t

/-- Every slot has its capture of the present sense and another sense follows: the die senses again (R297 step 6). -/
def moreSenses (r : PsqReq) : Bool :=
  let least := r.slots.foldl (fun m w => min m w.senses.length) 99
  let most := r.slots.foldl (fun m w => max m w.senses.length) 0
  least == most && least < sensesOf r.senses

/-- The slots of a request with every capture made and none to make again (R320, R327). -/
def State.readySlots (s : State) (chan : Nat) (r : PsqReq) : List SlotWork :=
  if r.isRead && r.phase == 1 then
    r.slots.filter fun w => w.result.isNone && w.senses.length == sensesOf r.senses &&
      !(s.slotLost chan w && !w.again && s.flag (fLPE_CTL_RETX chan))
  else []

/-- The slots of a channel that are ready for a decoder: the soft decoders of its pool, or its own hard ones (R327). -/
def State.readyOn (s : State) (chan : Nat) (soft : Bool) : List SlotWork :=
  match s.seqOf chan with
  | none => []
  | some q => (s.sq q).shadow.flatMap fun r => if (sensesOf r.senses != 1) == soft then s.readySlots chan r else []

/-- The channels of a pool whose slots are at its decoders or wait for them, with the number of each slot's transfer (R327). -/
def State.poolSlots (s : State) (chan : Nat) : List (Nat × Nat) :=
  (List.range 4).flatMap fun i => (s.readyOn (chan / 4 * 4 + i) true).map fun w => (chan / 4 * 4 + i, w.came)

/-- The slots of a channel that wait for the pool: three others came before each (R327). -/
def State.softWaiting (s : State) (chan : Nat) : Nat :=
  let l := s.poolSlots chan
  countIf (fun (x : Nat × Nat) => x.1 == chan && decide (3 ≤ countIf (fun (y : Nat × Nat) => decide (y.2 < x.2)) l)) l

/-- A slot comes to the pool: it waits where the three decoders are busy (R327, R338). -/
def State.poolWait (s : State) (chan : Nat) : State :=
  if 3 ≤ (s.poolSlots chan).length then s.incWrap (fLPE_DEC_SWAITS chan) else s

/-- The Loupe channel accepts the next slot: sequencer condition 10 (R286, R327, R338; log entry 168). -/
def State.loupeTakes (s : State) (chan : Nat) : Bool := s.flag (fLPE_CTL_EN chan) && s.softWaiting chan < 4

/-- A slot transfer is captured (R317, R318). While the channel's soft buffer is full the slot waits on the bus (R327). A lost slot asks for a re-trim, once per request (R320). -/
def State.slotCapture (s : State) (chan : Nat) (bytes : List Byte) : State :=
  match s.seqOf chan with
  | none => s
  | some q =>
    if !s.flag (fLPE_CTL_EN chan) || (s.sq q).training != 0 || s.claspState (psqClasp q) != clClosed then s
    else
      match s.transferring q with
      | none => s
      | some r =>
        match s.nextTransfer chan r with
        | none => s
        | some (w, again) =>
          if 4 ≤ s.softWaiting chan then s else
          let c := s.capture chan (pageType r.slc r.ppa) bytes
          let w' := if again then { w with senses := s.recapture chan c w.senses, again := true, came := s.assay.transfers }
            else { w with senses := w.senses ++ [c], came := s.assay.transfers }
          let s := { s with assay := { s.assay with transfers := s.assay.transfers + 1 } }
          let s := if w'.senses.length == sensesOf r.senses && sensesOf r.senses != 1 then s.poolWait chan else s
          let s := s.incWrap (fLPE_CNT0_SLOTS chan)
          let s := if again then s.incSat (fLPE_CNT2_RETX chan) else s
          let lost := c.unframed && !s.erasedCapture chan c
          let trim := lost && !again && s.flag (fLPE_CTL_RETX chan) && !r.retrimmed
          let r' := r.putSlot w'
          let r' := { r' with retrimmed := r.retrimmed || trim, sensed := !moreSenses r' || trim }
          let s := s.psqPut q r r'
          if trim then s.startRetrim q else s

/-! ### Decoding a slot (R318 to R330) -/

/-- The aggressor row of a slot: the stored cells of the next wordline's slot, or none (R324). -/
def State.aggressorRow (s : State) (r : PsqReq) (slot : Nat) : List Int :=
  let b := r.bead (4 + slot)
  if b = 0xFFFF ∨ s.mem.unitPoisoned b = true then []
  else
    let ppa := r.ppa - r.ppa % 4 + slot + (if r.slc then 4 else 12)
    let stored := encodeSlot (pageType r.slc ppa) ppa (unitBytes (s.mem.readUnit b))
    (List.range 37504).map fun c => if bitOf stored c then -1 else 1

/-- What becomes of a slot. -/
structure SlotOut where
  cbits : Nat
  dec : Nat
  frm : Nat
  slip : Int
  crc : Bool
  erased : Bool
  iter : Nat
  payload : List Byte
  poison : Bool
  tagPoison : Bool
  c01 : Nat
  c10 : Nat
  deriving DecidableEq, Repr

/-- The defect columns of a slot, as slot bytes (R326). -/
def State.slotDefects (s : State) (chan : Nat) (r : PsqReq) (slot : Nat) : List Nat :=
  (s.defects chan r.lun (ppaPlane r.ppa)).filterMap fun c =>
    if slot * 4688 ≤ c ∧ c < (slot + 1) * 4688 then some (c - slot * 4688) else none

/-- The framing of sense 0: the `FRM` value and the slip used (R318, R330). -/
def framing (c : Capture) (onSecond : Bool) : Nat × Int :=
  match c.primary, c.second with
  | some d1, some d2 => if onSecond && d1 != d2 then (2, d2) else (if d1 = 0 then 0 else 1, d1)
  | some d1, none => (if d1 = 0 then 0 else 1, d1)
  | none, some d2 => (2, d2)
  | none, none => (3, 0)

/-- The marks of a capture disagree (R318). -/
def marksDisagree (c : Capture) : Bool :=
  match c.primary, c.second with
  | some d1, some d2 => d1 != d2
  | _, _ => false

/-- Cells read 0 and 1 at sense 0 whose decoded bit differs (R334). -/
def flips (code sense0 : List Byte) (readOne : Bool) : Nat :=
  sumOf (fun i => countIf (fun k => ((sense0.getD i 0#8).getLsbD k == readOne) && ((code.getD i 0#8).getLsbD k != readOne))
    (List.range 8)) (List.range 4676)

/-- Try to decode a slot with one choice of framing (R318, R325 to R328). -/
def State.tryDecode (s : State) (chan : Nat) (r : PsqReq) (w : SlotWork) (onSecond : Bool) :
    Option (List Byte × Nat × Nat) × List Byte :=
  let ppa := r.ppa - r.ppa % 4 + w.slot
  let t := pageType r.slc ppa
  let frames := w.senses.map fun c => c.frame onSecond
  let scr := slotScramble ppa
  let llr := s.cellLlrs chan t frames (s.aggressorRow r w.slot)
  let sense0 := xorBytes (bodyBytes (frames.headD [])) scr
  (s.decodeSlot chan (sensesOf r.senses) (codewordLlrs llr scr (s.slotDefects chan r w.slot)), sense0)

/-- The result of a decode as the bead will hold it (R328, R329). -/
def State.slotDecoded (s : State) (chan : Nat) (r : PsqReq) (w : SlotWork) (onSecond : Bool) (sense0 : List Byte)
    (res : List Byte × Nat × Nat) : SlotOut :=
  let code := res.1 ++ Config.ldpcParity res.1
  let bad := s.slotDefects chan r w.slot
  let f := framing (w.senses.headD ⟨[], none, none⟩) onSecond
  let good := tagCrcGood res.1
  ⟨correctedBits code sense0 bad, res.2.1, f.1, f.2, good, false, res.2.2, res.1, !good, false,
    flips code sense0 false, flips code sense0 true⟩

/-- What becomes of a captured slot (R318 to R329). -/
def State.slotOutcome (s : State) (chan : Nat) (r : PsqReq) (w : SlotWork) : SlotOut :=
  let c0 := w.senses.headD ⟨[], none, none⟩
  if w.senses.any Capture.unframed then
    if w.senses.any fun c => c.unframed && s.erasedCapture chan c then
      ⟨0, 3, 3, 0, false, true, 0, List.replicate 4192 0xFF#8, true, true, 0, 0⟩
    else
      let sense0 := xorBytes (bodyBytes (c0.frame false)) (slotScramble (r.ppa - r.ppa % 4 + w.slot))
      ⟨0, 3, 3, 0, false, false, 0, sense0.take 4192, true, true, 0, 0⟩
  else
    let first := s.tryDecode chan r w false
    match first.1 with
    | some res => s.slotDecoded chan r w false first.2 res
    | none =>
      let second := s.tryDecode chan r w true
      match if w.senses.any marksDisagree then second.1 else none with
      | some res => s.slotDecoded chan r w true second.2 res
      | none =>
        let f := framing c0 false
        ⟨0, 2, f.1, f.2, false, false, 0, first.2.take 4192, true, true, 0, 0⟩

/-- The learning record of a framed slot (R334). -/
def State.learnRecord (s : State) (chan : Nat) (r : PsqReq) (w : SlotWork) (o : SlotOut) : LearnRec :=
  let ppa := r.ppa - r.ppa % 4 + w.slot
  let t := pageType r.slc ppa
  let onSecond := o.frm == 2
  let c0 := w.senses.headD ⟨[], none, none⟩
  let frames := w.senses.map fun c => c.frame onSecond
  let cells := pilotCells (!onSecond && c0.primary.isSome) (c0.second.isSome && (onSecond || !marksDisagree c0 || c0.primary.isNone))
  let u := fused frames
  let lv := s.levelsOf chan t
  let counts := (List.range 7).map fun k =>
    if t = 3 then (if k = 0 then s.levelCounts chan t 8 cells (frames.headD []) u else (0, 0, 0))
    else if lv.contains (k + 1) then s.levelCounts chan t (k + 1) cells (frames.headD []) u else (0, 0, 0)
  let failed := o.dec == 2
  { chan := chan, lun := r.lun, plane := ppaPlane ppa, ptype := t, block := ppaBlock ppa, selector := r.selector
    senses := sensesOf r.senses
    flags := b2n (r.selector / 64 % 2 == 1) + 2 * b2n failed + 4 * b2n onSecond + 8 * b2n (o.dec == 1) +
      16 * b2n (!(s.slotDefects chan r w.slot).isEmpty) + 32 * b2n r.clamped + 64 * b2n (!(s.aggressorRow r w.slot).isEmpty) +
      128 * b2n onSecond
    cbits := o.cbits, c01 := if failed then 0 else o.c01, c10 := if failed then 0 else o.c10
    pilots := counts.map fun e => (e.1, e.2.1), sums := counts.map fun e => e.2.2, offsets := r.offs0 }

/-- Counters of the Loupe channel for one slot (R328, R329, R333, R337). -/
def State.slotCounters (s : State) (chan : Nat) (r : PsqReq) (w : SlotWork) (o : SlotOut) (word : Nat) : State :=
  let s := if o.dec = 0 then s.incWrap (fLPE_CNT0_HARD chan) else if o.dec = 1 then s.incWrap (fLPE_CNT1_SOFT chan) else s
  let s := if o.dec ≤ 1 && s.fld (fLPE_EW_THRESH chan) < o.cbits then s.incSat (fLPE_CNT2_EW chan) else s
  let s := if o.dec ≤ 1 && !o.crc then s.incSat (fLPE_CNT1_MISC chan) else s
  let s := if o.frm != 3 && o.slip != 0 then s.incSat (fLPE_CNT2_SLIP chan) else s
  let s := if o.frm = 2 then s.incSat (fLPE_CNT2_REFRAME chan) else s
  let failed := (o.dec == 2 && r.senses == 2) || (o.dec ≤ 1 && !o.crc) || (o.frm == 3 && !o.erased && w.again)
  if failed then
    let s := s.incSat (fLPE_CNT1_FAIL chan)
    ((s.setFld (fLPE_LAST_PPA chan) (r.ppa - r.ppa % 4 + w.slot)).setFld (fLPE_LAST_VALID chan) 1).setFld (fLPE_LAST_RES chan) word
  else s

/-- Every slot of a read has its result: the reply (R295, R297 step 7, R330). -/
def State.readDone (s : State) (q : Nat) (r : PsqReq) : State :=
  if r.slots.all (·.result.isSome) then
    let data := sumOf (fun (w : SlotWork) => (w.result.getD 0) * 2 ^ (32 * w.slot)) r.slots
    let bad := r.slots.any fun w => 2 ≤ (w.result.getD 0) / 2 ^ 12 % 4
    (s.psqFinish q r (if bad then 2 else 0) r.slots.length data).psqRun q
  else s

/-- A slot ends: bead, result word, counters and learning record (R327 to R334). `full`: Assay's input has no room (log
entry 52). -/
def State.slotEnd (s : State) (chan q : Nat) (r : PsqReq) (w : SlotWork) (full : Bool) : State :=
  let o := s.slotOutcome chan r w
  let ew := b2n (o.dec ≤ 1 && s.fld (fLPE_EW_THRESH chan) < o.cbits)
  let word := resultWord o.cbits ew o.dec o.frm o.slip o.crc o.erased w.again r.clamped (s.slotDefects chan r w.slot).length o.iter
  let s := s.withMem (s.mem.writeUnit (r.bead w.slot) (wordsOf o.payload 524) o.poison o.tagPoison)
  let s := s.slotCounters chan r w o word
  let s := if sensesOf r.senses == 1 && o.dec != 0 && o.dec != 3 && s.flag (fLPE_CTL_SOFTHARD chan) then s.poolWait chan else s
  let s := if o.frm != 3 && s.flag (fLPE_CTL_LEARN chan) then
      (if full then s.incSat (fLPE_DEC_LDROP chan)
       else { s with assay := { s.assay with input := s.assay.input ++ [s.learnRecord chan r w o] } })
    else s
  let r' := r.putSlot { w with result := some word }
  (s.psqPut q r r').readDone q r'

/-- The next slot with every capture made and none to make again (R320, R327). -/
def State.slotReady (s : State) (chan : Nat) (r : PsqReq) : Option SlotWork := (s.readySlots chan r).head?

def State.slotDecodeDone (s : State) (chan : Nat) (full : Bool) : State :=
  match s.seqOf chan with
  | none => s
  | some q =>
    match (s.sq q).shadow.find? fun r => r.isRead && r.phase == 1 && (s.slotReady chan r).isSome with
    | none => s
    | some r =>
      match s.slotReady chan r with
      | none => s
      | some w => s.slotEnd chan q r w full

/-! ### Microcode (R284 to R288) -/

/-- The microword at the program counter, and its nanoword (R284, R285). -/
def State.microWord (s : State) (q : Nat) : Nat := bits (s.reg (rPSQ_MICRO q (s.fld (fPSQ_STAT_PC q)))) 0 24
def State.nanoWord (s : State) (q j : Nat) : Nat := (s.reg (rPSQ_NANO q (2 * j))).toNat + (s.reg (rPSQ_NANO q (2 * j + 1))).toNat * 2 ^ 64

def microSq (w : Nat) : Nat := w / 2 ^ 21 % 8
def microNano (w : Nat) : Nat := w / 2 ^ 11 % 1024
def microArg (w : Nat) : Nat := w % 2 ^ 11
def nanoBits (n lo width : Nat) : Nat := n / 2 ^ lo % 2 ^ width

/-- A nanoword with a one in an RSVD field or an RSVD value (R287). -/
def nanoIllegal (n : Nat) : Bool :=
  6 ≤ nanoBits n 8 3 || 8 ≤ nanoBits n 11 4 || nanoBits n 15 1 == 1 || nanoBits n 16 2 == 3 || nanoBits n 20 2 == 3 ||
    nanoBits n 72 56 != 0

/-- A microword whose fixed fields are wrong (R285, R286). -/
def microIllegal (w : Nat) : Bool :=
  let a := microArg w
  match microSq w with
  | 1 => a / 128 == 15
  | 2 => a / 128 == 15 || a % 32 != 0
  | 6 => a != 0
  | 7 => a / 256 != 0
  | _ => false

/-- The request that the microcode serves: the oldest one that is started. -/
def State.microReq (s : State) (q : Nat) : Option PsqReq := (s.sq q).shadow.find? fun r => r.phase == 1

/-- A condition (R286). `seen` is the truth of those that the die, the data path or the Loupe channel decides; the hook bit is
`HSEL` of this clock's nanoword. -/
def State.microCond (s : State) (q c n : Nat) (seen : Bool) : Bool :=
  let r := s.microReq q
  let e := s.sq q
  if c = 0 then true
  else if c = 4 then tgetD e.counters 0 0 == 0
  else if c = 5 then (match r with
    | some x => (s.lunReqs q x.lun).any fun y => y.phase == 0 && y.isRead
    | none => false)
  else if c = 6 then (match r with | some x => s.minRun q x | none => false)
  else if c = 8 then (match r with | some x => x.slc | none => false)
  else if c = 9 then (match r with | some x => x.more | none => false)
  else if c = 10 then s.loupeTakes (s.fld (fPSQ_CTL_CHAN q))
  else if c = 12 then bit (s.reg (rPSQ_HOOK q)) (nanoBits n 22 4)
  else if c = 13 then (match tget e.timers 0 with | some t => decide (t ≤ s.now) | none => false)
  else if c = 14 then (match r with | some x => sensesOf x.senses != 1 | none => false)
  else seen

/-- The timeout of R302 for the class of the served request, ns. -/
def State.classTimeout (s : State) (q : Nat) : Nat :=
  match s.microReq q with
  | none => 0
  | some r =>
    1000 * (if r.op = 1 then s.fld (fPSQ_TMO0_READ q)
      else if r.op = 2 then (if r.slc then s.fld (fPSQ_TMO0_PSLC q) else s.fld (fPSQ_TMO0_PTLC q) * 10)
      else if r.op = 3 then s.fld (fPSQ_TMO0_ERASE q) * 10
      else if r.op = 7 then s.fld (fPSQ_TMO1_RESET q)
      else s.fld (fPSQ_TMO1_FEAT q))

/-! ### The bus of the channel (R280, R287) -/

/-- The slot after the present one in the slot mask of a `READ`, or among the four of another request (R287, R292). -/
def State.nextSlot (s : State) (q : Nat) : Option Nat :=
  let now := (s.sq q).slotAt
  match s.microReq q with
  | none => now
  | some r =>
    match (if r.isRead then r.masked else [0, 1, 2, 3]).find? fun k => now.all (· < k) with
    | some k => some k
    | none => now

/-- The column address of slot `k` of a page (R280). -/
def columnOf (k : Nat) : Nat := k * 4688

/-- The row address of a PPA (R280): page | (plane << `PLSH`) | (block << `BLSH`) | (LUN << `LUSH`). -/
def State.rowAddress (s : State) (q ppa : Nat) : Nat :=
  ppaPage ppa ||| ppaPlane ppa <<< s.fld (fPSQ_GEOM_PLSH q) ||| ppaBlock ppa <<< s.fld (fPSQ_GEOM_BLSH q) |||
    (ppaLun ppa % 4) <<< s.fld (fPSQ_GEOM_LUSH q)

/-- The row address as it is sent: three or four cycles, lowest byte first (R280). -/
def State.rowCycles (s : State) (q ppa : Nat) : List Byte :=
  bytesOf (s.rowAddress q ppa) (if s.flag (fPSQ_GEOM_ROW4 q) then 4 else 3)

/-- The byte of an address cycle (R280, R287): `BYTE`, a byte of the column or of the row of the served request, or the feature
address of read level c2 in the die record. A row byte beyond those that are sent carries nothing. -/
def State.addressByte (s : State) (q n : Nat) : Option Byte :=
  let a := nanoBits n 11 4
  if a = 0 then some (BitVec.ofNat 8 (nanoBits n 0 8))
  else if a = 1 then some (BitVec.ofNat 8 (columnOf ((s.sq q).slotAt.getD 0)))
  else if a = 2 then some (BitVec.ofNat 8 (columnOf ((s.sq q).slotAt.getD 0) / 2 ^ 8))
  else if a = 7 then (tgetD s.fw.records (s.fld (fPSQ_CTL_CHAN q)) [])[25 + tgetD (s.sq q).counters 2 0]?
  else (s.microReq q).bind fun r => (s.rowCycles q r.ppa)[a - 3]?

/-- The byte of a data-out cycle (R287): the offset of read level c2 from the Loupe channel, `BYTE` or zero. -/
def State.dataByte (s : State) (q n : Nat) : Option Byte :=
  let d := nanoBits n 18 2
  if d = 0 then none
  else if d = 1 then (s.microReq q).map fun r =>
    let o := (s.senseOffsets (s.fld (fPSQ_CTL_CHAN q)) r.ppa (pageType r.slc r.ppa) r.sel (sensesOf r.senses) (s.sq q).senseAt).1
    BitVec.ofInt 8 (o.getD (tgetD (s.sq q).counters 2 0 - 1) 0)
  else if d = 2 then some (BitVec.ofNat 8 (nanoBits n 0 8))
  else some 0#8

/-- What a nanoword drives (R287): `BUS` 1 a command cycle of `BYTE`, 2 an address cycle, 3 data out, 5 a status read. -/
def State.busCycle (s : State) (q n status : Nat) : BusCycle :=
  let b := nanoBits n 8 3
  { bus := b, phy := nanoBits n 67 4, sense := nanoBits n 71 1 == 1
    byte := if b = 1 then some (BitVec.ofNat 8 (nanoBits n 0 8)) else if b = 2 then s.addressByte q n
      else if b = 3 then s.dataByte q n else if b = 5 then some (BitVec.ofNat 8 status) else none }

/-- What a nanoword does: bus cycle, counter, timer, status, CE, slot and phase (R287). -/
def State.nanoEffect (s : State) (q n : Nat) (status : Nat) : State :=
  let e := s.sq q
  let e := if nanoBits n 44 1 = 1 then { e with counters := tput e.counters (nanoBits n 26 2) (nanoBits n 28 16) } else e
  let e := if nanoBits n 48 1 = 1 then { e with timers := tput e.timers (nanoBits n 46 2) (s.now + s.classTimeout q) } else e
  let e := if nanoBits n 8 3 = 5 ∨ (nanoBits n 8 3 = 4 ∧ nanoBits n 20 2 = 1) then { e with status := status } else e
  let e := if nanoBits n 16 2 = 1 then { e with ceOn := (s.microReq q).map fun r => r.lun / 4 }
    else if nanoBits n 16 2 = 2 then { e with ceOn := none } else e
  let e := if nanoBits n 45 1 = 1 then { e with slotAt := s.nextSlot q } else e
  let e := { e with cycle := some (s.busCycle q n status), senseAt := e.senseAt + nanoBits n 71 1 }
  let s := s.setSq q e
  match s.microReq q with
  | none => s
  | some r =>
    let ph := nanoBits n 49 2
    if ph = 2 then s.psqSuspend q r.lun r
    else if ph = 1 ∨ ph = 3 then s.psqPut q r { r with startedAt := s.now }
    else s

/-- The program counter moves, and the executed clocks are counted with the nanoword's `HOLD` (R285, R287). -/
def State.microNext (s : State) (q pc clocks n : Nat) : State :=
  let s := s.setFld (fPSQ_STAT_PC q) (pc % 4096)
  s.incWrap (fPSQ_STAT_STEPS q) (clocks + nanoBits n 51 16)

/-- A jump target in the customer region needs it loaded (R288). -/
def State.farIllegal (s : State) (q a : Nat) : Bool := 0xC00 ≤ a * 2 && !s.flag (fPSQ_SIG_CUST q)

/-- A signed field of `ARG`. -/
def argSigned (a w : Nat) : Int := if a % 2 ^ w < 2 ^ (w - 1) then Int.ofNat (a % 2 ^ w) else Int.ofNat (a % 2 ^ w) - 2 ^ w

/-- The microword at the program counter executes, if its `SQ` is `op` (R285): `seen` and `status` are what the die, the data
path and the Loupe channel show, `expired` that the timer of a `WAIT` expires first. -/
def State.microStep (s : State) (q op : Nat) (seen expired : Bool) (status : Nat) : State :=
  let st := s.fld (fPSQ_STAT_STATE q)
  let w := s.microWord q
  let n := s.nanoWord q (microNano w)
  let pc := s.fld (fPSQ_STAT_PC q)
  let a := microArg w
  if (st != 2 && st != 3) || !s.flag (fPSQ_SIG_LOADED q) || microSq w != op then s
  else if microIllegal w || nanoIllegal n || (op == 5 && 4 ≤ (s.sq q).stack.length) || (op == 6 && (s.sq q).stack.isEmpty) ||
      ((op == 4 || op == 5) && s.farIllegal q a) then (s.psqEvent q 4).seqFail q false
  else
    let holds := s.microCond q (a / 128) n seen
    let c0 := tgetD (s.sq q).counters 0 0
    let s := s.nanoEffect q n status
    if op = 0 then s.microNext q (pc + 1) (if a = 0x7FF then c0 + 1 else a + 1) n
    else if op = 1 then s.microNext q (if holds then ((Int.ofNat (pc + 4096) + argSigned a 7) % 4096).toNat else pc + 1) 1 n
    else if op = 2 then
      (if expired && !holds then s.microNext q 0x040 1 n
       else if holds then s.microNext q (pc + 1) 1 n
       else s.microNext q pc 1 n)
    else if op = 3 then
      let k := a / 512
      let c := (tgetD (s.sq q).counters k 0 + 65535) % 65536
      let s := s.setSq q { s.sq q with counters := tput (s.sq q).counters k c }
      s.microNext q (if c = 0 then pc + 1 else ((Int.ofNat (pc + 4096) + argSigned a 9) % 4096).toNat) 1 n
    else if op = 4 then s.microNext q (a * 2) 1 n
    else if op = 5 then
      let s := s.setSq q { s.sq q with stack := (pc + 1) :: (s.sq q).stack }
      s.microNext q (a * 2) 1 n
    else if op = 6 then
      let e := s.sq q
      let s := s.setSq q { e with stack := e.stack.drop 1 }
      s.microNext q (e.stack.headD 0) 1 n
    else
      let s := s.microNext q pc 1 n
      match s.microReq q with
      | some r => ((s.setSq q { s.sq q with slotAt := none, senseAt := 0 }).psqFinish q r (a % 256) 0 0).psqRun q
      | none => s

end Sys2Proof.Machine
end

