-- ==== Sys2Proof/Machine/AssayOps.lean ====
section
/-! DEFINITION. Assay: the loops, what is learnt from, guard bands and alarms
(R340 to R360). -/

namespace Sys2Proof.Machine

open Sys2Proof

/-! ### Alarms (R353, R354) -/

/-- Alarm causes that the measures of an entry give: offset, gain, corrected bits (R341, R353). -/
def State.asyCauses (s : State) (e : AsyEntry) : Nat :=
  b2n (e.offsets.any fun o => s.fld fASY_GUARD_OFS < o.natAbs) +
    2 * b2n (decide (s.fld fASY_GUARD_GAIN < e.g.natAbs)) +
    4 * b2n (decide (Int.ofNat (s.fld fASY_GUARD_BER) * 16 < e.r))

/-- Every measure is below `HYSTPC` per cent of its threshold (R353). -/
def State.asyQuiet (s : State) (e : AsyEntry) : Bool :=
  let h := s.fld fASY_GUARD_HYSTPC
  (e.offsets.all fun o => o.natAbs * 100 < s.fld fASY_GUARD_OFS * h) &&
    decide (e.g.natAbs * 100 < s.fld fASY_GUARD_GAIN * h) &&
    decide (e.r * 100 < Int.ofNat (s.fld fASY_GUARD_BER * 16 * h))

/-- The notice of a raise or a clear (R353). -/
def State.asyNotice (s : State) (ix : Nat) (raise : Bool) (e : AsyEntry) : State :=
  if s.flag fASY_NOTE_EN then
    s.hwSend 116 (s.fld fASY_NOTE_DST) (s.fld fASY_NOTE_MBX) 0x160
      (payloadOf ([(0, 2, ix), (2, 1, b2n raise), (3, 1, e.acause)] ++ e.offsets.mapIdx fun i o => (8 + i, 1, (o % 256).toNat)))
  else s

/-- Learned entries of dies that are not lost (R354). -/
def State.learnedEntries (s : State) : Nat :=
  countIf (fun (x : Nat × AsyEntry) => x.2.learned && !s.dieLost (x.1 / 64)) s.assay.entries

/-- An alarm is raised: counts, notice, and a Notice record where the share first reaches a further whole per cent (R353, R354; log
entry 54). -/
def State.asyRaise (s : State) (ix : Nat) (e : AsyEntry) : State :=
  let s := s.putEntry ix e
  let was := s.fld fASY_ALARM_ACTIVE
  let s := (s.setFld fASY_ALARM_ACTIVE (was + 1)).incWrap fASY_ALARM_RAISES
  let s := s.asyNotice ix true e
  let n := s.learnedEntries
  let pct := 100 * (was + 1) / n
  if n != 0 && s.assay.told < pct then State.tell { s with assay := { s.assay with told := pct } } 2 .assayAlarm (was + 1) else s

/-- Evaluate the guard bands after an update (R353). -/
def State.asyGuard (s : State) (ix : Nat) (e : AsyEntry) : State :=
  let c := s.asyCauses e
  if c != 0 && !e.alarm then s.asyRaise ix { e with alarm := true, acause := c ||| e.acause }
  else if e.alarm && c == 0 && s.asyQuiet e && e.acause / 8 % 2 == 0 then
    let e' := { e with alarm := false, acause := 0 }
    let s := s.putEntry ix e'
    (s.setFld fASY_ALARM_ACTIVE (s.fld fASY_ALARM_ACTIVE - 1)).asyNotice ix false e'
  else s.putEntry ix { e with acause := e.acause ||| c }

/-! ### The loops (R344, R345) -/

/-- The update of an entry by an accepted record (R344, R345). -/
def State.asyUpdate (s : State) (e : AsyEntry) (r : LearnRec) (levels : List Nat) : AsyEntry :=
  let acq := e.n < s.fld fASY_LOOP_ACQN
  let m : Int := if acq then 4 else 1
  let d : Int := Int.ofNat (s.fld fASY_LOOP_DMAX) * (if acq then 2 else 1)
  let cl (x : Int) : Int := max (-d) (min d x)
  let err (k : Nat) : Int :=
    let p := r.pilots.getD (k - 1) (0, 0)
    Int.ofNat p.1 - Int.ofNat p.2
  let muO := Int.ofNat (s.fld fASY_LOOP_MU_O)
  let muG := Int.ofNat (s.fld fASY_LOOP_MU_G)
  let muA := Int.ofNat (s.fld fASY_LOOP_MU_A)
  let e1 :=
    if r.ptype = 3 then
      let es := err 1 + (Int.ofNat r.c01 - Int.ofNat r.c10).tdiv (Int.ofNat (s.fld fASY_LOOP_DDIV))
      { e with os := sat16 (e.os + cl ((es * muO * m).tdiv 4)) }
    else
      let sg := levels.foldl (fun a k => a + (Int.ofNat k - 4) * err k) 0
      let sa := levels.foldl (fun a k => a + levelSign k * err k) 0
      { e with
        o := (List.range 7).map fun i =>
          if levels.contains (i + 1) then sat16 (e.o.getD i 0 + cl ((err (i + 1) * muO * m).tdiv 4)) else e.o.getD i 0
        g := sat16 (e.g + cl ((sg * muG * m).tdiv 16))
        a := sat16 (e.a + cl ((sa * muA * m).tdiv 8)) }
  { e1 with
    r := max 0 (min 65535 (e1.r + (16 * Int.ofNat r.cbits - e1.r).tdiv 16))
    n := min 65535 (e1.n + 1), learned := true }

/-- The page's levels as positions of the eight offsets (R334, R346). -/
def State.recordLevels (s : State) (r : LearnRec) : List Nat := s.levelsOf r.chan r.ptype

/-- The entry of a record (R340). -/
def State.recordEntry (s : State) (r : LearnRec) : Nat :=
  (r.chan * 16 + r.lun) * 64 + min (r.block / 2 ^ s.fld fASY_GROUP_GSHIFT) 63

/-- Reseed an entry whose table read is uncorrectable, from the applied table (R351). -/
def State.asyTableError (s : State) (ix : Nat) : State :=
  let off := tgetD s.assay.applied ix [0, 0, 0, 0, 0, 0, 0, 0]
  let s := (s.incSat fASY_ERR_UE).setFld fASY_ERR_ENTRY ix
  let e := s.asyEntry ix
  s.putEntry ix { e with
    o := (List.range 7).map fun i => 16 * off.getD i 0, os := 16 * off.getD 7 0, g := 0, a := 0, n := s.fld fASY_LOOP_ACQN }

/-- A record is discarded by one of tests 2 to 5: counted (R346, R355). -/
def State.discard (s : State) (f : Fld) : State :=
  State.incSat { s with assay := { s.assay with discarded := s.assay.discarded + 1 } } f

/-- Assay takes a record in turn: the first test that it meets discards it (R346), else the entry is updated. -/
def State.asyTake (s : State) (r : LearnRec) (ecc : Ecc) : State :=
  let ix := s.recordEntry r
  if !s.flag fASY_CTL_LEARN || !s.flag fASY_STAT_READY then s.incSat fASY_CNT2_NOTREADY
  else if r.selector % 64 != 0 then s.discard fASY_CNT1_SELECT
  else
    let o := s.readOutcome 0 (tableAddr s ix) ecc .assay 116
    let s := if o.2 || o.1.mem.poisoned (tableAddr s ix) then o.1.asyTableError ix else o.1
    let e := s.asyEntry ix
    if r.flags % 2 == 1 || e.frozen then s.discard fASY_CNT1_FROZEN
    else if r.flags / 2 % 2 == 1 || r.flags / 16 % 2 == 1 then s.discard fASY_CNT1_FAILDEF
    else if r.flags / 32 % 2 == 1 then
      let s := s.discard fASY_CNT1_CLAMP
      let e' := { e with alarm := true, acause := e.acause ||| 8 }
      if e.alarm then s.putEntry ix e' else s.asyRaise ix e'
    else
      let off := s.appliedOf ix
      if (s.recordLevels r).any fun k => r.offsets.getD (k - 1) 0 != off.getD (k - 1) 0 then
        State.incWrap { s with assay := { s.assay with stale := s.assay.stale + 1 } } fASY_CNT0_STALE
      else
        let s := State.incWrap { s with assay := { s.assay with accepted := s.assay.accepted + 1 } } fASY_CNT0_ACCEPT
        s.asyGuard ix (s.asyUpdate e r (s.recordLevels r))

/-- The next record of the input (R346). -/
def State.asyNext (s : State) (ecc : Ecc) : State :=
  match s.assay.input with
  | [] => s
  | r :: t => State.asyTake { s with assay := { s.assay with input := t } } r ecc

/-! ### Load, copy, acquisition, entry commands (R348 to R352, R358, R360) -/

def State.asyLoad (s : State) : State :=
  if s.flag fASY_STAT_READY || s.flag fASY_STAT_BUSY then s
  else (State.setFld { s with assay := { s.assay with work := 1 } } fASY_STAT_BUSY 1)

/-- The entries that the table in DRAM gives; a poisoned one is zero, as its applied offsets are before the load (R348,
R351). -/
def State.asyFromTable (s : State) (ix : Nat) : AsyEntry :=
  let a := tableAddr s ix
  if (s.mem.firstPoison a 4).isSome then AsyEntry.zero
  else asyEntryOf (s.mem.read a 8) (s.mem.read (a + 8) 8) (s.mem.read (a + 16) 8) (s.mem.read (a + 24) 8)

/-- The firmware prepares Assay at a start (R348): the table area holds the newest saved table, zeros where there is none, the copy
area zeros, and the load starts. Without areas that `TBASE` and `SBASE` name there is nothing to prepare. -/
def State.asyPrepare (s : State) : State :=
  let t := s.fld fASY_TBASE_BASE
  let c := s.fld fASY_SBASE_BASE
  if s.asyAreaBad t c || s.asyAreaBad c t || s.flag fASY_STAT_READY || s.flag fASY_STAT_BUSY then s
  else
    let s := (List.range 32768).foldl (fun (u : State) ix =>
      (u.putWords (tableAddr u ix) (tgetD u.assay.saved ix AsyEntry.zero)).putWords (copyAddr u ix) AsyEntry.zero) s
    State.setFld { s with assay := { s.assay with work := 3 } } fASY_STAT_BUSY 1

/-- The load has ended: the applied table is built. After the firmware's own load `LEARN` is set, and the entries of dies that are
lost or whose LUN is offline are frozen (R348, R352). -/
def State.asyLoadDone (s : State) : State :=
  if s.assay.work ≠ 1 ∧ s.assay.work ≠ 3 then s
  else
    let l := (List.range 32768).filterMap fun ix =>
      let e := s.asyFromTable ix
      if e = AsyEntry.zero then none else some (ix, e)
    let t := s
    let s := { s with assay := { s.assay with
      work := 0, entries := l, applied := l.map fun (e : Nat × AsyEntry) => (e.1, e.2.offsets) } }
    let s := (s.setFld fASY_STAT_BUSY 0).setFld fASY_STAT_READY 1
    let mine := t.assay.work = 3
    let s := s.setFld fASY_ALARM_ACTIVE (countIf (fun (x : Nat × AsyEntry) => x.2.alarm) l)
    let s := (s.fw.lostDies.map (·.1) ++ s.fw.offlineAt.map (·.1)).foldl (fun (u : State) d => u.freezeDie d true) s
    if mine then s.setFld fASY_CTL_LEARN 1 else s

def State.asySnap (s : State) : State :=
  if s.flag fASY_STAT_BUSY then s
  else
    let s := { s with assay := { s.assay with work := 2 } }
    (s.setFld fASY_STAT_BUSY 1).setFld fASY_STAT_SNAPOK 0

/-- The firmware asks for a copy with each snapshot, where Assay is ready and idle (R349). -/
def State.asyCopies (s : State) : State := if s.flag fASY_STAT_READY then s.asySnap else s

/-- The firmware writes the copy to flash (R349): the saved table is the newest. -/
def State.saveAssay (s : State) : State :=
  if s.flag fASY_STAT_READY then { s with assay := { s.assay with saved := s.assay.entries, savedHours := s.hours } } else s

/-- The copy of every entry is complete (R349). -/
def State.asySnapDone (s : State) : State :=
  if s.assay.work ≠ 2 then s
  else
    let m := (List.range 32768).foldl (fun (m : Mem) ix => m.writeDoubles (copyAddr s ix) (s.asyEntry ix).words) s.mem
    let s : State := { s with mem := m, assay := { s.assay with work := 0 } }
    (s.saveAssay.setFld fASY_STAT_BUSY 0).setFld fASY_STAT_SNAPOK 1

/-- `ACQ`: `N` becomes 0 in every entry (R350, R359). -/
def State.asyAcq (s : State) : State :=
  s.assay.entries.foldl (fun (t : State) e => t.putEntry e.1 { t.asyEntry e.1 with n := 0 }) s

/-- One entry command (R352): 1 freeze, 2 thaw, 3 reseed. -/
def State.asyCmdOn (s : State) (op ix : Nat) : State :=
  let e := s.asyEntry ix
  if op = 1 then s.putEntry ix { e with frozen := true }
  else if op = 2 then s.putEntry ix { e with frozen := false }
  else
    let s := if e.alarm then
        (s.setFld fASY_ALARM_ACTIVE (s.fld fASY_ALARM_ACTIVE - 1)).asyNotice ix false { e with alarm := false, acause := 0 }
      else s
    s.putEntry ix AsyEntry.zero

def State.asyCmd (s : State) (op : Nat) (allg : Bool) : State :=
  let d := s.fld fASY_ESEL_DIE
  if allg then (List.range 64).foldl (fun (t : State) g => t.asyCmdOn op (d * 64 + g)) s
  else s.asyCmdOn op (d * 64 + s.fld fASY_ESEL_GROUP)

/-- `ASY_EAPP`: the applied offsets of the selected entry (R358). -/
def State.asyApplied (s : State) : Word :=
  let off := s.appliedOf (s.fld fASY_ESEL_DIE * 64 + s.fld fASY_ESEL_GROUP)
  BitVec.ofNat 64 (sumOf (fun i => ((off.getD i 0) % 256).toNat * 2 ^ (8 * i)) (List.range 8))

end Sys2Proof.Machine
end

