-- ==== Sys2Proof/Machine/ParOps.lean ====
section
/-! DEFINITION. Arithmetic in GF(2^8) and the parity engine (R97, R370 to R374, R401 to R403). -/

namespace Sys2Proof.Machine

open Sys2Proof

/-! ### GF(2^8) with polynomial 0x11D (R97) -/

/-- Multiply by g = 0x02. -/
def gfDouble (a : Byte) : Byte := if a.getLsbD 7 then (a <<< 1) ^^^ 0x1D#8 else a <<< 1

/-- Shift and add over the low `n` bits of `b`. -/
def gfMulGo (a b : Byte) : Nat → Byte
  | 0 => 0#8
  | n + 1 => (if b.getLsbD 0 then a else 0#8) ^^^ gfMulGo (gfDouble a) (b >>> 1) n

/-- The product of two elements. -/
def gfMul (a b : Byte) : Byte := gfMulGo a b 8

/-- g to a power. -/
def gfPow : Nat → Byte
  | 0 => 1#8
  | n + 1 => gfDouble (gfPow n)

/-- The inverse of a non-zero element: its 254th power. -/
def gfInv (a : Byte) : Byte := (List.range 253).foldl (fun x _ => gfMul x a) a

/-- Byte `i` of a double. -/
def byteAt (w : Word) (i : Nat) : Byte := BitVec.ofNat 8 (w.toNat >>> (8 * i))

/-- A double from eight bytes. -/
def wordOfBytes (f : Nat → Byte) : Word :=
  BitVec.ofNat 64 (sumOf (fun i => (f i).toNat <<< (8 * i)) (List.range 8))

/-- Each byte of a double times `c`. -/
def gfScale (c : Byte) (w : Word) : Word := wordOfBytes fun i => gfMul (byteAt w i) c

/-! ### Parity spans (R370) -/

/-- The parity span of a bead: 512 doubles of data, 8 of metadata. -/
def Mem.span (m : Mem) (b : Nat) : List Word := m.readDoubles (beadAddr b) 512 ++ m.readDoubles (beadMetaAddr b) 8
def Mem.writeSpan (m : Mem) (b : Nat) (l : List Word) : Mem :=
  (m.writeDoubles (beadAddr b) (l.take 512)).writeDoubles (beadMetaAddr b) (l.drop 512)
def Mem.spanPoisoned (m : Mem) (b : Nat) : Bool := (m.firstPoison (beadAddr b) 512).isSome || (m.firstPoison (beadMetaAddr b) 8).isSome

def zeroSpan : List Word := List.replicate 520 0#64
def xorSpan (a b : List Word) : List Word := List.zipWith (· ^^^ ·) a b
def scaleSpan (c : Byte) (a : List Word) : List Word := a.map (gfScale c)

/-- The XOR of data spans, and the sum of g^i times each (R370): positions and spans. -/
def sumP (l : List (Nat × List Word)) : List Word := l.foldl (fun a e => xorSpan a e.2) zeroSpan
def sumQ (l : List (Nat × List Word)) : List Word := l.foldl (fun a e => xorSpan a (scaleSpan (gfPow e.1) e.2)) zeroSpan

/-! ### Jobs (R373, R374) -/

/-- A job as its message carries it (R373). -/
structure ParReq where
  op : Nat
  k : Nat
  mbx : Nat
  ep : Nat
  a : Nat
  b : Nat
  tag : Nat
  beads : List Nat
  src : Nat
  deriving DecidableEq, Repr

def parseParReq (m : Msg) : ParReq :=
  let p := m.payload
  ⟨pGet p 0 1, pGet p 1 1, pGet p 2 1 % 16, pGet p 3 1 % 128, pGet p 4 1, pGet p 5 1, pGet p 8 4,
    (List.range 18).map fun i => pGet p (12 + 2 * i) 2, m.src⟩

def ParReq.at (r : ParReq) (i : Nat) : Nat := r.beads.getD i 0xFFFF
def ParReq.present (r : ParReq) (i : Nat) : Bool := r.at i != 0xFFFF

/-- The positions that a job reads, and those that it writes (R371, R373). -/
def ParReq.reads (r : ParReq) : List Nat :=
  let data := List.range r.k
  if r.op = 1 then data
  else if r.op = 2 then
    (if r.a < r.k then data.filter (· != r.a) ++ [if r.present r.k then r.k else r.k + 1] else data)
  else if r.op = 3 then
    (if r.b < r.k then data.filter (fun i => i != r.a && i != r.b) ++ [r.k, r.k + 1]
     else if r.a < r.k then data.filter (· != r.a) ++ [if r.b = r.k then r.k + 1 else r.k]
     else data)
  else List.range (r.k + 2)

def ParReq.writes (r : ParReq) : List Nat :=
  if r.op = 1 then [r.k, r.k + 1] else if r.op = 2 then [r.a] else if r.op = 3 then [r.a, r.b] else []

/-- The job is valid: operation, k, positions, beads present and granted to the sender (R373). -/
def State.parValid (s : State) (r : ParReq) : Bool :=
  1 ≤ r.op && r.op ≤ 4 && 4 ≤ r.k && r.k ≤ 16 &&
    (r.op != 2 || r.a < r.k + 2) && (r.op != 3 || (r.a < r.b && r.b < r.k + 2)) &&
    ((r.reads ++ r.writes).all fun i => r.present i && s.granted (r.at i) (s.mailEp r.src))

/-- The data members other than some positions, with their spans. -/
def State.parData (s : State) (r : ParReq) (without : List Nat) : List (Nat × List Word) :=
  ((List.range r.k).filter fun i => !without.contains i).map fun i => (i, s.mem.span (r.at i))

/-- Rebuild one data position from P, or from Q (R371). -/
def State.parOne (s : State) (r : ParReq) (a : Nat) (fromP : Bool) : List Word :=
  let d := s.parData r [a]
  if fromP then xorSpan (s.mem.span (r.at r.k)) (sumP d)
  else scaleSpan (gfInv (gfPow a)) (xorSpan (s.mem.span (r.at (r.k + 1))) (sumQ d))

/-- What a job writes: positions and spans (R370, R371). -/
def State.parResult (s : State) (r : ParReq) : List (Nat × List Word) :=
  if r.op = 1 then [(r.k, sumP (s.parData r [])), (r.k + 1, sumQ (s.parData r []))]
  else if r.op = 2 then
    (if r.a < r.k then [(r.a, s.parOne r r.a (r.present r.k))]
     else if r.a = r.k then [(r.k, sumP (s.parData r []))]
     else [(r.k + 1, sumQ (s.parData r []))])
  else if r.op = 3 then
    (if r.b < r.k then
      let d := s.parData r [r.a, r.b]
      let sp := xorSpan (s.mem.span (r.at r.k)) (sumP d)
      let sq := xorSpan (s.mem.span (r.at (r.k + 1))) (sumQ d)
      let da := scaleSpan (gfInv (gfPow r.a ^^^ gfPow r.b)) (xorSpan (scaleSpan (gfPow r.b) sp) sq)
      [(r.a, da), (r.b, xorSpan sp da)]
     else if r.a < r.k then
      let da := s.parOne r r.a (r.b != r.k)
      let all := (r.a, da) :: s.parData r [r.a]
      [(r.a, da), (r.b, if r.b = r.k then sumP all else sumQ all)]
     else [(r.k, sumP (s.parData r [])), (r.k + 1, sumQ (s.parData r []))])
  else []

/-- Sp and Sq at every byte offset that mismatches (R374). -/
def State.parMismatches (s : State) (r : ParReq) : List (Nat × Byte × Byte) :=
  let d := s.parData r []
  let sp := xorSpan (s.mem.span (r.at r.k)) (sumP d)
  let sq := xorSpan (s.mem.span (r.at (r.k + 1))) (sumQ d)
  (List.range 4160).filterMap fun x =>
    let p := byteAt (sp.getD (x / 8) 0#64) (x % 8)
    let q := byteAt (sq.getD (x / 8) 0#64) (x % 8)
    if p = 0#8 ∧ q = 0#8 then none else some (x, p, q)

/-- Where the mismatches are located, 0xFF where they are not (R374). -/
def parLocate (k : Nat) (l : List (Nat × Byte × Byte)) : Nat :=
  if l.all fun e => e.2.1 != 0#8 && e.2.2 == 0#8 then k
  else if l.all fun e => e.2.1 == 0#8 && e.2.2 != 0#8 then k + 1
  else ((List.range k).find? fun i => l.all fun e => e.2.1 != 0#8 && e.2.2 == gfMul (gfPow i) e.2.1).getD 0xFF

/-- The reply to a job (R374). -/
def State.parReply (s : State) (j : ParJob) : State :=
  s.hwSend 115 j.replyEp j.replyMbx 0x171
    (payloadOf [(0, 1, j.op), (1, 1, j.status), (2, 1, j.mism), (3, 1, j.located), (4, 4, j.offsets), (8, 4, j.tag), (12, 4, j.first)])

/-- `PAR_STAT` (R402). -/
def State.parView (s : State) : State :=
  (s.setFld fPAR_STAT_ACTIVE s.par.length).setFld fPAR_STAT_QUEUED (s.box 115 0).length

def ParReq.job (r : ParReq) (status : Nat) : ParJob := ⟨r.op, r.k, r.mbx, r.ep, r.tag, r.src, status, 0, 0, 0, 0⟩

/-- Counts of a job that runs (R402). -/
def State.parCount (s : State) (op : Nat) : State :=
  if op = 1 then s.incWrap fPAR_CNT0_ENC
  else if op = 2 then s.incWrap fPAR_CNT0_REC
  else if op = 3 then (s.incWrap fPAR_CNT0_REC).incSat fPAR_CNT1_REC2
  else s.incWrap fPAR_CNT1_CHECK

/-- A valid job runs, up to the first bead with an uncorrectable double (R187, R591). -/
def State.parRun (s : State) (r : ParReq) (errors : List BeadError) : State :=
  let s := s.parCount r.op
  let beads := r.reads.map r.at
  let l := errors.filter fun e => decide (e.double.val < 520)
  let bad := beads.find? fun b => s.mem.spanPoisoned b || fatalIn l b
  let read := bad.elim beads fun b => beads.takeWhile (· != b) ++ [b]
  let s := s.meetErrors (l.filter fun e => read.contains e.bead.toNat) .parity 115
  match bad with
  | some b =>
    let s := (s.incSat fPAR_ERR_BEADUE).setFld fPAR_ERR_BEAD b
    { s with par := s.par ++ [{ r.job 3 with first := b }] }
  | none =>
    if r.op = 4 then
      let l := s.parMismatches r
      let l := if s.flag fPAR_CTL_CHKSTOP then l.take 1 else l
      if l.isEmpty then { s with par := s.par ++ [{ r.job 0 with located := 0xFF }] }
      else
        let s := s.incSat fPAR_CNT1_MISMATCH
        { s with par := s.par ++ [{ r.job 1 with
          mism := b2n (l.any fun e => e.2.1 != 0#8) + 2 * b2n (l.any fun e => e.2.2 != 0#8)
          located := if s.flag fPAR_CTL_CHKSTOP then 0xFF else parLocate r.k l
          offsets := l.length, first := (l.headD (0, 0#8, 0#8)).1 }] }
    else
      let m := (s.parResult r).foldl (fun (m : Mem) e => m.writeSpan (r.at e.1) e.2) s.mem
      { s with mem := m, par := s.par ++ [r.job 0] }

/-- Take a job of operation `op` from mailbox 0, while `EN` = 1 and fewer than `SLOTS` jobs run (R373, R402). -/
def State.parTake (s : State) (op : Nat) (errors : List BeadError) : State :=
  match s.box 115 0 with
  | m :: rest =>
    let r := parseParReq m
    if r.op ≠ op ∨ s.flag fPAR_CTL_EN = false ∨ s.fld fPAR_CFG_SLOTS ≤ s.par.length then s
    else
      let s := s.setBox 115 0 rest
      (if s.parValid r then s.parRun r errors else (s.incSat fPAR_ERR_REFUSED).parReply (r.job 2)).parView
  | [] => s

/-- A message to another mailbox, or of no operation of R373, is answered with status 2 (R373). -/
def State.parTurnAway (s : State) : State :=
  let s := (List.range 15).foldl (fun (t : State) i =>
    (t.box 115 (i + 1)).foldl (fun (u : State) m =>
      ((u.setBox 115 (i + 1) []).incSat fPAR_ERR_REFUSED).parReply ((parseParReq m).job 2)) t) s
  match s.box 115 0 with
  | m :: rest =>
    if m.sub != 0x170 || (parseParReq m).op == 0 || 4 < (parseParReq m).op then
      (((s.setBox 115 0 rest).incSat fPAR_ERR_REFUSED).parReply ((parseParReq m).job 2)).parView
    else s.parView
  | [] => s

/-- The oldest job ends with its reply (R374). -/
def State.parDone (s : State) : State :=
  match s.par with
  | [] => s
  | j :: t => (State.parReply { s with par := t } j).parView

end Sys2Proof.Machine
end

