-- ==== Sys2Proof/Machine/CtlFlash.lean ====
section
/-! DEFINITION. Writes of the registers of the PSQ, LPE, ASY and PAR blocks that do more than keep a value: which writes
are refused with an access fault, DETAIL 0x02, and what the others do; and the views that a load of them gives (R281 to
R283, R302, R309 to R311, R338, R339, R348 to R352, R358 to R360, R402, R403, R590). -/

namespace Sys2Proof.Machine

open Sys2Proof

/-! ### Sequencers (R310, R311) -/

/-- The sequencer of a PSQ block, and the offset within the block (R31). -/
def psqBlock (off : Nat) : Nat := (off - 0x100000) / 0x10000
def psqReg (off : Nat) : Nat := (off - 0x100000) % 0x10000

/-- A mode with a rate of R277. -/
def psqRateOk (mode mts : Nat) : Bool :=
  (mode == 0 && mts ≤ 10) || (mode == 1 && [800, 1200, 1600].contains mts) ||
    (mode == 2 && [2400, 2800, 3200, 3600].contains mts)

/-- Bytes of a channel's die parameter record, if firmware holds one (R279). -/
def State.dieByte (s : State) (chan i : Nat) : Option Nat :=
  (tget s.fw.records chan).map fun l => (l.getD i 0#8).toNat

/-- The highest rate of the channel's dies, record bytes 40–41 (R279). -/
def State.dieRate (s : State) (chan : Nat) : Option Nat :=
  (s.dieByte chan 40).map fun a => a + 256 * (s.dieByte chan 41).getD 0

/-- R311, R590. A write to the block of a fused-off sequencer is refused too, with the same detail. -/
def State.refusePsq (s : State) (off : Nat) (v : Word) : Bool :=
  let q := psqBlock off
  let o := psqReg off
  let active := s.fld (fPSQ_STAT_ACTIVE q) != 0
  if !s.part.seqOn q then true
  else if o = 0x10 then
    !psqRateOk (bits v 0 2) (bits v 8 12) ||
      (match s.dieRate (s.fld (fPSQ_CTL_CHAN q)) with
       | some r => r < bits v 8 12
       | none => false)
  else if o = 0x60 ∨ o = 0x70 then active
  else if o = 0x38 then active || bits v 7 9 != 0
  else if o = 0x68 then bits v 0 16 < 5 || 1000 < bits v 0 16
  else if o = 0x50 then s.badDst v 0 || badMbx v 8
  else false

/-- When a LUN went offline, kept while it stays so (R380); its entries of Assay are frozen, and thawed when it returns (R352). -/
def State.noteOffline (s : State) (q l : Nat) : State :=
  let d := s.fld (fPSQ_CTL_CHAN q) * 16 + l
  let t := s.fw.offlineAt
  if s.lunOff q l then
    (if (tget t d).isSome then s else (s.freezeDie d true).withFw { s.fw with offlineAt := tput t d s.now })
  else if (tget t d).isNone then s
  else
    let s := { s with flt := { s.flt with blamedDies := s.flt.blamedDies.filter (· != d) } }
    (if s.dieLost d then s else s.freezeDie d false).withFw { s.fw with offlineAt := tdel t d }

/-- PSQ: `EN` rising starts the bring-up, `APPLY` and `FULL` full training, `RETRIM` a re-trim; a LUN that goes offline has
its requests answered (R281 to R283, R302, R310). -/
def State.actPsq (s : State) (off : Nat) (v new : Word) : State :=
  let q := psqBlock off
  let o := psqReg off
  if o = 0 then
    let was := s.flag (fPSQ_CTL_EN q)
    let s := s.setReg off (setBits new 0 1 (b2n was))
    if bit v 0 && !was then (s.psqBringUp q).psqRun q
    else (s.setFld (fPSQ_CTL_EN q) (b2n (bit v 0))).psqRun q
  else if o = 0x10 then
    let s := s.setReg off (setBits new 20 1 0)
    if bit v 20 then s.startTraining q 2 else s
  else if o = 0x18 then
    if bit v 0 then s.startTraining q 2
    else if bit v 1 then s.startRetrim q
    else s
  else if o = 0x40 then
    let s := s.setReg off new
    ((List.range 16).foldl (fun (t : State) l => (t.noteOffline q l).psqDropOff q l) s).psqRun q
  else s.setReg off new

/-- What a load of a PSQ register shows: `AGE` is the time since the last re-trim (R310); `PC`, `STEPS` and the counts keep
their last agreed values while the control clasp is not CLOSED (R115, R309). -/
def State.viewPsq (s : State) (off : Nat) (w : Word) : Word :=
  if psqReg off = 0x08 then
    (match s.heldLanes (psqBlock off) with
    | some h => setBits (setBits w 8 12 (bits h.1 8 12)) 32 32 (bits h.1 32 32)
    | none => w)
  else if psqReg off = 0x78 then (match s.heldLanes (psqBlock off) with | some h => h.2 | none => w)
  else if psqReg off = 0x18 then setBits w 32 16 (min 65535 ((s.now - (s.sq (psqBlock off)).trimAt) / 1000000)) else w

/-! ### Loupe channels (R327, R338, R339) -/

def lpeBlock (off : Nat) : Nat := (off - 0x400000) / 0x4000
def lpeReg (off : Nat) : Nat := (off - 0x400000) % 0x4000

/-- What a load of `LPE_DEC` shows (R327, R338): the two hard decoders and the three of the pool that are busy, and the slots that
wait for the pool. -/
def State.viewLpe (s : State) (off : Nat) (w : Word) : Word :=
  let c := lpeBlock off
  if lpeReg off = 0x48 then
    setBits (setBits (setBits w 0 2 (min 2 (s.readyOn c false).length)) 2 2 (min 3 (s.poolSlots c).length)) 8 8
      (min 255 (s.softWaiting c))
  else w

/-- R339. -/
def State.refuseLpe (s : State) (off : Nat) (v : Word) : Bool :=
  let o := lpeReg off
  if o = 0x10 then (List.range 8).any fun k => !(List.range 8).any fun j => bits v (3 * j) 3 == k
  else if o = 0x08 then bits v 8 3 == 0 || 6 < bits v 8 3
  else if o = 0x18 then
    bits v 0 4 == 0 || bits v 4 4 == 0 ||
      (match s.dieByte (lpeBlock off) 35 with
       | some m => m < bits v 8 8
       | none => false)
  else if o = 0x30 then bits v 0 6 == 0 || bits v 32 5 == 0
  else if 0x200 ≤ o ∧ o < 0x600 then 18751 < bits v 8 15
  else false

/-! ### Assay (R358 to R360) -/

/-- R360, R590. -/
def State.refuseAsy (s : State) (off : Nat) (v : Word) : Bool :=
  let ready := s.flag fASY_STAT_READY
  let busy := s.flag fASY_STAT_BUSY
  if off = rASY_TBASE then ready || s.asyAreaBad (bits v 20 20) (s.fld fASY_SBASE_BASE)
  else if off = rASY_SBASE then ready || s.asyAreaBad (bits v 20 20) (s.fld fASY_TBASE_BASE)
  else if off = rASY_GROUP then ready || bits v 0 4 < 6 || 10 < bits v 0 4
  else if off = rASY_CTL then (bit v 1 && (ready || busy)) || (bit v 2 && busy)
  else if off = rASY_LOOP then
    bits v 0 4 < 1 || 8 < bits v 0 4 || 4 < bits v 4 4 || 4 < bits v 8 4 || bits v 16 8 < 1 || 32 < bits v 16 8 ||
      bits v 32 8 < 1
  else if off = rASY_GUARD then bits v 32 8 < 1 || 99 < bits v 32 8
  else if off = rASY_NOTE then s.badDst v 0 || badMbx v 8
  else if off = rASY_ECMD then bits v 0 3 < 1 || 3 < bits v 0 3 || s.flag fASY_STAT_ECPEND
  else false

/-- ASY: `LOAD`, `SNAP`, `ACQ` and the entry commands act; an entry command is over at once (R348 to R352, R359). -/
def State.actAsy (s : State) (off : Nat) (v new : Word) : State :=
  if off = rASY_CTL then
    let s := s.setReg off (setBits new 1 3 0)
    let s := if bit v 1 then s.asyLoad else s
    let s := if bit v 2 then s.asySnap else s
    if bit v 3 then s.asyAcq else s
  else if off = rASY_ECMD then s.asyCmd (bits v 0 3) (bit v 3)
  else s.setReg off new

/-! ### The parity engine (R402, R403) -/

/-- R403. -/
def State.refusePar (s : State) (off : Nat) (v : Word) : Bool :=
  if off = rPAR_CFG then bits v 0 5 < 1 || 16 < bits v 0 5
  else if off = rPAR_CTL then !bit v 0 && s.fld fPAR_STAT_ACTIVE != 0
  else false

end Sys2Proof.Machine
end

