-- ==== Sys2Proof/Machine/PwrOps.lean ====
section
/-! DEFINITION. The regulator, sleep entry, the pad hold latches and the time that sleep adds (R27, R30, R529 to R541, R544
to R546, R572). -/

namespace Sys2Proof.Machine

open Sys2Proof

def State.withPwr (s : State) (p : Pwr) : State := { s with pwr := p }

/-! ### The regulator (R27, R572) -/

/-- A voltage that the device may request: 550 to 850 mV in steps of 5 mV (R27). -/
def goodMv (mv : Nat) : Bool := 550 ≤ mv && mv ≤ 850 && mv % 5 == 0

/-- Send a voltage request over AVSBus (R572). -/
def State.avsRequest (s : State) (mv : Nat) : State := (s.setFld fPWR_AVS_REQ mv).setFld fPWR_AVS_BUSY 1

/-- An AVSBus transaction ends: with the voltage and the power-good bit that the regulator gives, or failed (R572). -/
def State.avsDone (s : State) (mv : Nat) (good ok : Bool) : State :=
  if !s.flag fPWR_AVS_BUSY then s
  else
    let s := s.setFld fPWR_AVS_BUSY 0
    if ok then ((s.setFld fPWR_AVS_READ mv).setFld fPWR_AVS_PG (b2n good)).setFld fPWR_AVS_ERR 0
    else s.setFld fPWR_AVS_ERR 1

/-! ### Pad hold latches (R534) -/

/-- The clasps of the islands that a pad group belongs to (R104, R534): DDR5 channels, flash channels by halves, xSPI,
PCIe. -/
def groupClasps (g : Nat) : List Nat :=
  if g = 0 then [2, 3]
  else if g = 1 then [4, 5]
  else if g = 2 then (List.range 32).map (8 + ·)
  else if g = 3 then (List.range 32).map (40 + ·)
  else if g = 4 then [6]
  else [0, 1]

/-- An island of the group is unpowered. -/
def State.groupOff (s : State) (g : Nat) : Bool :=
  (groupClasps g).any fun c => !s.claspFused c && sHas s.pwr.off c

/-- A write of `PAD_HOLD` that would release a held group of an unpowered island (R534). -/
def State.refusePad (s : State) (off : Nat) (v : Word) : Bool :=
  off == rPAD_HOLD && (List.range 6).any fun g => bit v g && bit (s.reg rPAD_HOLD) g && s.groupOff g

/-! ### Sleep entry (R530 to R533) -/

/-- `ARC_MODE.CUR` is Idle-Retain or Deep Sleep (R38). -/
def idleRetain : Nat := 8
def deepSleep : Nat := 9

/-- Whether a byte of memory keeps its contents through Idle-Retain with the banks of `mask` retained (R530, R531): the
stores of the cores, DRAM, and the retained banks of cluster SRAM. -/
def keptIdle (mask a : Nat) : Bool :=
  match regionAt (a % 2 ^ 40) with
  | .sram c =>
    let o := (a - 0x0100000000) % 0x1000000
    2 ^ 40 ≤ a || (0x380000 ≤ o && mask / 2 ^ (2 * c + (if o < 0x3C0000 then 0 else 1)) % 2 == 1)
  | .beadData _ => 2 ^ 40 ≤ a
  | .beadMeta _ => 2 ^ 40 ≤ a
  | _ => true

/-- Through Deep Sleep only the retained banks keep their contents (R531). -/
def keptDeep (mask a : Nat) : Bool :=
  match regionAt (a % 2 ^ 40) with
  | .sram _ => a < 2 ^ 40 && keptIdle mask a
  | _ => false

/-- Memory with only the bytes that satisfy `p`, their poison marks and tags. -/
def Mem.keep (m : Mem) (p : Nat → Bool) : Mem :=
  ⟨m.cells.filter (fun c => p c.1), m.poison.filter (fun c => p c.1), m.tags.filter (fun c => p c.1)⟩

/-- The clasps of the islands that power down for a sleep (R532, R533): all but PCIe's, and PCIe's too in Deep Sleep. -/
def sleepClasps (deep : Bool) : List Nat := if deep then List.range 76 else (List.range 74).map (2 + ·)

/-- A sequencer whose island lost its supply: its control stores and execution state are gone, its core-side registers and
shadow table stay (R309, R531). -/
def State.psqPowerDown (s : State) (q : Nat) : State :=
  if !s.part.seqOn q then s
  else
    let s := s.islandLoses q
    let s := s.setSq q { s.sq q with training := 0 }
    let s := { s with regs := s.regs.filter fun (r : Nat × Word) => !(rPSQ_NANO q 0 ≤ r.1 && r.1 < rPSQ_NANO q 0 + 0xC000) }
    let s := (s.setReg (rPSQ_SIG q) 0#64).setFld (fPSQ_TRAIN_BUSY q) 0
    if s.fld (fPSQ_STAT_STATE q) = 6 then s else s.setFld (fPSQ_STAT_STATE q) 0

/-- The pad groups that entry latches (R534). -/
def sleepGroups (deep : Bool) : Nat := if deep then 0x3F else 0x1F

/-- The ring period is measured against the crystal, a free value; without the crystal the last one is used (R540). -/
def State.ringCalibrate (s : State) : State :=
  if s.flag fPWR_XTAL_OK then
    ((s.tick.setFld fTMR_RCAL_PERIOD (freshWord s).toNat).setFld fTMR_RCAL_VALID 1).withPwr { s.pwr with rcalAt := s.now }
  else s.setFld fTMR_STAT_EST 1

/-- What the banks beside cluster SRAM lose where the mask does not retain them: Assay's applied table, the queue contexts, the
NVMe registers and features, the map directory (R530). -/
def State.loseBanks (s : State) (mask : Nat) : State :=
  let keeps (b : Nat) : Bool := mask.testBit b
  let s := if keeps 12 then s else { s with assay := { s.assay with applied := [] } }
  let s := if keeps 13 then s else { s with hqe := { s.hqe with sqs := [], cqs := [], coalesced := [] } }
  let s := if keeps 14 then s else State.setReg { s with hqe := { s.hqe with cc := 0, features := s.hqe.saved } } rTMR_STAMP 0#64
  if keeps 15 then s else { s with map := ⟨[], [], [], []⟩ }

/-- Step 5 of entry (R532, R533), by Solitaire: clasps open with cause 0x5, pads are latched, islands power down, arrays are
gated and the retention voltage is requested; Deep Sleep also drops CORE_EN and with it everything but the banks. -/
def State.sleepStep5 (s : State) (deep : Bool) : State :=
  let mask := if deep then s.fld fPWR_RMASK_DS else s.fld fPWR_RMASK_IR
  let s := s.lkSleep
  let s := (List.range 74).foldl (fun (t : State) i => t.claspOpen (2 + i)) s
  let s := if deep then (s.claspOpen 0).claspOpen 1 else s
  let s := s.ringCalibrate
  let s := (s.setReg rPAD_HOLD (s.reg rPAD_HOLD ||| BitVec.ofNat 64 (sleepGroups deep))).setFld fPAD_STAT_LAST (sleepGroups deep)
  let s := (List.range 34).foldl State.psqPowerDown s
  let s := { s with clasps := { s.clasps with
    inReset := (sleepClasps deep).foldl (fun (t : Tab Unit) c => if s.claspFused c then t else sAdd t c) s.clasps.inReset } }
  let s := s.withPwr { s.pwr with
    off := (sleepClasps deep).foldl (fun (t : Tab Unit) c => if s.claspFused c then t else sAdd t c) s.pwr.off
    deep := deep, banks := mask, entry := 0, wakeRefused := false
    coreEn := !deep, crystal := false }
  let s := ((s.setFld fPWR_XTAL_OK 0).setFld fTMR_STAT_XTAL 0).setFld fARC_PACE_VALID 0
  let s := (s.withMem (s.mem.keep (if deep then keptDeep mask else keptIdle mask))).loseBanks mask
  let s := if deep then { s with cores := [], net := [], mbox := [], sig := { s.sig with loaded := [] } } else s.avsRequest (s.fld fPWR_AVSW_RETMV)
  (s.setFld fPWR_STAT_STATE 2).incWrap fPWR_STAT_SLEEPS

/-- Step 5 once Locket has no program in progress, for which entry waits in state 1 (R523, R532). -/
def State.sleepWhenQuiet (s : State) : State :=
  if s.lkt.program.isSome then s.setFld fPWR_STAT_STATE 1 else s.sleepStep5 (s.fld fPWR_CTL_TARGET == deepSleep)

/-- A write of `PWR_CTL` (R533, R544): `GO` starts step 5 with the target that is the current mode. -/
def State.actPwrCtl (s : State) (off : Nat) (v new : Word) : State :=
  let s := s.setReg off (setBits new 4 1 0)
  let t := bits v 0 4
  if bit v 4 && (t == idleRetain || t == deepSleep) && s.fld fPWR_STAT_STATE == 0 then s.sleepWhenQuiet else s

/-- The refused writes of R544 and R533, and of R590. -/
def State.refusePwr (s : State) (off : Nat) (v : Word) : Bool :=
  if off = rPWR_CTL then bit v 4 && bits v 0 4 != s.fld fARC_MODE_CUR
  else if off = rPWR_AVS then !goodMv (bits v 0 10)
  else if off = rPWR_AVSW then !goodMv (bits v 0 10) || !goodMv (bits v 10 10) || !goodMv (bits v 20 10)
  else if off = rPWR_WAKE then bit v 2 && bits v 16 32 == 0
  else if off = rPWR_NOTE then s.badDst v 0 || badMbx v 8
  else false

def State.actPwr (s : State) (off : Nat) (v new : Word) : State :=
  if off = rPWR_CTL then s.actPwrCtl off v new
  else if off = rPWR_AVS then s.avsRequest (bits v 0 10)
  else s.setReg off new

/-! ### Time (R541, R546) -/

/-- The Timestamp is set: it is anchored afresh, and `EST` and `SYNCH` clear (R541, R546). -/
def State.setStamp (s : State) (v : Word) : State :=
  let s := s.setReg rTMR_STAMP (BitVec.ofNat 64 (bits v 0 51))
  let s := (s.setFld fTMR_STAT_EST 0).setFld fTMR_STAT_SYNCH 0
  s.withPwr { s.pwr with stampAt := s.now }

/-- What a load of a TMR register shows (R541, R546). -/
def State.viewTmr (s : State) (off : Nat) (w : Word) : Word :=
  if off = rTMR_ONTIME then BitVec.ofNat 64 (s.now / 1000000)
  else if off = rTMR_ACTIVE then BitVec.ofNat 64 ((s.now - s.pwr.sleptNs) / 1000000)
  else if off = rTMR_RCAL then
    (if s.flag fTMR_RCAL_VALID then setBits w 32 32 (min ((s.now - s.pwr.rcalAt) / 1000000) (2 ^ 32 - 1)) else w)
  else if off = rTMR_STAMP then setBits w 0 48 s.stampMs
  else w

end Sys2Proof.Machine
end

