-- ==== Sys2Proof/Machine/CtlSpace.lean ====
section
/-! DEFINITION. Control space: the access fault that a load or store meets, what a load reads and what a store does (R10,
R31, R115, R120, R291, R309, R311, R480, R481, R514, R515, R524 to R526, R534, R546, R590). -/

namespace Sys2Proof.Machine

open Sys2Proof

/-! ### Signet's and Locket's blocks (R480, R481, R526) -/

def State.refuseSig (s : State) (off : Nat) (v : Word) : Bool :=
  if off = rSIG_NOTE then s.badDst v 0 || badMbx v 8
  else if off = rSIG_RSEL then 319 < bits v 0 9
  else false

/-- Signet holds a keyed session with privilege [4] (R462, R526). -/
def State.locketHeld (s : State) : Bool := s.flag fSIG_SESS_KS && s.fld fSIG_SESS_PRIV / 16 % 2 == 1

/-- R515, R526, R590: what Locket refuses, with the owner of port F's sequence. -/
def State.refuseLkt (s : State) (who off : Nat) (v : Word) : Bool :=
  let facet := who != epSignet
  match lkPortReg off with
  | some (port, _) =>
    port == 0 && facet && s.fld (fLKT_STAT_SEQ 0) != 0 && s.fld (fLKT_STAT_OWNER 0) != who
  | none =>
    if off = rLKT_WAIT then bits v 0 4 == 0
    else if off = rLKT_EW then bits v 0 2 == 0 || (facet && s.locketHeld)
    else if off = rLKT_ESUSP then bits v 0 16 < 10 || 10000 < bits v 0 16 || (facet && s.locketHeld)
    else if off = rLKT_NOTE then badMbx v 8 || s.badDst v 0 || (facet && s.locketHeld)
    else false

/-- Locket: a port store advances its sequence; the other registers keep their values (R515, R525). -/
def State.actLkt (s : State) (who off : Nat) (v new : Word) (ecc : Ecc) : State :=
  match lkPortReg off with
  | some (port, reg) => s.lkStore port who reg v ecc
  | none => if off = rLKT_WAIT then (s.setReg off new).lkMargin else s.setReg off new

/-! ### Access faults (R31, R67) -/

/-- A control store of a Prong sequencer (R291, R309). -/
def isPsqStore (off : Nat) : Bool := 0x100000 ≤ off && off < 0x320000 && 0x4000 ≤ psqReg off

/-- A register of Locket's port S, which only Signet uses (R514). -/
def isPortS (off : Nat) : Bool := 0x550080 ≤ off && off < 0x550100

/-- The block of a fused-off unit (R31). -/
def State.fusedBlock (s : State) (off : Nat) : Bool :=
  if 0x100000 ≤ off ∧ off < 0x320000 then !s.part.seqOn (psqBlock off)
  else if 0x400000 ≤ off ∧ off < 0x480000 then s.part.channels ≤ lpeBlock off
  else false

/-- The detail of the access fault that a load meets, if one does (R31, R514). -/
def State.ctlLoadFault (s : State) (who off : Nat) : Option Nat :=
  if s.fusedBlock off then some 5
  else if (regRow off).isNone then some 1
  else if isPortS off && who != epSignet then some 2
  else none

/-- The write is refused with DETAIL 0x02 by a rule of its block. -/
def State.refused (s : State) (who off : Nat) (v : Word) : Bool :=
  if isPsqStore off || isPortS off then who != epSignet
  else if off < 0x10000 then false
  else if off < 0x20000 then s.refuseFct off v
  else if off < 0x30000 then s.refuseClp off v
  else if off < 0x40000 then s.refuseHqe off v
  else if off < 0x50000 then s.refuseBpm off v
  else if off < 0x60000 then s.refuseMap off v
  else if off < 0x320000 then s.refusePsq off v
  else if off < 0x480000 then s.refuseLpe off v
  else if off < 0x510000 then s.refuseAsy off v
  else if off < 0x520000 then s.refusePar off v
  else if off < 0x530000 then s.refuseMec off v
  else if off < 0x540000 then s.refuseFlt off v
  else if off < 0x550000 then s.refuseSig off v
  else if off < 0x560000 then s.refuseLkt who off v
  else if off < 0x570000 then s.refusePwr off v
  else if off < 0x580000 then s.refuseEvr off v
  else if off < 0x590000 then s.refusePad off v
  else false

/-- The detail of the access fault that a store meets, if one does: the block of a fused-off Loupe channel, an unassigned
offset, a refused write (R31; a fused-off sequencer refuses writes under R311; log entry 55). -/
def State.ctlStoreFault (s : State) (who off : Nat) (v : Word) : Option Nat :=
  if s.fusedBlock off then some (if off < 0x320000 then 2 else 5)
  else if (regRow off).isNone then some 1
  else if s.refused who off v then some 2
  else none

/-- A refused release is counted (R534, R545). -/
def State.countRefusal (s : State) (off : Nat) : State := if off = rPAD_HOLD then s.incSat fPAD_STAT_REFUSED else s

/-! ### Island-resident registers (R115, R147, R546) -/

/-- The clasp that a register's island lies behind, for the registers that are not core-side. -/
def islandOf (off : Nat) : Option Nat :=
  if off = rHQE_LINK then some 1
  else if 0x590000 ≤ off ∧ off < 0x5A0000 then some 7
  else none

/-- The clasp carries no access (R114, R115; log entry 56). -/
def State.claspAway (s : State) (off : Nat) : Option Nat :=
  match islandOf off with
  | some c => if s.claspState c = clClosed then none else some c
  | none => none

/-! ### Loads (R10, R31) -/

/-- A register of `CLP` that belongs to a fused-off flash island reads as zero (R104). -/
def State.claspRegFused (s : State) (off : Nat) : Bool :=
  0x20100 ≤ off && off < 0x20100 + 76 * 0x20 && s.claspFused ((off - 0x20100) / 0x20)

/-- `HQE_QINFO` (R147). -/
def State.viewQinfo (s : State) : Word :=
  let id := s.fld fHQE_QSEL_QID
  if s.flag fHQE_QSEL_CQ then
    match tget s.hqe.cqs id with
    | some q => BitVec.ofNat 64 ((q.entries - 1) % 65536 + q.head * 2 ^ 16 + q.tail * 2 ^ 32)
    | none => 0#64
  else
    match tget s.hqe.sqs id with
    | some q => BitVec.ofNat 64 ((q.entries - 1) % 65536 + q.head * 2 ^ 16 + q.tail * 2 ^ 32 + q.cq * 2 ^ 48)
    | none => 0#64

/-- `HQE_QATTR` (R147). -/
def State.viewQattr (s : State) : Word :=
  let id := s.fld fHQE_QSEL_QID
  if s.flag fHQE_QSEL_CQ then
    match tget s.hqe.cqs id with
    | some q => BitVec.ofNat 64 (1 + q.iv * 2 ^ 3 + b2n q.ien * 2 ^ 14 + b2n q.phase * 2 ^ 15)
    | none => 0#64
  else
    match tget s.hqe.sqs id with
    | some q =>
      let n := countIf (fun (e : Nat × Slot) => decide (e.2.sq = id)) s.hqe.slots
      BitVec.ofNat 64 (1 + q.prio * 2 + n * 2 ^ 16)
    | none => 0#64

/-- `BPM_BINFO` (R192). -/
def State.viewBead (s : State) : Word :=
  let e := s.bead (s.fld fBPM_BSEL_BEAD)
  let st := match e.st with | .free => 0 | .granted => 1 | .retired => 2
  BitVec.ofNat 64 (st + e.owner * 2 ^ 8 + e.cls * 2 ^ 16 + e.ue * 2 ^ 20)

/-- `SIG_RINFO0` and `SIG_RINFO1` (R455, R480). -/
def State.viewRange (s : State) (high : Bool) : Word :=
  let r := s.fld fSIG_RSEL_RANGE
  match tget s.sig.ranges r with
  | some e =>
    if high then BitVec.ofNat 64 e.len
    else BitVec.ofNat 64 (e.start + e.nsx * 2 ^ 48 + b2n e.valid * 2 ^ 56 + b2n (decide (r < 256)) * 2 ^ 57)
  | none => 0#64

/-- `SIG_SESS.IDLE`: the seconds until idle expiry, 300 s for a keyed session, 30 s for an Opal session (R458, R464). -/
def State.viewSess (s : State) (w : Word) : Word :=
  let left (at_ limit : Nat) := limit - (s.now - at_) / 1000000000
  match s.sig.ks, s.sig.opal with
  | some k, _ => setBits w 16 32 (left k.lastAt 300)
  | none, some o => setBits w 16 32 (left o.lastAt 30)
  | none, none => setBits w 16 32 0

/-- What a load of the register at `off` shows of the word it holds: the views that other state gives. -/
def State.view (s : State) (off : Nat) (w : Word) : Word :=
  if s.claspRegFused off then 0#64
  else if off = rHQE_QINFO then s.viewQinfo
  else if off = rHQE_QATTR then s.viewQattr
  else if off = rBPM_BINFO then s.viewBead
  else if 0x100000 ≤ off ∧ off < 0x320000 then s.viewPsq off w
  else if 0x400000 ≤ off ∧ off < 0x480000 then s.viewLpe off w
  else if off = rASY_EAPP then s.asyApplied
  else if off = rSIG_RINFO0 then s.viewRange false
  else if off = rSIG_RINFO1 then s.viewRange true
  else if off = rSIG_SESS then s.viewSess w
  else if off = rLKT_SINFO then s.lkInfo
  else if off = rEVR_HOURS then BitVec.ofNat 64 (s.hours % 2 ^ 32 + s.activeHours % 2 ^ 32 * 2 ^ 32)
  else if 0x590000 ≤ off then s.viewTmr off w
  else w

/-- The word that a load of the register at `off` returns, before its effects: write-only bits read as zero (R10). -/
def State.ctlValue (s : State) (off : Nat) : Word :=
  match regRow off with
  | some r => readWord r (s.view off (s.reg off))
  | none => 0#64

/-- The clasp whose value or counter lanes a load of `off` reads (R109, R309). -/
def laneClasp (off : Nat) : Option Nat :=
  if 0x100000 ≤ off && off < 0x320000 && (psqReg off == 0x08 || psqReg off == 0x78) then some (psqClasp (psqBlock off) + 1)
  else none

/-- A load from control space: the state after it, the value, and whether it is poisoned (R31, R115, R120). A load of
`CLP_STAT` lets the clasp send its next break notice; one of a lane may need a retake (R109). -/
def State.ctlLoad (s : State) (off : Nat) : State × Word × Bool :=
  match s.claspAway off with
  | some _ => (s, BitVec.allOnes 64, true)
  | none =>
    let v := s.ctlValue off
    match regIndex off (rCLP_STAT 0) 0x20 76 with
    | some c => ({ s with clasps := { s.clasps with noticed := sDel s.clasps.noticed c } }, v, false)
    | none => (match laneClasp off with | some c => s.laneRead c | none => s, v, false)

/-! ### Stores (R10, R31) -/

/-- What an accepted write of `v` by `who` does at `off`; `new` is what plain fields become. -/
def State.ctlAct (s : State) (who off : Nat) (old v new : Word) (ecc : Ecc) : State :=
  if isPsqStore off then
    -- Signet writes the read-only words of the control stores (R310)
    s.setReg off v
  else if off = rARC_MODE then s.writeMode who v
  else if off < 0x10000 then s.setReg off new
  else if off < 0x20000 then s.actFct off old v new
  else if off < 0x30000 then (if s.claspRegFused off then s else s.actClp off v new)
  else if off < 0x40000 then s.actHqe off old v new
  else if off < 0x50000 then s.actBpm off v new
  else if off < 0x60000 then s.actMap who off v new
  else if off < 0x320000 then s.actPsq off v new
  else if off < 0x480000 then s.setReg off new
  else if off < 0x510000 then s.actAsy off v new
  else if off < 0x520000 then s.setReg off new
  else if off < 0x530000 then s.actMec off v new
  else if off < 0x540000 then s.actFlt off v new
  else if off < 0x550000 then s.setReg off new
  else if off < 0x560000 then s.actLkt who off v new ecc
  else if off < 0x570000 then s.actPwr off v new
  else if off < 0x580000 then s.actEvr off v new
  else if off = rTMR_STAMP then s.setStamp v
  else s.setReg off new

/-- A store to control space that meets no fault; one to an island whose clasp is not CLOSED is discarded and counted
(R115). -/
def State.ctlWrite (s : State) (who off : Nat) (v : Word) (ecc : Ecc := .clean) : State :=
  match s.claspAway off with
  | some c => s.incSat (fCLP_CNT_LOST c)
  | none =>
    match regRow off with
    | some r =>
      let old := s.reg off
      s.ctlAct who off old v (writeWord r old v) ecc
    | none => s

/-- A store to control space by a unit that takes no trap: a refused one does nothing but count. -/
def State.ctlStore (s : State) (who off : Nat) (v : Word) (ecc : Ecc := .clean) : State :=
  match s.ctlStoreFault who off v with
  | some _ => s.countRefusal off
  | none => s.ctlWrite who off v ecc

end Sys2Proof.Machine
end

