-- ==== Sys2Proof/Machine/Operands.lean ====
section
/-! DEFINITION. What every Facet instruction shares: the fetch, completion, the bite of poison, access checks, loads and
stores, and the words of encoded instructions. There are no flags (R45 to R63, R69 to R75). -/

namespace Sys2Proof.Machine

open Sys2Proof

/-! ### Fetch (R50, R70, R72) -/

/-- `bpa` matches at fetch (R70). -/
def Core.bpHit (c : Core) : Bool :=
  bit c.cr.bpa 0 && decide (bits c.cr.bpa 2 38 * 4 = c.pc) && !c.inTrap && !c.bpSup

/-- The double of the instruction store that core `n` fetches from is marked poisoned (R75; log entry 47). -/
def State.fetchPoison (s : State) (n : Nat) : Bool :=
  let pc := (s.core n).pc
  sHas s.mem.poison (cellKey n (pc - pc % 8))

/-- The fetch of core `n`'s next instruction, `f` being what the memory code yields (R70, R72): the state after it and
whether the instruction executes. A core that is not running fetches nothing; one that an injector stalls stops. -/
def State.gate (s : State) (n : Nat) (f : Ecc) : State × Bool :=
  let c := s.core n
  if c.status ≠ .running then (s, false)
  else if c.stallBy ≠ none then (s.setCore n { c with status := .stopped }, false)
  else if c.bpHit then (s.trap n 0x09 2 c.pc, false)
  else if c.wild.isSome ∨ 0x10000 ≤ c.pc then (s.trap n 0x05 8 (c.wild.getD c.pc), false)
  else
    let r := s.readOutcome n c.pc f .fetch n
    if r.2 || r.1.fetchPoison n then (r.1.trap n 0x02 0 c.pc, false) else (r.1, true)

/-- Core `n` executes an instruction whose effect is `k`, if the fetch lets it. -/
def State.facet (s : State) (n : Nat) (f : Ecc) (k : State → State) : State :=
  let r := s.gate n f
  if r.2 then k r.1 else r.1

/-! ### Completion (R47, R64, R70) -/

/-- The core after an instruction has completed and control goes to `pc`: `icount` advances, `BPSUP` clears. -/
def Core.done (c : Core) (pc : Nat) : Core :=
  { c with pc := pc, wild := none, cr := { c.cr with icount := c.cr.icount + 1, hstat := setBits c.cr.hstat 1 1 0 } }

/-- The instruction of core `n` completes and control goes to `pc`. -/
def State.goto (s : State) (n pc : Nat) : State := s.setCore n ((s.core n).done pc)

/-- The instruction of core `n` completes with a jump to the address in a register (R46, R50): the program counter takes its bits
[39:2]; a target outside the instruction store is kept whole for the fault at its fetch (log entry 20). -/
def State.jumpTo (s : State) (n : Nat) (a : Word) : State :=
  let t := a.toNat
  s.setCore n { (s.core n).done (t % 2 ^ 40 / 4 * 4) with wild := if t < 0x10000 then none else some t }

/-- The instruction of core `n` completes, and the next one follows (R47). -/
def State.advance (s : State) (n : Nat) : State := s.goto n ((s.core n).pc + 4)

/-- Write general register `r` of core `n` (R45). -/
def State.setG (s : State) (n r : Nat) (v : RVal) : State := s.setCore n ((s.core n).set r v)

/-- The instruction completes with a result in `gd`. -/
def State.result (s : State) (n gd : Nat) (v : Word) (poison : Bool) : State := (s.setG n gd ⟨v, poison⟩).advance n

/-- A general register of core `n`: value and poison (R45). -/
def State.gv (s : State) (n r : Nat) : Word := ((s.core n).get r).val
def State.gp (s : State) (n r : Nat) : Bool := ((s.core n).get r).poison

/-! ### Register ALU and immediate forms (R55, R57, R73) -/

/-- A result computed from two registers; poisoned if either is. -/
def State.alu2 (s : State) (n gd ga gb : Nat) (op : Word → Word → Word) : State :=
  s.result n gd (op (s.gv n ga) (s.gv n gb)) (s.gp n ga || s.gp n gb)

/-- A result computed from one register; poisoned if it is. -/
def State.alu1 (s : State) (n gd ga : Nat) (op : Word → Word) : State :=
  s.result n gd (op (s.gv n ga)) (s.gp n ga)

def sext16 (imm : BitVec 16) : Word := imm.signExtend 64
def zext16 (imm : BitVec 16) : Word := imm.zeroExtend 64

/-- 1 or 0. -/
def boolWord (b : Bool) : Word := if b then 1#64 else 0#64

/-- A branch or jump target: the address of the instruction plus a signed count of words, modulo 2^40 (R46, R53). -/
def wordTarget (pc : Nat) (off : Int) : Nat := ((Int.ofNat pc + 4 * off) % 2 ^ 40).toNat

/-! ### The bite of poison (R67, R75) -/

/-- Trap 0x04 if register `r` is poisoned, else go on. -/
def State.bite (s : State) (n detail r : Nat) (k : State → State) : State :=
  if s.gp n r then s.trap n 0x04 detail r else k s

/-! ### Access checks (R48, R49, R59, R62, R67) -/

/-- The kinds of data access. -/
inductive Access where
  | load | store | sdp | zl | atomic
  deriving DecidableEq, Repr

/-- Misalignment, when the region allows the access (R59). -/
def alignFault (a size : Nat) : Option (Nat × Nat) := if a % size = 0 then none else some (3, 0)

/-- The trap and detail of an access of `size` bytes at `a` by core `n`, if it meets one (R48, R49, R59, R62, R67). Access
faults of control-space registers are found with the access itself; an atomic, `zl` or `sdp` there takes detail 0x04 (log entry
138). While the pool is disabled every bead may be written (R178; log entry 166). -/
def State.accessFault (s : State) (n a size : Nat) (k : Access) : Option (Nat × Nat) :=
  match regionAt a with
  | .imem => if k = .load then alignFault a size else some (5, 2)
  | .lds => alignFault a size
  | .sram c => if c = n / 9 then alignFault a size else some (5, 3)
  | .beadData b | .beadMeta b =>
    if k = .atomic then some (5, 2)
    else if s.granted b (s.mailEp n) || (!s.flag fBPM_CTL_EN && k != .load) then alignFault a size
    else some (5, 7)
  | .control _ =>
    if (k = .load ∨ k = .store) ∧ size = 8 ∧ a % 8 = 0 then none else some (5, 4)
  | .locket off => if k = .load && !lkHidden (lkSectorOf (off / 16)) then alignFault a size else some (5, 2)
  | .dram =>
    if s.dramEnd ≤ a then some (5, 6)
    else if s.mirrorHole a then some (5, 2)
    else alignFault a size
  | .none => some (5, 1)

/-- Check an access and go on, or trap with the address in `hinfo`. -/
def State.checked (s : State) (n a size : Nat) (k : Access) (go : State → State) : State :=
  match s.accessFault n a size k with
  | some t => s.trap n t.1 t.2 a
  | none => go s

/-! ### Loads and stores (R58, R60, R73, R74) -/

/-- The low `size` bytes of a value as a register value (R58). -/
def extend (size : Nat) (signed : Bool) (v : Nat) : Word :=
  if signed then (BitVec.ofNat (8 * size) v).signExtend 64 else (BitVec.ofNat (8 * size) v).zeroExtend 64

/-- The block of control space that an offset lies in (R31, R86). -/
def ctlBlock (off : Nat) : Nat :=
  if 0x400000 ≤ off ∧ off < 0x480000 then 0x1000 + (off - 0x400000) / 0x4000 else off / 0x10000

/-- A load of control space within a transaction that holds a store for its block aborts (R86, R87). -/
def State.heldBlock (s : State) (n off : Nat) : Bool :=
  (s.core n).tx.isOpen && (s.core n).tx.stores.any fun e => ctlBlock e.1 == ctlBlock off

/-- A data load of `size` bytes whose access is allowed: the state after it, the bytes, and whether the value is poisoned
(R73, R414, R513). -/
def State.loadFrom (s : State) (n a size : Nat) (ecc : Ecc) : State × Nat × Bool :=
  match regionAt a with
  | .locket off =>
    let r := s.lkLoad (off - off % 8) ecc
    (r.1, (r.2.1 >>> (8 * (off % 8))) % 2 ^ (8 * size), r.2.2)
  | _ => s.loadBytes n a size ecc

/-- A load completes with its value in `gd` (R58); loads from control space go to the block. -/
def State.loadInto (s : State) (n gd a size : Nat) (signed : Bool) (ecc : Ecc) : State :=
  s.checked n a size .load fun s =>
    match regionAt a with
    | .control off =>
      match s.ctlLoadFault (s.mailEp n) off with
      | some d => s.trap n 0x05 d a
      | none =>
        if s.heldBlock n off then s.trap n 0x07 6 a
        else
          let r := s.ctlLoad off
          r.1.result n gd r.2.1 r.2.2
    | _ =>
      let r := s.loadFrom n a size ecc
      r.1.result n gd (extend size signed r.2.1) r.2.2

/-- The address of a Format I access (R58). -/
def State.addrImm (s : State) (n ga : Nat) (imm : BitVec 16) : Nat := (s.gv n ga + sext16 imm).toNat

/-- The address of an indexed access (R58). -/
def State.addrIdx (s : State) (n ga gb : Nat) : Nat := (s.gv n ga + s.gv n gb).toNat

/-- A Format I load (R58, R75). -/
def State.loadImm (s : State) (n gd ga : Nat) (imm : BitVec 16) (size : Nat) (signed : Bool) (ecc : Ecc) : State :=
  s.bite n 1 ga fun s => s.loadInto n gd (s.addrImm n ga imm) size signed ecc

/-- A store to control space: poisoned data bites; within a transaction it is checked and held, up to four (R75, R86,
R87). -/
def State.storeCtl (s : State) (n a off gs : Nat) (ecc : Ecc) : State :=
  let v := s.gv n gs
  let c := s.core n
  match s.ctlStoreFault c.role off v with
  | some d => (s.countRefusal off).trap n 0x05 d a
  | none =>
    if c.tx.isOpen then
      if 4 ≤ c.tx.stores.length then s.trap n 0x07 5 4
      else (s.setCore n { c with tx := { c.tx with stores := c.tx.stores ++ [(off, v)] } }).advance n
    else (s.advance n).ctlWrite c.role off v ecc

/-- Poisoned data of a store to control space bites before any access fault (R72, R75). -/
def State.biteData (s : State) (n a gs : Nat) (k : State → State) : State :=
  match regionAt a with
  | .control _ => s.bite n 3 gs k
  | _ => k s

/-- A store of the low `size` bytes of `gs` at `a` (R58, R74). -/
def State.storeFrom (s : State) (n gs a size : Nat) (k : Access) (ecc : Ecc) : State :=
  s.biteData n a gs fun s =>
    s.checked n a size k fun s =>
      match regionAt a with
      | .control off => s.storeCtl n a off gs ecc
      | _ =>
        (s.storeBytes n a ((s.gv n gs).toNat % 2 ^ (8 * size)) size (s.gp n gs || decide (k = .sdp)) ecc).advance n

/-- A Format I store (R58, R75). -/
def State.storeImm (s : State) (n gs ga : Nat) (imm : BitVec 16) (size : Nat) (k : Access) (ecc : Ecc) : State :=
  s.bite n 1 ga fun s => s.storeFrom n gs (s.addrImm n ga imm) size k ecc

/-- What the read of a Strong block for the merge of its half at `a` would find (R408, R413, R414). -/
def State.halfOf (s : State) (n a : Nat) (ecc : Ecc) : HalfBlock :=
  if (List.range 16).any fun i => s.tagMismatch (a - a % 128 + 8 * i) then ⟨n, a, 2, 31, true⟩
  else match ecc with
    | .clean => ⟨n, a, 0, 31, false⟩
    | .corrected dev => ⟨n, a, 1, dev.toNat, false⟩
    | .uncorrectable dev => ⟨n, a, 2, dev.toNat, false⟩
    | .otherCopy dev => ⟨n, a, 2, dev.toNat, false⟩

/-- `zl` reaches one half of a Strong block: right after the same core's `zl` of the other half the two are one block write without a
read; else the block is read for the merge unless that follows (R413). -/
def State.zeroHalf (s : State) (n a : Nat) (ecc : Ecc) : State :=
  if s.mec.halves.any fun h => h.core == n && h.base / 128 == a / 128 && h.base / 64 != a / 64 then
    { s with mec := { s.mec with halves := s.mec.halves.filter fun h => h.base / 128 != a / 128 } }
  else
    let s := s.settleHalf a
    { s with mec := { s.mec with halves := s.halfOf n a ecc :: s.mec.halves } }

/-- Zeros with poison clear in every double of an aligned 64-byte block (R60, R413, R417). -/
def State.zeroBlock (s : State) (n a : Nat) (ecc : Ecc) : State :=
  let s := if regionAt a = .dram ∧ s.isLight a = false then s.zeroHalf n a ecc else s
  (List.range 8).foldl (fun (t : State) i =>
    (t.withMem (t.mem.writeDouble (cellKey n (a + 8 * i)) 0 false)).encode (a + 8 * i)) s

/-! ### Atomics (R62, R72, R75) -/

/-- The read and write of an atomic on the double at `a`: `new` gives the value to write, or none for no write. -/
def State.atomicOn (s : State) (n gd a : Nat) (new : Nat → Option Nat) (ecc : Ecc) : State :=
  let k := cellKey n a
  let r := s.loadBytes n a 8 ecc
  let old := r.2.1
  if r.2.2 then r.1.result n gd (BitVec.ofNat 64 old) true
  else
    let s := match new old with
      | some v => (r.1.withMem (r.1.mem.writeDouble k v false)).encode a
      | none => r.1
    s.result n gd (BitVec.ofNat 64 old) false

/-- An atomic: a poisoned address or data operand bites, then the access is checked (R62, R72, R75; log entry 32). -/
def State.atomic (s : State) (n gd ga gb : Nat) (op : Word → Word → Word) (ecc : Ecc) : State :=
  s.bite n 1 ga fun s => s.bite n 7 gb fun s =>
    s.checked n (s.gv n ga).toNat 8 .atomic fun s =>
      let b := s.gv n gb
      s.atomicOn n gd (s.gv n ga).toNat (fun old => some (op (BitVec.ofNat 64 old) b).toNat) ecc

/-! ### Illegal instructions (R54) -/

/-- The illegal trap of an instruction whose word is `w` (R67). -/
def State.illegal (s : State) (n detail w : Nat) : State := s.trap n 0x01 detail w

/-! ### Transfers of control (R50, R61) -/

/-- A branch: both registers are operands that bite, `ga` reported before `gb` (log entry 82); taken to its target or on to the next
instruction (R61, R75). -/
def State.branch (s : State) (n ga gb : Nat) (off : BitVec 16) (cond : Word → Word → Bool) : State :=
  s.bite n 2 ga fun s => s.bite n 2 gb fun s =>
    if cond (s.gv n ga) (s.gv n gb) then s.goto n (wordTarget (s.core n).pc off.toInt) else s.advance n

end Sys2Proof.Machine
end

