-- ==== Sys2Proof/Machine/FacetOps.lean ====
section
/-! DEFINITION. Messaging, transactions and assists of a Facet core: sending, receiving, waiting and what lets a waiting core
go on; commit; tracked effects; checksums, keyed hash and field arithmetic (R78 to R98, R416). -/

namespace Sys2Proof.Machine

open Sys2Proof

/-! ### Payload buffers (R80) -/

/-- The trap of a payload or buffer address that is not a 64-byte block of the local data store or the own cluster's SRAM
(R48, R59, R80; log entry 29). -/
def bufferFault (n a : Nat) : Option (Nat × Nat) :=
  match regionAt a with
  | .lds => alignFault a 64
  | .sram c => if c = n / 9 then alignFault a 64 else some (5, 3)
  | .none => some (5, 1)
  | _ => some (5, 2)

def State.buffer (s : State) (n a : Nat) (k : State → State) : State :=
  match bufferFault n a with
  | some t => s.trap n t.1 t.2 a
  | none => k s

/-- The 64 bytes of a payload (R47). -/
def State.payloadAt (s : State) (n a : Nat) : BitVec 512 := BitVec.ofNat 512 (s.mem.read (cellKey n a) 64)

/-- Write a payload into a buffer, with valid check bits (R80). -/
def State.putPayload (s : State) (n a : Nat) (p : BitVec 512) : State :=
  s.withMem (s.mem.writeDoubles (cellKey n a) ((List.range 8).map fun i => BitVec.ofNat 64 (p.toNat >>> (64 * i))))

/-! ### Sending (R80, R81, R83, R84, R86, R87) -/

/-- The fields of the destination word (R81). -/
def destOf (w : Word) : Nat := bits w 0 7
def subOf (w : Word) : Nat := bits w 16 12

/-- The send-side cause of R84 that a destination word meets, in the order of the table (log entry 28). -/
def State.sendCause (s : State) (w : Word) (mbx : Nat) : Option Nat :=
  if s.epAbsent (destOf w) then some 1
  else if bits w 7 9 != 0 || bits w 28 36 != 0 then some 3
  else if mbx = 15 then some 4
  else none

/-- What a send does once nothing is wrong with it: held within a transaction, up to eight (R86, R87); placed in the Chain
when the mailbox has room; else `waits`. `sent` ends the instruction. -/
def State.sendOut (s : State) (n : Nat) (w : Word) (mbx : Nat) (p : BitVec 512) (sent waits : State → State) : State :=
  let c := s.core n
  if c.tx.isOpen then
    if 8 ≤ c.tx.sends.length then s.trap n 0x07 2 8
    else sent (s.setCore n { c with tx := { c.tx with
      sends := c.tx.sends ++ [mkMsg c.role (destOf w) mbx (subOf w) 0 p] } })
  else if s.wouldWait (destOf w) mbx then waits s
  else sent (s.chainSend c.role (destOf w) mbx (subOf w) p)

/-- A send with all its checks (R72, R75, R80, R84, R416). -/
def State.sendFrom (s : State) (n gr ge mbx : Nat) (ecc : Ecc) (sent waits : State → State) : State :=
  s.bite n 5 gr fun s => s.bite n 5 ge fun s =>
    let a := (s.gv n gr).toNat
    s.buffer n a fun s =>
      let r := s.readOutcome n a ecc .chainSend n
      if r.2 || (r.1.mem.firstPoison (cellKey n a) 8).isSome then r.1.trap n 0x04 5 gr
      else
        let s := r.1
        let w := s.gv n ge
        match s.sendCause w mbx with
        | some d => s.trap n 0x06 d w.toNat
        | none => s.sendOut n w mbx (s.payloadAt n a) sent waits

def State.setStatus (s : State) (n : Nat) (st : CoreStatus) : State := s.setCore n { s.core n with status := st }

/-- `csend` ends, or waits under back-pressure (R83). -/
def State.csendDone (s : State) (n : Nat) : State := (s.setStatus n .running).advance n
def State.csend (s : State) (n gr ge mbx : Nat) (ecc : Ecc) : State :=
  s.sendFrom n gr ge mbx ecc (fun s => s.csendDone n) (fun s => s.setStatus n (.waiting (.send gr ge mbx)))

/-! ### Receiving (R80, R82, R84, R86, R87) -/

/-- The word that a receive writes to `ge`: the header's high bits, bit [15] set, and how many messages stay (R82). -/
def receiveWord (m : Msg) (left : Nat) : Word :=
  BitVec.ofNat 64 (m.header / 2 ^ 16 * 2 ^ 16 + 2 ^ 15 + min left 0x7FFF)

/-- A bad message at the head goes, counted and recorded, with a Chain fault: cause 5 `CHK`, 6 `SEQ` (R84, R549). -/
def State.badHead (s : State) (n mbx : Nat) (m : Msg) (rest : List Msg) : State :=
  let role := (s.core n).role
  let s := s.setBox role mbx rest
  let s := s.incSat (if m.chkOk then fFCT_CHERR_SEQ else fFCT_CHERR_CHK)
  let s := s.setFld fFCT_CHERR_SRC m.src
  let s := s.logAll [chainFaultDraft role (if m.chkOk then 2 else 1) m.src m.mbx m.sub m.header]
  s.trap n 0x06 (if m.chkOk then 6 else 5) m.header

/-- Take the message `m` from the head of a mailbox: retired at once, or marked taken within a transaction, up to eight
(R86, R87); its payload and header word are written and the instruction ends. -/
def State.takeMessage (s : State) (n gr ge mbx : Nat) (m : Msg) (rest : List Msg) : State :=
  let c := s.core n
  let a := (s.gv n gr).toNat
  if c.tx.isOpen && 8 ≤ c.tx.taken.length then s.trap n 0x07 3 8
  else
    let s := if c.tx.isOpen then s.setCore n { c with tx := { c.tx with taken := c.tx.taken ++ [m] } } else s
    let s := (s.setBox c.role mbx rest).putPayload n a m.payload
    (s.setStatus n .running).result n ge (receiveWord m rest.length) false

/-- A receive with all its checks; `empty` is what it does on an empty mailbox (R72, R75, R80, R84). -/
def State.receive (s : State) (n gr ge mbx : Nat) (empty : State → State) : State :=
  s.bite n 5 gr fun s =>
    s.buffer n (s.gv n gr).toNat fun s =>
      match s.box (s.core n).role mbx with
      | [] => empty s
      | m :: rest => if m.chkOk && m.seqOk then s.takeMessage n gr ge mbx m rest else s.badHead n mbx m rest

def State.crecv (s : State) (n gr ge mbx : Nat) : State :=
  s.receive n gr ge mbx (fun s => s.setStatus n (.waiting (.recv gr ge mbx)))

/-! ### Polling (R80, R82) -/

/-- The poll word: [15:0] the mailboxes that hold a message, [31:16] the full ones (R82). -/
def State.pollWord (s : State) (role : Nat) : Word :=
  BitVec.ofNat 64 (sumOf (fun m => b2n (!(s.box role m).isEmpty) * 2 ^ m + b2n (s.boxFull role m) * 2 ^ (16 + m))
    (List.range 16))

/-- A mailbox in the mask holds a message. -/
def State.pollReady (s : State) (role : Nat) (mask : Word) : Bool :=
  (List.range 16).any fun m => bit mask m && !(s.box role m).isEmpty

def State.cwait (s : State) (n gr ge : Nat) : State :=
  s.bite n 5 ge fun s =>
    let role := (s.core n).role
    if s.pollReady role (s.gv n ge) then (s.setStatus n .running).result n gr (s.pollWord role) false
    else s.setStatus n (.waiting (.poll gr ge))

/-! ### Waiting cores go on (R83) -/

/-- A core that waits for a message goes on when its mailbox holds one. -/
def State.settleRecv (s : State) (n : Nat) : State :=
  match (s.core n).status with
  | .waiting (.recv gr ge mbx) => s.crecv n gr ge mbx
  | .waiting (.poll gr ge) => s.cwait n gr ge
  | _ => s

/-- A core whose send is held back goes on when the mailbox has room. -/
def State.settleSend (s : State) (n : Nat) : State :=
  match (s.core n).status with
  | .waiting (.send gr ge mbx) => s.csend n gr ge mbx .clean
  | _ => s

/-- A core waits. -/
def CoreStatus.isWait : CoreStatus → Bool
  | .waiting _ => true
  | _ => false

/-- Cores that wait go on where they can: receives before sends, lower numbers first (log entry 57). -/
def State.settle (s : State) : State :=
  if s.cores.any fun (e : Nat × Core) => e.2.status.isWait then
    (List.range 54).foldl State.settleSend ((List.range 54).foldl State.settleRecv s)
  else s

/-! ### Transactions (R85 to R88) -/

/-- The transaction state word (R87). -/
def Core.txWord (c : Core) : Word :=
  BitVec.ofNat 64 (b2n c.tx.isOpen + b2n c.tx.ended * 2 + c.tx.sends.length * 2 ^ 2 + c.tx.taken.length * 2 ^ 6 +
    c.tx.effects.length * 2 ^ 10 + c.tx.stores.length * 2 ^ 15 + (c.commits % 2 ^ 32) * 2 ^ 32)

/-- Apply a deferred assist effect at commit (R88 step 3). -/
def State.applyEffect (n : Nat) (s : State) : Effect → State
  | .freeBead b => s.releaseBead b
  | .giveBead b ep => s.giveBead b ep
  | .unpinPage mpn => s.dropPin n mpn
  | .allocBead _ => s
  | .pinPage _ => s

/-- `tcommit` of an open transaction (R88): checkpoint, taken messages, deferred assists, held stores, held sends; counted
(R101). A held store that its block now refuses is not performed (log entry 33). -/
def State.commit (s : State) (n : Nat) : State :=
  let c := s.core n
  let t := c.tx
  let s := s.writeCheckpoint n (c.pc + 4)
  let s := s.setCore n { c with tx := Tx.none, commits := c.commits + 1 }
  let s := s.incWrap (fFCT_TXS_COMMITS n)
  let s := s.advance n
  let s := t.effects.foldl (State.applyEffect n) s
  let s := t.stores.foldl (fun (u : State) e => u.ctlStore c.role e.1 e.2) s
  t.sends.foldl (fun (u : State) m => u.chainSend m.src m.dst m.mbx m.sub m.payload) s

/-! ### Tracked assist effects (R86, R87) -/

/-- Whether the transaction of core `n` is open. -/
def State.inTx (s : State) (n : Nat) : Bool := (s.core n).tx.isOpen

/-- Track an effect within an open transaction; outside one nothing is tracked. -/
def State.track (s : State) (n : Nat) (e : Effect) : State :=
  let c := s.core n
  if c.tx.isOpen then s.setCore n { c with tx := { c.tx with effects := c.tx.effects ++ [e] } } else s

/-- A seventeenth tracked effect aborts the transaction (R87). -/
def State.fullEffects (s : State) (n : Nat) : Bool := s.inTx n && 16 ≤ (s.core n).tx.effects.length

/-- An effect that ends a grant is already deferred for the bead in this transaction (log entry 34). -/
def State.beadDeferred (s : State) (n b : Nat) : Bool :=
  s.inTx n && (s.core n).tx.effects.any fun e => match e with
    | .freeBead x => x == b
    | .giveBead x _ => x == b
    | _ => false

/-- The bead is granted to the core, and not already given up in its transaction (R94). -/
def State.holdsBead (s : State) (n b : Nat) : Bool := s.granted b (s.mailEp n) && !s.beadDeferred n b

/-- Unpins of a page deferred in the open transaction. -/
def State.unpinsDeferred (s : State) (n mpn : Nat) : Nat :=
  countIf (fun e => match e with | .unpinPage p => p == mpn | _ => false) (s.core n).tx.effects

/-! ### The assists (R92 to R98) -/

/-- The effect that an `mlook` of operation `op` tracks when it is not refused. -/
def lookEffect (op mpn : Nat) : Option Effect :=
  if op = 1 then some (.pinPage mpn) else if op = 2 then some (.unpinPage mpn) else none

/-- `mlook` with valid operands (R93, R208, R225): a directory read whose error is uncorrectable is treated as a failed
set, as is one whose entry stands poisoned; it stays failed until it is reinitialised. -/
def State.mlookOp (s : State) (n gd mpn op : Nat) (dir : Ecc) : State :=
  let ep := s.mailEp n
  let set := s.mapSet mpn
  let d := s.readOutcome n (s.dirAddr (set * 8)) dir .map n
  let bad := d.2 || s.dirPoisoned set
  if bad || sHas s.map.failed set then
    (if bad then d.1.dirError mpn ep else d.1).result n gd (if op = 2 then mlookRefused else mlookWord false true false false 0 0) false
  else
    let s := d.1
    let tx := s.inTx n
    if op = 2 && tx && tgetD (s.core n).pins mpn 0 ≤ s.unpinsDeferred n mpn then s.result n gd mlookRefused false
    else
      let r := s.mlook n ep mpn op tx
      match lookEffect op mpn with
      | some e =>
        if bit r.2 63 && tx then
          if s.fullEffects n then s.trap n 0x07 4 16 else (r.1.track n e).result n gd r.2 false
        else r.1.result n gd r.2 false
      | none => r.1.result n gd r.2 false

/-- The bytes and the poison of a 64-byte block that a load may read (R95, R187). -/
def State.blockAt (s : State) (n a : Nat) (ecc : Ecc) : State × List Byte × Bool :=
  match regionAt a with
  | .locket off =>
    let ws := (List.range 8).map fun i => (s.lkLoad (off + 8 * i) (if i = 0 then ecc else .clean)).2
    ((s.lkLoad off ecc).1, ws.flatMap fun w => bytesOf w.1 8, ws.any (·.2))
  | _ =>
    let r := s.readOutcome n a ecc .load n
    let k := cellKey n a
    (r.1, r.1.mem.bytes k 64, r.2 || (r.1.mem.firstPoison k 8).isSome)

/-- The CRC update of a running value over bytes, as a result word (R95). -/
def crcWord (a : Word) (l : List Byte) : Word := (crcBytes (a.truncate 32) l).zeroExtend 64

/-- The key in a slot: the layout seed, or what firmware wrote (R96; log entry 7). -/
def State.hashKey (s : State) (k : Nat) : BitVec 128 := if k = 0 then Config.layoutSeed else tgetD s.hkeys k 0#128

/-- Each byte of `a` times a byte of `b` in GF(2^8) (R97): byte `pick i` of `b` for byte `i` of `a`. -/
def gfBytes (a b : Word) (pick : Nat → Nat) : Word :=
  BitVec.ofNat 64 (sumOf (fun i =>
    (gfMul (BitVec.ofNat 8 (bits a (8 * i) 8)) (BitVec.ofNat 8 (bits b (8 * pick i) 8))).toNat * 2 ^ (8 * i)) (List.range 8))

end Sys2Proof.Machine
end

