-- ==== Sys2Proof/Machine/PiOps.lean ====
section
/-! DEFINITION. Protection information and encryption in the engine's data mover (R130, R143, R452 to R456). -/

namespace Sys2Proof.Machine

open Sys2Proof

/-! ### Guards (R143; log entry 60) -/

/-- CRC-16 T10-DIF: polynomial 0x8BB7, from zero. -/
def crc16Bit (c : BitVec 16) : BitVec 16 := if c.getLsbD 15 then (c <<< 1) ^^^ 0x8BB7#16 else c <<< 1
def crc16Byte (c : BitVec 16) (b : Byte) : BitVec 16 :=
  let c := c ^^^ (b.zeroExtend 16 <<< 8)
  (List.range 8).foldl (fun c _ => crc16Bit c) c
def crc16 (l : List Byte) : BitVec 16 := l.foldl crc16Byte 0#16

/-- CRC-64 NVMe: reflected polynomial 0x9A6C9329AC4BC9B5, from all ones, inverted. -/
def crc64Bit (c : BitVec 64) : BitVec 64 := if c.getLsbD 0 then (c >>> 1) ^^^ 0x9A6C9329AC4BC9B5#64 else c >>> 1
def crc64Byte (c : BitVec 64) (b : Byte) : BitVec 64 :=
  let c := c ^^^ b.zeroExtend 64
  (List.range 8).foldl (fun c _ => crc64Bit c) c
def crc64 (l : List Byte) : BitVec 64 := ~~~(l.foldl crc64Byte (BitVec.allOnes 64))

/-- The bytes of doubles, little-endian. -/
def wordBytes (l : List Word) : List Byte := l.flatMap fun w => bytesOf w.toNat 8
/-- The doubles of bytes, little-endian. -/
def bytesWords : List Byte → List Word
  | a :: b :: c :: d :: e :: f :: g :: h :: t => (h ++ g ++ f ++ e ++ d ++ c ++ b ++ a) :: bytesWords t
  | _ => []

/-- A big-endian number. -/
def beNat (l : List Byte) : Nat := l.foldl (fun n b => n * 256 + b.toNat) 0
def beBytes (n v : Nat) : List Byte := (bytesOf v n).reverse

/-- Bytes of metadata and of protection information in a format (R130). -/
def metaBytes (fmt : Nat) : Nat := if fmt = 1 then 8 else if 2 ≤ fmt ∧ fmt ≤ 4 then 64 else 0
def piBytes (fmt : Nat) : Nat := if fmt = 1 ∨ fmt = 2 then 8 else if fmt = 3 ∨ fmt = 4 then 16 else 0
/-- Bytes of the guard and of the reference tag, which fills the rest: `STS` is 0 (R130). -/
def guardBytes (fmt : Nat) : Nat := if fmt ≤ 2 then 2 else if fmt = 3 then 4 else 8
def refBytes (fmt : Nat) : Nat := piBytes fmt - guardBytes fmt - 2

def guardOf (fmt : Nat) (l : List Byte) : Nat :=
  if fmt ≤ 2 then (crc16 l).toNat else if fmt = 3 then (crc32c l).toNat else (crc64 l).toNat

/-- What of a command steers protection (R143): `PRACT`, `PRCHK`, tag and mask, initial reference tag. -/
def cmdPract (c : NvmeCmd) : Bool := c.dw12.getLsbD 29
def cmdChk (c : NvmeCmd) (n : Nat) : Bool := c.dw12.getLsbD (26 + n)
def cmdTag (c : NvmeCmd) : Nat := c.dw15.toNat % 65536
def cmdTagMask (c : NvmeCmd) : Nat := c.dw15.toNat / 65536
def cmdRef (fmt : Nat) (c : NvmeCmd) : Nat :=
  (c.dw14.toNat + c.dw3.toNat * 2 ^ 32 + c.dw2.toNat * 2 ^ 64) % 2 ^ (8 * refBytes fmt)

/-- The metadata is no more than protection information, which `PRACT` generates and strips. -/
def piOwn (fmt : Nat) (c : NvmeCmd) : Bool := cmdPract c && metaBytes fmt == piBytes fmt

/-- Where the protection information lies in the metadata. -/
def piAt (fmt : Nat) (first : Bool) : Nat := if first then 0 else metaBytes fmt - piBytes fmt

/-- The reference tag expected for the block at `lba`, `i` blocks into the command (R143). -/
def refTag (fmt pi : Nat) (c : NvmeCmd) (lba i : Nat) : Nat :=
  (if pi = 1 then lba else if pi = 2 then cmdRef fmt c + i else cmdRef fmt c) % 2 ^ (8 * refBytes fmt)

/-- Generated protection information (R143). -/
def piMake (fmt pi : Nat) (c : NvmeCmd) (data : List Byte) (lba i : Nat) : List Byte :=
  beBytes (guardBytes fmt) (guardOf fmt data) ++ beBytes 2 (cmdTag c) ++ beBytes (refBytes fmt) (refTag fmt pi c lba i)

/-- The check of one block: the failure status, if one fails (R143). An application tag of all ones disables the checks; in
type 3 the reference tag must be all ones too. -/
def piCheck (fmt pi : Nat) (first : Bool) (c : NvmeCmd) (data hmeta : List Byte) (lba i : Nat) : Option Nat :=
  let p := (hmeta.drop (piAt fmt first)).take (piBytes fmt)
  let g := beNat (p.take (guardBytes fmt))
  let app := beNat ((p.drop (guardBytes fmt)).take 2)
  let ref := beNat (p.drop (guardBytes fmt + 2))
  if app = 0xFFFF ∧ (pi ≠ 3 ∨ ref = 2 ^ (8 * refBytes fmt) - 1) then none
  else if cmdChk c 2 && g != guardOf fmt (data ++ hmeta.take (piAt fmt first)) then some (stat 2 0x82)
  else if cmdChk c 1 && app &&& cmdTagMask c != cmdTag c &&& cmdTagMask c then some (stat 2 0x83)
  else if cmdChk c 0 && pi != 3 && ref != refTag fmt pi c lba i then some (stat 2 0x84)
  else none

/-! ### Encryption (R452 to R456) -/

/-- The key slot of the data unit at `lba` of a namespace index: its locking range, else the global range (R455). -/
def State.keySlotOf (s : State) (nsx lba : Nat) : Nat :=
  match s.sig.ranges.find? fun e => decide (256 ≤ e.1) && e.2.valid && decide (e.2.nsx = nsx) &&
      decide (e.2.start ≤ lba) && decide (lba < e.2.start + e.2.len) with
  | some e => e.1
  | none => nsx

/-- Encrypt or decrypt one data unit (R452): none while its key slot is empty (R456). -/
def State.cipher (s : State) (enc : Bool) (nsx lba : Nat) (l : List Word) : Option (List Word) :=
  let r := s.keySlotOf nsx lba
  if sHas s.sig.loaded r then
    let g := tgetD s.sig.gens r 0
    some (if enc then Config.xtsEncrypt r g lba l else Config.xtsDecrypt r g lba l)
  else none

/-- The 64 doubles of sector `k`. -/
def sectorOf (k : Nat) (l : List Word) : List Word := (l.drop (64 * k)).take 64

/-- A unit whose first block is `lba`: whole in formats 0 to 4, by masked sectors in format 5 (R452). -/
def State.cipherUnit (s : State) (enc : Bool) (nsx fmt lba mask : Nat) (l : List Word) : Option (List Word) :=
  if fmt = 5 then
    (List.range 8).foldl (fun (a : Option (List Word)) k =>
      match a with
      | none => none
      | some out =>
        if mask / 2 ^ k % 2 = 0 then some (out ++ sectorOf k l)
        else (s.cipher enc nsx (lba + k) (sectorOf k l)).map (out ++ ·)) (some [])
  else s.cipher enc nsx lba l

/-- The first block of a unit (R195). -/
def unitLba (fmt u : Nat) : Nat := if fmt = 5 then 8 * u else u

end Sys2Proof.Machine
end

