-- ==== Sys2Proof/Machine/Filigree.lean ====
section
/-! DEFINITION. Bands, the keyed layout and the writing of whole stripes (R229, R232, R234, R361 to R372, R376, R391). -/

namespace Sys2Proof.Machine

open Sys2Proof

/-! ### Opening a band (R229, R232, R234, R259, R363, R390, R391) -/

/-- The block of a die's free pool with the lowest `WEAR`, lowest number first (R232). -/
def State.leastWorn (s : State) (d : Nat) : Option Nat :=
  ((s.fw.blocks.filter fun e => e.2.inPool && dieOfBlock e.1 == d).foldl (fun (best : Option (Nat × Nat)) e =>
    match best with
    | some (w, _) => if e.2.wear < w then some (e.2.wear, e.1) else best
    | none => some (e.2.wear, e.1)) none).map (·.2)

def State.goodDies (s : State) : List Nat := (List.range s.fw.dies).filter fun d => !s.dieLost d

/-- `F` of a die (R234): its free blocks, erased in this power cycle or not (log entry 159). -/
def State.freeOn (s : State) (d : Nat) : Nat :=
  s.fw.planes * s.fw.blocksPer - countIf (fun (e : Nat × BlockRec) => e.2.state != 0 && dieOfBlock e.1 == d) s.fw.blocks
def State.lowestFree (s : State) : Nat := (s.goodDies.map s.freeOn).foldl min (2 ^ 20)

/-- Open blocks of a die that count toward the limit of 12 (R261, R264). -/
def State.openOn (s : State) (d : Nat) : Nat :=
  countIf (fun (e : Nat × BlockRec) => e.2.state == 2 && e.2.use != 6 && dieOfBlock e.1 == d) s.fw.blocks

/-- Blocks of a die in the staging region, and how many it may have there: 2 % of the die's blocks (R213). -/
def BlockRec.staged (r : BlockRec) : Bool := r.use == 0 && 1 ≤ r.state && r.state ≤ 5
def State.stagingOn (s : State) (d : Nat) : Nat :=
  countIf (fun (e : Nat × BlockRec) => e.2.staged && dieOfBlock e.1 == d) s.fw.blocks
def State.stagingShare (s : State) : Nat := s.fw.planes * s.fw.blocksPer * 2 / 100

/-- A die may give a block to a band of the use (R213, R261). -/
def State.dieTakes (s : State) (use d : Nat) : Bool :=
  (use == 6 || s.openOn d < 12) && (use != 0 || s.stagingOn d < s.stagingShare)

/-- A band for host, fold or direct use may open (R234). -/
def State.mayOpen (s : State) (use : Nat) : Bool :=
  2 < use || 48 ≤ s.lowestFree || (24 ≤ s.lowestFree && s.fw.bandReleased)

/-- Groups of five entries, as `MEMBERS` records hold them. -/
def fives : Nat → List Nat → List (List Nat)
  | 0, _ => []
  | fuel + 1, l => if l.isEmpty then [] else l.take 5 :: fives fuel (l.drop 5)

/-- Firmware writes a new system root (R264). -/
def State.newRoot (s : State) (system : Nat) : State :=
  let gen := match s.fw.root with
    | some r => r.generation + 1
    | none => 1
  s.withFw { s.fw with root := some ⟨gen, system, s.fw.copies, s.fw.initialReserve⟩ }

/-- A block as a band takes it. -/
def BlockRec.opened (r : BlockRec) (use : Nat) : BlockRec :=
  { r with state := 2, use := use, lastSlc := slcUse use, programmed := false, ewPages := [], rebuilt := [], pooled := false
           marked := false, durable := none }

/-- A band of blocks opens, with its records and a first window of 16 rows; a system band with a new root. -/
def State.openBlocks (s : State) (use : Nat) (bs : List Nat) : State :=
  let n := s.fw.bandSerial + 1
  let k := s.openShape
  let s := bs.foldl (fun (t : State) b =>
    let t := t.setBlk b ((t.blk b).opened use)
    let t := t.withFw { t.fw with frontier := tput t.fw.frontier b (blockPpa b), durFrontier := tdel t.fw.durFrontier b }
    t.journal (.block 0 use (blockPpa b))) s
  let band : Band := { use := use, k := k, blocks := bs, state := 0, closedHours := 0, extraHours := 0, wearAtClose := 0, valid := 0
                       capacity := 0, refreshDue := false, window := 15, doneRow := 0, gone := [] }
  let s := s.withFw { s.fw with
    bandSerial := n, bands := tput s.fw.bands n band, bandReleased := if 2 < use then s.fw.bandReleased else false }
  let s := s.stripeJournal (.band k use n bs.length)
  let s := (fives bs.length (bs.map fun b => dieOfBlock b + b % 2 ^ 14 * 512)).foldl
    (fun (t : State) l => t.stripeJournal (.members l n)) s
  let s := s.stripeJournal (.window n 0 15)
  if use = 6 then s.newRoot n else s

/-- A band opens: one least-worn free block on each good die that may give one. -/
def State.openBand (s : State) (use : Nat) : State :=
  let bs := (s.goodDies.filter fun d => s.dieTakes use d).filterMap s.leastWorn
  if bs.isEmpty || !s.mayOpen use then s else s.openBlocks use bs

/-! ### The slots of a stripe (R364 to R367, R370) -/

/-- A data unit to be placed. -/
structure UnitIn where
  data : List Word
  hmeta : List Word
  seq : Nat
  lba : Nat
  ns : Nat
  kind : Nat
  deriving DecidableEq, Repr

def UnitIn.tagged (u : UnitIn) (stripe : Nat) : List Word := mkUnit u.data u.hmeta u.seq u.lba u.ns u.kind stripe

/-- An entry of the tag slot: tag bytes 0 to 15 and 28 to 31 (R365). -/
def tagEntry (u : List Word) : List Byte :=
  bytesOf (u.getD 520 0#64).toNat 8 ++ bytesOf (u.getD 521 0#64).toNat 8 ++ bytesOf (bits (u.getD 523 0#64) 32 32) 4

/-- The highest sequence number among units (R367). -/
def highestSeq (us : List UnitIn) : Nat := us.foldl (fun m u => max m u.seq) 0

/-- The data of bytes, padded with zeros to a unit. -/
def unitData (l : List Byte) : List Word := bytesWords ((l ++ List.replicate 4096 0#8).take 4096)

/-- The tag slot of a stripe (R365, R367; class 0x07, R485). -/
def tagSlot (us : List UnitIn) (stripe : Nat) : List Word :=
  mkUnit (unitData (us.flatMap fun u => tagEntry (u.tagged stripe))) [] (highestSeq us) (7 * 2 ^ 40) 0 7 stripe

/-- The 4k data slots: a direct stripe holds 64 units; any other has pads and its tag slot last (R365, R366). -/
def dataSlots (k : Nat) (direct : Bool) (us : List UnitIn) (stripe : Nat) : List (List Word) :=
  let l := us.map fun u => u.tagged stripe
  if direct then l
  else
    let t := tagSlot us stripe
    l ++ List.replicate (4 * k - 1 - us.length) t ++ [t]

/-- P and Q of slot `i` over the data members (R367, R370). -/
def paritySlot (q : Bool) (k i : Nat) (slots : List (List Word)) (seq stripe : Nat) : List Word :=
  let spans := (List.range k).map fun p => (p, (slots.getD (4 * p + i) []).take 520)
  let x := if q then sumQ spans else sumP spans
  mkUnit (x.take 512) (x.drop 512) seq 0 0 (if q then 6 else 5) stripe

/-- Every slot of every member: position, slot in the page, unit. -/
def stripeSlots (k : Nat) (direct : Bool) (us : List UnitIn) (stripe : Nat) : List (Nat × Nat × List Word) :=
  let d := dataSlots k direct us stripe
  d.mapIdx (fun i u => (i / 4, i % 4, u)) ++
    (List.range 4).map (fun i => (k, i, paritySlot false k i d (highestSeq us) stripe)) ++
    (List.range 4).map (fun i => (k + 1, i, paritySlot true k i d (highestSeq us) stripe))

/-! ### Writing a stripe (R259, R261, R362, R376, R391) -/

/-- Pages of a block in the mode of a use. -/
def State.rowsOf (s : State) (use : Nat) : Nat := if slcUse use then s.fw.wordlines else 3 * s.fw.wordlines

/-- The page of a block that is programmed next. -/
def State.pageOf (s : State) (b : Nat) : Nat := rowOf (tgetD s.fw.frontier b (blockPpa b))

/-- A page of an open block may be programmed: pages go in rising order, after the flush that holds the opened record is durable
(R259), and at most 192 pages beyond the durable frontier (R261). Without `fence` the opened record need not be durable. -/
def State.mayProgram (s : State) (fence : Bool) (use b row : Nat) : Bool :=
  let r := s.blk b
  r.state == 2 && s.pageOf b ≤ row && (!fence || r.durable == some 0) &&
    (use == 6 || row < rowOf (tgetD s.fw.durFrontier b (blockPpa b)) + 192)

/-- A durable `WINDOW` covers a row of a band; its `BAND` and `MEMBERS` came before it (R390, R391). -/
def State.windowDurable (s : State) (serial row : Nat) : Bool :=
  (s.fw.stripes.take s.fw.stripesDone).any fun r => match r with
    | .window n _ last => n == serial && row ≤ last
    | _ => false

/-- The dies of a stripe of an open band that may be programmed now, and the row's leftover dies. -/
def State.freeStripe (s : State) (fence : Bool) (use serial row j : Nat) : Option (Band × List Nat × List Nat) :=
  match s.band serial with
  | none => none
  | some bd =>
    let lay := bd.layoutAt serial row
    match lay.1[j]? with
    | none => none
    | some ds =>
      if bd.state = 0 ∧ bd.use = use ∧ row < s.rowsOf use ∧ s.windowDurable serial row = true ∧ ds.all (fun d => s.mayProgram fence use (bd.blockOn d) row) = true then
        some (bd, ds, lay.2)
      else none

/-- The window is kept 16 rows ahead of the row that is programmed, with its record (R391). -/
def State.moveWindow (s : State) (serial row : Nat) : State :=
  match s.band serial with
  | some bd =>
    if bd.window < row + 16 then
      (s.setBand serial { bd with window := row + 16 }).stripeJournal (.window serial (row + 1) (row + 16))
    else s
  | none => s

/-- Pages of dies in a row become programmed. -/
def State.programPages (s : State) (bd : Band) (row : Nat) (dies : List Nat) (slots : List (Nat × List Word)) : State :=
  s.withFw { s.fw with
    flash := slots.foldl (fun f e => tput f e.1 e.2) s.fw.flash
    frontier := dies.foldl (fun f d => tput f (bd.blockOn d) (bd.ppaOn d (row + 1) 0)) s.fw.frontier
    blocks := dies.foldl (fun (f : Tab BlockRec) d =>
      tput f (bd.blockOn d) { tgetD f (bd.blockOn d) BlockRec.fresh with programmed := true }) s.fw.blocks }

/-- The pad pages of a row's leftover dies (R362): their sequence numbers are free values. -/
def State.putPads (s : State) (bd : Band) (row : Nat) (dies : List Nat) : State :=
  let u := mkUnit [] [] (freshWord s).toNat (8 * 2 ^ 40) 0 7 0xFFFFFFFF
  let ds := dies.filter fun d => s.mayProgram false bd.use (bd.blockOn d) row
  s.tick.programPages bd row ds (ds.flatMap fun d => (List.range 4).map fun i => (bd.ppaOn d row i, u))

/-- Every stripe of a row is written, or cannot be any more: `DONE` is recorded, and after the last row the band closes (R229,
R391). -/
def State.rowEnds (s : State) (serial row : Nat) : State :=
  match s.band serial with
  | none => s
  | some bd =>
    let whole := (bd.layoutAt serial row).1.all fun ds => ds.any fun d => !s.mayProgram false bd.use (bd.blockOn d) row
    if whole then
      let s := (s.setBand serial { bd with doneRow := max bd.doneRow row }).stripeJournal (.done serial row)
      if s.rowsOf bd.use ≤ row + 1 then s.closeBand serial else s
    else s

/-- Stripe `j` of a row of a band takes the units, the rest of its data slots pads: the state and the PPA of each unit. None
where the stripe is not there, may not be programmed or does not hold them. A direct stripe holds 64 units (R365). -/
def State.putStripe (s : State) (fence : Bool) (use serial row j : Nat) (direct : Bool) (us : List UnitIn) :
    Option (State × List Nat) :=
  match s.freeStripe fence use serial row j with
  | none => none
  | some (bd, ds, left) =>
    if (direct && (bd.k != 16 || us.length != 64)) || (!direct && 4 * bd.k - 1 < us.length) then none
    else
      let t := s.moveWindow serial row
      let slots := (stripeSlots bd.k direct us (stripeNumber serial row j)).map fun e => (bd.ppaOn (ds.getD e.1 0) row e.2.1, e.2.2)
      let t := t.programPages bd row ds slots
      let t := if j = 0 then t.putPads bd row left else t
      some (t.rowEnds serial row, (List.range us.length).map fun i => bd.ppaOn (ds.getD (i / 4) 0) row (i % 4))

/-- The rows that are programmed together with a row (R362, R376): itself, or the three of its TLC wordline. -/
def rowsWith (use row : Nat) : List Nat := if slcUse use then [row] else (List.range 3).map (row / 3 * 3 + ·)

/-- The stripes `j` of several rows are issued together, each with its units (R376). -/
def State.putRows (s : State) (use serial j : Nat) : List (Nat × Bool × List UnitIn) → Option (State × List Nat)
  | [] => some (s, [])
  | (row, direct, us) :: t =>
    match s.putStripe true use serial row j direct us with
    | none => none
    | some (s, ps) => (s.putRows use serial j t).map fun r => (r.1, ps ++ r.2)

/-- Units that one place takes: a stripe's, or those of the three row stripes of a TLC wordline. -/
def State.placeRoom (s : State) (use : Nat) (w : StripeAt) : Nat :=
  match s.band w.band.toNat with
  | some bd => if bd.state = 0 ∧ bd.use = use then (rowsWith use 0).length * (4 * bd.k - 1) else 0
  | none => 0

/-- Every stripe of the place may be programmed. -/
def State.placeFree (s : State) (use : Nat) (w : StripeAt) : Bool :=
  (rowsWith use w.row.toNat).all fun r => (s.freeStripe true use w.band.toNat r w.j.toNat).isSome

/-- The block of a place on which the member program fails (R377). -/
def State.failsAt (s : State) (w : StripeAt) : Option Nat :=
  match w.failed, s.band w.band.toNat with
  | some d, some bd =>
    match (bd.layoutAt w.band.toNat w.row.toNat).1[w.j.toNat]? with
    | some ds => if ds.contains d.toNat then some (bd.blockOn d.toNat) else none
    | none => none
  | _, _ => none

/-- A member program of a place has failed: the other members are stale space and the block is retired (R243, R377). -/
def State.memberFailed (s : State) (use : Nat) (w : StripeAt) (b : Nat) : State :=
  State.retire (s.withFw { s.fw with
    flash := s.fw.flash.filter fun e => !(blockOf e.1 == b && (rowsWith use w.row.toNat).contains (rowOf e.1)) }) b

/-- A place takes units, row by row; where a member program fails it takes none (R377). -/
def State.putAt (s : State) (use : Nat) (w : StripeAt) (us : List UnitIn) : Option (State × List Nat) :=
  let rows := rowsWith use w.row.toNat
  let n := s.placeRoom use w / rows.length
  if s.placeFree use w && us.length ≤ s.placeRoom use w then
    (s.putRows use w.band.toNat w.j.toNat (rows.mapIdx fun i r => (r, false, (us.drop (n * i)).take n))).map fun r =>
      match s.failsAt w with
      | some b => (r.1.memberFailed use w b, [])
      | none => r
  else none

/-- The band that a place names takes the use, or a new band opens, to be programmed once its records are durable; at most a
current and a next band are open for a use (R259, R261). -/
def State.readyBand (s : State) (use : Nat) (w : StripeAt) : State :=
  if 0 < s.placeRoom use w then s
  else if 2 ≤ countIf (fun (e : Nat × Band) => e.2.state == 0 && e.2.use == use) s.fw.bands then s
  else s.openBand use

/-- The next free stripe of the open bands of a use, in rising order: band serial, row, stripe. -/
def State.nextStripe (s : State) (fence : Bool) (use : Nat) : Option (Nat × Nat × Nat) :=
  (s.fw.bands.filter fun e => e.2.state == 0 && e.2.use == use).findSome? fun e =>
    let top := (e.2.blocks.map s.pageOf).foldl max 0
    [top - 1, top].findSome? fun row =>
      ((List.range (e.2.layoutAt e.1 row).1.length).find? fun j => (s.freeStripe fence use e.1 row j).isSome).map fun j => (e.1, row, j)

/-! ### Reading through the stripes (R371, R372, R378, R387) -/

/-- The PPA of a slot of a position of the stripe of a spot. -/
def StripeSpot.slotPpa (x : StripeSpot) (pos slot : Nat) : Nat := x.band.ppaOn (x.dies.getD pos 0) x.row slot
def StripeSpot.number (x : StripeSpot) : Nat := stripeNumber x.serial x.row x.j

/-- The PPA of a slot of P, or of Q, of the stripe of a spot: where recovery wrote it afresh, that unit (R267). -/
def State.parityPpa (s : State) (x : StripeSpot) (q : Bool) (slot : Nat) : Nat :=
  match tget s.fw.reparity x.number with
  | some l => l.getD (slot + 4 * b2n q) 0
  | none => x.slotPpa (x.band.k + b2n q) slot

/-- The parity spans of the slots that stand beside position `pos` in slot `slot`: position and span. -/
def State.spansBeside (s : State) (x : StripeSpot) (pos slot : Nat) : List (Nat × List Word) :=
  ((List.range x.band.k).filter (· != pos)).map fun p => (p, (tgetD s.fw.flash (x.slotPpa p slot) []).take 520)

/-- The span of a slot of a data position, from P and the other data members (R371). -/
def State.spanFromP (s : State) (x : StripeSpot) (slot : Nat) : List Word :=
  sumP ((x.band.k, (tgetD s.fw.flash (s.parityPpa x false slot) []).take 520) :: s.spansBeside x x.pos slot)

/-- The 20 bytes of an entry of a tag slot, as the four doubles of the tag that it restores (R365, R372). -/
def tagFromEntry (entry : List Byte) (stripe : Nat) : List Word :=
  wordsOf (entry.take 16 ++ bytesOf stripe 4 ++ bytesOf 0 8 ++ entry.drop 16) 4

/-- The tag of a rebuilt unit in data slot `i` (R372): from the stripe's tag slot, in a pad slot the tag slot's own; in a direct
stripe derived from another unit of it. -/
def State.restoredUnit (s : State) (x : StripeSpot) (i : Nat) (span : List Word) : List Word :=
  let last := 4 * x.band.k - 1
  let first := uSeq (tgetD s.fw.flash (x.slotPpa 0 0) [])
  let top := uSeq (tgetD s.fw.flash (s.parityPpa x false 0) [])
  let direct := x.band.use == 1 && x.band.k == 16 && first % 256 == 0 && top == first + 254
  let tagUnit := tgetD s.fw.flash (x.slotPpa (last / 4) (last % 4)) []
  let data := span.take 512
  let hmeta := span.drop 512
  if i = last && !direct then mkUnit data hmeta top (7 * 2 ^ 40) 0 7 x.number
  else if !direct then
    let entry := ((unitBytes (uData tagUnit)).drop (20 * i)).take 20
    if entry.all (· == 0#8) then tagUnit else span ++ tagFromEntry entry (x.number % 2 ^ 32)
  else
    match (List.range 64).find? fun m => m != i && (tget s.fw.flash (x.slotPpa (m / 4) (m % 4))).isSome with
    | none => span
    | some m =>
      let w := tgetD s.fw.flash (x.slotPpa (m / 4) (m % 4)) []
      let base := if m = 63 then uSeq w - 254 else uSeq w - 2 * m
      mkUnit data hmeta (base + if i = 63 then 254 else 2 * i) (uLba w - m + i) (uNs w) (uKind w) x.number

/-- A unit of a stripe rebuilt from its other members (R371, R372). None where it belongs to no stripe. -/
def State.rebuiltUnit (s : State) (ppa : Nat) : Option (List Word) :=
  match s.spotOf ppa with
  | none => none
  | some x =>
    let slot := ppa % 4
    let k := x.band.k
    if x.pos < k then some (s.restoredUnit x (4 * x.pos + slot) (s.spanFromP x slot))
    else
      let spans := s.spansBeside x x.pos slot
      let sum := if x.pos = k then sumP spans else sumQ spans
      let other := tgetD s.fw.flash (s.parityPpa x (x.pos == k) slot) []
      some (mkUnit (sum.take 512) (sum.drop 512) (uSeq other) 0 0 (if x.pos = k then 5 else 6) x.number)

/-- How the read of a unit ends (R205, R378, R387). -/
inductive UnitGot where
  /-- Read, or rebuilt where `degraded`. -/
  | good (w : List Word) (degraded : Bool)
  /-- Lost, by the cause of R399. -/
  | lost (cause : Nat)
  deriving DecidableEq, Repr

/-- The read of a PPA whose unit must pass a check: members on lost dies and `bad` further slots of the stripe are erasures, the
slot itself among them where `bad` is not 0, or where it fails the check. At most two are rebuilt (R205, R371, R378, R387). -/
def State.unitRead (s : State) (ppa bad : Nat) (check : List Word → Bool) : UnitGot :=
  let w := tgetD s.fw.flash ppa []
  let er := ((s.spotOf ppa).map fun x => s.lossCount x.dies).getD 0
  let here := bad == 0 && !s.dieLost (dieOfBlock (blockOf ppa))
  if here && check w then .good w false
  else if 3 ≤ er + bad + b2n here then .lost 1
  else match s.rebuiltUnit ppa with
    | some u => if check u then .good u true else .lost 2
    | none => .lost 2

/-- The unit at a PPA as a read that finds `bad` erasures gives it, whatever its tag says (R378). -/
def State.unitAt (s : State) (ppa bad : Nat) : Option (List Word) :=
  match tget s.fw.flash ppa with
  | none => none
  | some _ =>
    match s.unitRead ppa bad fun u => tagCrcGood (unitBytes u) with
    | .good u _ => some u
    | .lost _ => none

/-- Why such a read gives no unit (R399). -/
def State.lossCause (s : State) (ppa : Nat) : Nat :=
  match s.unitRead ppa 0 fun u => tagCrcGood (unitBytes u) with
  | .good _ _ => 2
  | .lost c => c

end Sys2Proof.Machine
end

