-- ==== Sys2Proof/Machine/FwJournal.lean ====
section
/-! DEFINITION. Flushes of the map journal: their records and units, the ranges that they commit, and the journal and system bands
that they let go (R151, R159, R204, R217, R221 to R224, R259 to R264). -/

namespace Sys2Proof.Machine

open Sys2Proof

/-! ### What a flush holds (R204, R222, R224, R260) -/

/-- The erased records of a clean flush: blocks erased since the start of the last complete snapshot and not opened since
(R224). -/
def State.erasedRecs (s : State) : List JRec :=
  let since := ((s.fw.snaps.filter (·.complete)).getLast?.map (·.seq)).getD 0
  (s.fw.blocks.filter fun e => e.2.inPool && since ≤ e.2.erasedSeq).map fun e => .block 5 e.2.use (blockPpa e.1)

/-- A frontier stays at the first unit whose portion has not committed (R260). -/
def State.heldFrontier (s : State) (b ppa : Nat) : Nat :=
  (s.fw.placed.filter fun x => blockOf x.2 == b).foldl (fun m x => min m x.2) ppa

/-- The frontier records of a flush: blocks whose frontier has moved (R222, R260). -/
def State.frontierRecs (s : State) : List JRec :=
  s.fw.frontier.filterMap fun e =>
    let p := s.heldFrontier e.1 e.2
    if tget s.fw.durFrontier e.1 = some p then none else some (.frontier (s.blk e.1).use p)

/-- A range may enter a flush: its partial units are programmed, and no portion on its way shares a unit with it, so that numbers,
records and commit points keep one order (R159, R204, R217). -/
def State.rangeReady (s : State) (r : RangeOp) : Bool :=
  r.seq.isNone && !(s.fw.staging.any fun w => w.order == r.order && w.ranged) &&
    !(s.fw.placed.any fun x => !x.1.ranged && x.1.ns == r.ns && r.first ≤ x.1.unit && x.1.unit < r.first + r.count)

/-- The records of the partial units that commit with a range, each programmed at its place. -/
def State.partRecs (s : State) (o : Nat) : List JRec :=
  (s.fw.placed.filter fun x => x.1.ranged && x.1.order == o).map fun x =>
    let q := x.1.seq.getD 0
    .unit x.1.ns false 0 q x.1.unit (mkEntry x.2 false false true false q)

/-- The ranges that are ready take their numbers, and their records wait for the flush that starts (R204, R218). -/
def State.takeRanges (s : State) : List RangeOp → State
  | [] => s
  | r :: t =>
    if s.rangeReady r then
      let q := s.takeSeqs 1
      let n := q.2.headD 0
      let recs := JRec.range r.ns r.kind r.count n r.first (rangeEntry r.kind n) :: s.partRecs r.order
      let s := recs.foldl State.journal q.1
      State.takeRanges (s.withFw { s.fw with ranges := s.fw.ranges.map fun x => if x = r then { x with seq := some n } else x }) t
    else s.takeRanges t

/-- A flush starts: every waiting record, erased records in a clean flush, frontiers, and a checkpoint last, padded to whole units,
each unit with a fresh number (R203, R222, R224). With a flush in progress or without a place for its units it waits. -/
def State.flushStart (s : State) (clean pfail : Bool) : State :=
  match s.fw.jFlush with
  | some _ => s.wantFlush
  | none =>
    let s := if (s.nextStripe false 5).isSome then s else s.openBand 5
    if (s.nextStripe false 5).isNone then s.wantFlush
    else
      let s := s.takeRanges s.fw.ranges
      let recs := s.fw.jWait ++ (if clean then s.erasedRecs else []) ++ s.frontierRecs
      let n := ceilDiv (recs.length + 1) 128
      let q := s.takeEach n
      let recs := recs ++ [.checkpoint clean (q.1.fw.jFlushNo + 1) q.1.fw.seqTop]
      let recs := recs ++ List.replicate (128 * n - recs.length) .nop
      q.1.withFw { q.1.fw with jFlush := some (recs, pfail, q.2), jWait := [], jEarly := false }

/-- A flush is due: the oldest record is 2 ms old, 2,048 wait, or an early one is asked for (R222). -/
def State.flushDue (s : State) : Bool :=
  s.fw.jEarly || 2048 ≤ s.fw.jWait.length || (!s.fw.jWait.isEmpty && decide (s.fw.jOldest + 2000000 ≤ s.now))

/-! ### The stripe journal (R264, R389 to R391) -/

/-- Copy `i` of the stripe journal starts, or goes on, in the least-worn free block of a die, with a `COPY` record and a new root;
the block that it leaves is released (R232, R264, R389). None where the die has no free block. -/
def State.copyTo (s : State) (i d : Nat) : Option State :=
  (s.leastWorn d).map fun b =>
    let s := s.setBlk b ((s.blk b).opened 6)
    let s := s.journal (.block 0 6 (blockPpa b))
    let old := s.fw.copies[i]?
    let s := match old with
      | some c =>
        let x := c.2 + c.1 * 2 ^ 17
        if (s.blk x).state == 2 && !s.dieLost c.1 then
          let t := (s.setBlk x { s.blk x with state := 4 }).journal (.block 2 6 (blockPpa x))
          t.withFw { t.fw with released := t.fw.released ++ [x] }
        else s
      | none => s
    let s := s.stripeJournal (.copy i d (b % 2 ^ 14))
    let set {α : Type} (l : List α) (x : α) : List α := if i < l.length then l.set i x else l ++ [x]
    let s := s.withFw { s.fw with
      copies := set s.fw.copies (d, b % 2 ^ 17), copyUsed := set s.fw.copyUsed (ceilDiv s.fw.stripes.length 128)
      copyBad := if s.fw.copyBad = some i then none else s.fw.copyBad }
    s.newRoot ((s.fw.root.map (·.system)).getD 0)

/-- The copy that the next write starts: the first of three that is missing, or one whose die is lost or whose program failed
(R389). -/
def State.copyDue (s : State) : Option Nat :=
  if s.fw.copies.length < 3 then some s.fw.copies.length
  else match s.fw.copyBad with
    | some i => some i
    | none => s.fw.copies.findIdx? fun c => s.dieLost c.1

/-- A die may take copy `i`: good, in a channel that no other copy is in (R389). -/
def State.copyFits (s : State) (i d : Nat) : Bool :=
  !s.dieLost d && !((s.fw.copies.mapIdx fun j c => (j, c.1)).any fun c => c.1 != i && c.2 / 16 == d / 16)

/-- A write to the stripe journal (R389): a due copy starts on the die, with every record in force; a full one goes on in a new block;
then every live copy takes what waits. It is durable once two copies hold it; `failed` is one whose program failed. -/
def State.stripeWrite (s : State) (failed : Option Nat) (d : Nat) : State :=
  let s := match s.copyDue with
    | some i =>
      (match if s.copyFits i d then s.copyTo i d else none with
      | some t => t.withFw { t.fw with copiesReplaced := t.fw.copiesReplaced + if i < s.fw.copies.length then 1 else 0 }
      | none => s)
    | none => s
  let units := ceilDiv (s.fw.stripes.length - s.fw.stripesDone) 128
  let s := (List.range s.fw.copies.length).foldl (fun (t : State) i =>
    let die := ((t.fw.copies[i]?).map (·.1)).getD 0
    if 4 * t.fw.wordlines < t.fw.copyUsed.getD i 0 + units && !t.dieLost die then (t.copyTo i die).getD t else t) s
  let live := (s.fw.copies.mapIdx fun i c => (i, c.1)).filter fun c => !s.dieLost c.2 && s.fw.copyBad != some c.1 && failed != some c.1
  let s := s.withFw { s.fw with
    copyUsed := s.fw.copyUsed.map (· + units)
    copyBad := match failed with
      | some i => if i < s.fw.copies.length then some i else s.fw.copyBad
      | none => s.fw.copyBad }
  if 2 ≤ live.length then s.withFw { s.fw with stripesDone := s.fw.stripes.length } else s

/-- The stripe journal is brought up to date in one step, its copies on the first dies that fit (R264, R389). -/
def State.stripeSync (s : State) : State :=
  let die (t : State) : Nat := ((t.goodDies.find? fun d => (t.leastWorn d).isSome &&
    t.copyFits (t.copyDue.getD 0) d)).getD 0
  let step (t : State) : State := if t.copyDue.isSome then t.stripeWrite none (die t) else t
  (step (step (step s))).stripeWrite none 0

/-! ### A flush becomes durable (R151, R222, R223, R262, R264) -/

/-- The units of a flush, 128 records each (R202, R221). -/
def journalUnits (recs : List JRec) (flush : Nat) (seqs : List Nat) : List UnitIn :=
  seqs.mapIdx fun i q => ⟨unitData (((recs.drop (128 * i)).take 128).flatMap JRec.bytes), [], q, flush * 16 + i, 0, 4⟩

/-- Journal units go to the next stripes of the journal's bands: one whose opened record is durable, or where there is none, as
before the first flush, any open one (R222, R259; log entry 160). -/
def State.putJournal (s : State) : Nat → List UnitIn → Option (State × List Nat)
  | 0, us => if us.isEmpty then some (s, []) else none
  | fuel + 1, us =>
    if us.isEmpty then some (s, [])
    else
      let fence := (s.nextStripe true 5).isSome
      match s.nextStripe fence 5 with
      | none => none
      | some (n, row, j) =>
        let room := ((s.band n).map fun bd => 4 * bd.k - 1).getD 0
        match s.putStripe fence 5 n row j false (us.take room) with
        | none => none
        | some (t, ps) => (t.putJournal fuel (us.drop room)).map fun q => (q.1, ps ++ q.2)

/-- What durable `BLOCK` records say of their blocks (R230, R259, R262). -/
def durableBlocks (t : Tab BlockRec) (l : List JRec) : Tab BlockRec :=
  l.foldl (fun t r => match r with
    | .block st _ p =>
      let r := tgetD t (blockOf p) BlockRec.fresh
      tput t (blockOf p) { r with durable := some st, erasedRec := st == 5 || (r.erasedRec && st != 2) }
    | _ => t) t

/-- The place in a list of the started record of a snapshot. -/
def startedAt (l : List JRec) (seq : Nat) : Option Nat :=
  l.findIdx? fun r => match r with
    | .snapshot false q _ => q == seq
    | _ => false

/-- The journal unit that holds a snapshot's started record becomes known (R264). -/
def State.snapshotRecorded (s : State) : State :=
  s.withFw { s.fw with snaps := s.fw.snaps.map fun x =>
    if x.recordPpa ≠ 0 then x
    else match startedAt s.fw.journal x.seq with
      | some i => { x with recordPpa := ((s.fw.jUnits[i / 128]?).map (·.1)).getD 0, flush := s.fw.jFlushNo }
      | none => x }

/-- A closed or full band that nothing refers to any more is released (R229, R264). -/
def State.releaseUnused (s : State) (use : Nat) (p : Nat → Bool) : State :=
  (s.fw.bands.filter fun e => e.2.use == use && e.2.state == 1 && p e.1).foldl (fun (t : State) e => t.releaseBand e.1) s

/-- The complete record of a snapshot is durable: the journal before its started record goes, and with it the journal bands that
hold no unit that is kept; so do the system bands before the snapshot's own, with their snapshots, and the replay index (R223, R264, R268). -/
def State.snapshotDurable (s : State) (seq : Nat) : State :=
  match s.fw.snaps.find? fun x => x.seq == seq, startedAt s.fw.journal seq with
  | some x, some i =>
    let s := s.withFw { s.fw with
      journal := s.fw.journal.drop (i / 128 * 128), jUnits := s.fw.jUnits.drop (i / 128)
      snaps := s.fw.snaps.filter (fun y => x.band ≤ y.band), replayIndex := [] }
    let s := (s.fw.bands.filter fun e => e.2.use == 6 && e.2.state == 0 && e.1 < x.band).foldl
      (fun (t : State) e => t.closeBand e.1) s
    let s := s.releaseUnused 6 (· < x.band)
    let kept := s.fw.jUnits.map fun u => blockOf u.1
    s.releaseUnused 5 fun n => !((((s.band n).map (·.blocks)).getD []).any kept.contains)
  | _, _ => s

/-- The range and the partial units of a command take effect (R151, R159). -/
def State.rangeCommits (s : State) (r : RangeOp) : State :=
  let parts := s.fw.placed.filter fun x => x.1.ranged && x.1.order == r.order
  let s := s.applyRange r.ns r.kind r.first r.count (rangeEntry r.kind (r.seq.getD 0))
  let s := parts.foldl (fun (t : State) x =>
    (t.newEntry x.1.ns x.1.unit (mkEntry x.2 false false true false (x.1.seq.getD 0))).releaseBead x.1.bead) s
  s.withFw { s.fw with placed := s.fw.placed.filter fun x => !(x.1.ranged && x.1.order == r.order) }

/-- The flush in progress becomes durable: its units stand in flash, and the ranges that it holds take effect (R151, R222). Where
its units have no place it goes on. -/
def State.flushDurable (s : State) : State :=
  match s.fw.jFlush with
  | none => s
  | some (recs, pfail, seqs) =>
    let us := journalUnits recs (s.fw.jFlushNo + 1) seqs
    match s.putJournal us.length us with
    | none => s
    | some (s, ps) =>
      let s := s.withFw { s.fw with
        jFlush := none, jFlushNo := s.fw.jFlushNo + 1, journal := s.fw.journal ++ recs
        jUnits := s.fw.jUnits ++ ps.map fun p => (p, 128)
        pfailFlush := pfail, durFrontier := durableFrontiers s.fw.durFrontier recs, blocks := durableBlocks s.fw.blocks recs }
      let s := s.snapshotRecorded
      let s := (recs.filterMap fun r => match r with | .snapshot true q _ => some q | _ => none).foldl State.snapshotDurable s
      let due := s.fw.ranges.filter (·.seq.isSome)
      let s := due.foldl State.rangeCommits s
      let s := s.withFw { s.fw with ranges := s.fw.ranges.filter (·.seq.isNone) }
      due.foldl (fun (t : State) r => t.slotDone r.order) s

/-- The flush in progress ends, and another is made whole: what one command does in a single step (R264, R532). -/
def State.flushNow (s : State) (clean : Bool) : State := (s.flushDurable.flushStart clean false).flushDurable

/-- Everything that waits for the journal becomes durable: the flush in progress, and one more. None where their units find no
place. -/
def State.flushAll (s : State) (clean : Bool) : Option State :=
  let t := s.flushDurable
  let u := if t.fw.jFlush.isSome then t else t.flushStart clean false
  let v := u.flushDurable
  if t.fw.jFlush.isSome || u.fw.jFlush.isNone || v.fw.jFlush.isSome then none else some v

/-- A change that counts only once its records are durable (R275): where the flush finds no place nothing of it happens, and what
asked for it waits, as `wait` stood. -/
def State.durably (s : State) (f : State → State) (wait : State := s) : State := ((f s).flushAll false).getD wait

/-- The newest durable record before the padding is a clean checkpoint, and nothing waits (R166, R224). -/
def State.cleanOnFlash (s : State) : Bool :=
  s.fw.jWait.isEmpty && s.fw.jFlush.isNone &&
    match s.fw.journal.reverse.find? fun r => r != .nop with
    | some (.checkpoint c _ _) => c
    | _ => false

end Sys2Proof.Machine
end

