-- ==== Sys2Proof/Machine/HqeData.lean ====
section
/-! DEFINITION. Data movement of the host queue engine: write data, re-pull, read data, completions, bead errors and the
encryption service (R139 to R143, R187, R188, R454). -/

namespace Sys2Proof.Machine

open Sys2Proof

/-! ### Messages taken by a hardware endpoint -/

/-- A hardware endpoint has handled a message: the oldest one of the source with this sub-operation leaves its mailbox 0. -/
def State.handled (s : State) (ep src sub : Nat) : State :=
  match takeFirst (fun (m : Msg) => decide (m.src = src) && decide (m.sub = sub)) (s.box ep 0) with
  | some (_, rest) => s.setBox ep 0 rest
  | none => s

/-- The Timestamp is saved, if the host has set one since device reset (R239). -/
def State.saveStamp (s : State) : State :=
  if s.fld fTMR_STAMP_ORIGIN = 1 then { s with pwr := { s.pwr with stampSaved := some s.stampMs } } else s

/-- The lifetime counts are saved (R558). -/
def State.saveLife (s : State) : State := { s with evr := { s.evr with lifetimeSaved := s.evr.lifetime } }

/-- A requested shutdown ends once no entry is being fetched and no fetched command is in flight but Asynchronous Event Requests: a
normal one starts no program but journal units and writes a clean checkpoint first, after any flush in progress (R166, R224), with
a copy of Assay's table (R349). The Timestamp is saved if the host has set one (R239), and the operating counters are (R556). -/
def State.shutdownStep (s : State) : State :=
  if s.hqe.shutdown && s.fld fHQE_CTL_SHST == 1 && s.hqe.fetching.isEmpty &&
      s.hqe.slots.all (fun (e : Nat × Slot) => s.hqe.aers.contains e.1) then
    if s.hqe.shn = 1 && !s.cleanOnFlash then
      (if s.fw.jFlush.isSome then s else s.flushStart true false)
    else (if s.hqe.shn = 1 then s.saveAssay else s).saveStamp.counterWord.saveLife.setFld fHQE_CTL_SHST 2
  else s

/-! ### Write data (R139, R140) -/

/-- Beads to the granted group of a slot: the engine asks for groups while it may (R139, R181). -/
def execWriteDataGrant (slot : SlotId) (s : State) : Out :=
  .next (match s.slot slot.toNat with
    | some e => if e.dispatched then (s.requestGroups slot.toNat 9).decideWaiting else s
    | none => s)

/-- The sector mask of unit `i` of a slot's transfer (R139). -/
def State.sectorMask (s : State) (e : Slot) (i : Nat) : Nat :=
  if e.admin then
    let left := adminBytes e.cmd - 4096 * i
    2 ^ min 8 ((left + 511) / 512) - 1
  else if s.fmtOf e.cmd = 5 then
    let a := cmdSlba e.cmd
    let b := a + cmdBlocks e.cmd
    sumOf (fun k =>
      let l := 8 * (e.firstUnit + i) + k
      if a ≤ l ∧ l < b then 2 ^ k else 0) (List.range 8)
  else 0xFF

/-- The doubles that enter a bead: masked sectors of the unit, the rest as the bead holds it (R139; log entry 59). -/
def mergeSectors (mask : Nat) (old new : List Word) : List Word :=
  (List.range 8).flatMap fun k => if mask / 2 ^ k % 2 = 1 then sectorOf k new else sectorOf k old

/-- Data padded or cut to `n` doubles. -/
def fitWords (n : Nat) (l : List Word) : List Word := (l ++ List.replicate n 0#64).take n

/-- Fill bead `b` with unit `i` of slot `e`: protection is generated or checked, data is encrypted, metadata entered (R139,
R143, R452). The failure status, if one is met. -/
def State.fillBead (s : State) (e : Slot) (i b : Nat) (u : PulledUnit) : State × Option (Bool × Nat) :=
  let data := fitWords 512 u.data
  if e.admin then
    -- the last piece is zero-filled beyond the transfer length
    let n := adminBytes e.cmd - 4096 * i
    let bytes := (wordBytes data).take n ++ List.replicate 4096 0#8
    (s.withMem (s.mem.writeDoubles (beadAddr b) (fitWords 512 (bytesWords (bytes.take 4096)))), none)
  else
    let n := s.activeNs e.nsid
    let fmt := (n.map (·.format)).getD 0
    let pi := (n.map (·.pi)).getD 0
    let first := (n.map (·.piFirst)).getD false
    let lba := unitLba fmt (e.firstUnit + i)
    let own := piOwn fmt e.cmd
    let hmeta := if pi != 0 && own then piMake fmt pi e.cmd (wordBytes data) lba i
      else (wordBytes u.hostMeta ++ List.replicate 64 0#8).take (metaBytes fmt)
    let bad := if pi != 0 && !own then piCheck fmt pi first e.cmd (wordBytes data) hmeta lba i else none
    match bad with
    | some st => (s, some (false, st))
    | none =>
      let mask := s.sectorMask e i
      match s.cipherUnit true (e.nsid - 1) fmt lba mask data with
      | none => (s, some (true, stat 0 0x04))
      | some c =>
        let old := s.mem.readDoubles (beadAddr b) 512
        let m := s.mem.writeDoubles (beadAddr b) (if fmt = 5 then mergeSectors mask old c else fitWords 512 c)
        let m := m.writeDoubles (beadMetaAddr b) (fitWords 8 (bytesWords ((hmeta ++ List.replicate 64 0#8).take 64)))
        (s.withMem m, none)

/-- A write-data-ready message of up to 8 units, whose grants pass to the dispatch endpoint first (R139). -/
def State.writeReady (s : State) (k : Nat) (e : Slot) (first : Nat) (beads : List Nat) (flags status : Nat) : State :=
  let s := beads.foldl (fun (t : State) b => t.giveBead b e.ep) s
  s.hwSend 113 e.ep e.mbx 0x101
    (payloadOf ([(0, 2, k), (2, 2, first), (4, 1, beads.length), (5, 1, flags), (32, 2, status)] ++
      beads.mapIdx (fun i b => (8 + 2 * i, 2, b)) ++
      beads.mapIdx (fun i _ => (24 + i, 1, s.sectorMask e (first + i)))))

/-- The messages of a filled run of units, 8 units at most in each; flag [2] is set with the command's last units (R139). -/
def State.writeReadyAll (s : State) (k : Nat) (e : Slot) (first : Nat) (beads : List Nat) : Nat → State
  | 0 => s
  | fuel + 1 =>
    if beads.isEmpty then s
    else
      let now := beads.take 8
      let last := first + now.length == e.units
      (s.writeReady k e first now (4 * b2n last) 0).writeReadyAll k e (first + 8) (beads.drop 8) fuel

/-- Fill the beads of a group one by one up to the first failure: the units filled, and the failure. -/
def State.fillGroup (s : State) (e : Slot) (i : Nat) : List Nat → List PulledUnit → State × Nat × Option (Bool × Nat)
  | b :: bs, u :: us =>
    match s.fillBead e i b u with
    | (t, some f) => (t, 0, some f)
    | (t, none) =>
      let r := t.fillGroup e (i + 1) bs us
      (r.1, r.2.1 + 1, r.2.2)
  | _, _ => (s, 0, none)

/-- The pull of a slot's first group ends: the units before a failure are reported, then the failing unit with its flag; the
beads behind it, and those of every other group of the slot, go back to the pool, since no more is pulled (R139; log entry
59). -/
def State.groupEnds (s : State) (k : Nat) (e : Slot) (g : PullGroup) (filled : Nat) (fail : Option (Bool × Nat)) : State :=
  let others := if fail.isSome then (e.pulls.drop 1).flatMap (·.beads) else []
  let e := { e with
    pulls := if fail.isSome then [] else e.pulls.drop 1
    groups := if fail.isSome then 0 else if g.repull || g.part then e.groups else e.groups - 1
    pullStopped := match fail with | some f => some f.2 | none => e.pullStopped }
  let s := s.setSlot k e
  let s := if fail.isSome then
      { s with pool := { s.pool with waiting := s.pool.waiting.filter fun w => decide (w.slot ≠ k) } }
    else s
  let s := if g.repull then
      (if filled = 0 then s else s.writeReady k e g.first g.beads 8 0)
    else s.writeReadyAll k e g.first (g.beads.take filled) 17
  match fail with
  | none => s
  | some (transfer, st) =>
    let s := s.writeReady k e (g.first + filled) ((g.beads.drop filled).take 1)
      ((if transfer then 2 else 1) + 8 * b2n g.repull) st
    (g.beads.drop (filled + 1) ++ others).foldl (fun (t : State) b => if t.granted b 113 then t.releaseBead b else t) s

/-- WRITE_DATA_PULL_DONE (R139, R143, R452): the units of the slot's oldest group have arrived. -/
def execWriteDataPullDone (slot : SlotId) (units : List PulledUnit) (s : State) : Out :=
  .next (match s.slot slot.toNat with
    | none => s
    | some e =>
      match e.pulls with
      | [] => s
      | g :: _ =>
        if units.length ≠ g.beads.length then s
        else if 0 < s.hqe.link.dropNext then
          -- an injector discards the completion, and the pull waits for its timeout (R123)
          { s with hqe := { s.hqe with link := { s.hqe.link with dropNext := s.hqe.link.dropNext - 1 } } }
        else
          let r := s.fillGroup e g.first g.beads units
          r.1.groupEnds slot.toNat e g r.2.1 r.2.2)

/-- REPULL (R140): a unit is pulled again into a bead of the sender; a refused request is dropped, its bead freed. -/
def execRepull (src : Endpoint) (slot unit bead : BitVec 16) (s : State) : Out :=
  .next (
    let s := s.handled 113 src.toNat 0x112
    let k := slot.toNat
    let b := bead.toNat
    let ok := match s.slot k with
      | some e => e.units != 0 && decide (unit.toNat < e.units) && s.granted b 113
      | none => false
    match s.slot k with
    | some e =>
      if ok then
        let s := s.setSlot k { e with pulls := e.pulls ++ [⟨unit.toNat, [b], true, false⟩] }
        { s with
          pool := { s.pool with repulls := s.pool.repulls + 1 }
          hqe := { s.hqe with hostOut := s.hqe.hostOut ++ [HostEvent.pull k unit.toNat b] } }
      else
        let s := if s.granted b 113 then s.releaseBead b else s
        s.stray 2 src.toNat k unit.toNat b
    | none =>
      let s := if s.granted b 113 then s.releaseBead b else s
      s.stray 2 src.toNat k unit.toNat b)

/-! ### Read data (R141, R143, R187, R188) -/

/-- The sectors of an entry: a count of 0 means 8 (R141). -/
def entryRun (e : ReadEntry) : Nat := if e.sectors.toNat = 0 then 8 else e.sectors.toNat

/-- READ_DATA (R141): every entry is checked before any transfer; a refused message moves nothing and its beads are freed. -/
def execReadData (src : Endpoint) (slot : BitVec 16) (count : BitVec 8) (entries : List ReadEntry) (s : State) : Out :=
  .next (
    let s := s.handled 113 src.toNat 0x110
    let k := slot.toNat
    let l := entries.take count.toNat
    let good (e : Slot) (x : ReadEntry) : Bool :=
      decide (x.unit.toNat < e.unitCount) && decide (x.sector.toNat ≤ 7) && decide (x.sector.toNat + (entryRun x) ≤ 8) &&
        s.granted x.bead.toNat 113
    let ok := match s.slot k with
      | some e => 1 ≤ count.toNat && count.toNat ≤ 8 && l.all (good e)
      | none => false
    match s.slot k with
    | some e =>
      if ok then
        -- while a bead error is outstanding the units are those read again (R188, R194)
        let s := if e.beadError then { s with pool := { s.pool with rereads := s.pool.rereads + l.length } } else s
        s.setSlot k { e with
          transfers := e.transfers ++ l.map fun x => ⟨x.unit.toNat, x.bead.toNat, x.sector.toNat, entryRun x⟩ }
      else
        let s := (entries.take (min 8 count.toNat)).foldl
          (fun (t : State) x => if t.granted x.bead.toNat 113 then t.releaseBead x.bead.toNat else t) s
        s.stray 3 src.toNat k 0xFFFF 0xFFFF
    | none =>
      let s := (entries.take (min 8 count.toNat)).foldl
        (fun (t : State) x => if t.granted x.bead.toNat 113 then t.releaseBead x.bead.toNat else t) s
      s.stray 3 src.toNat k 0xFFFF 0xFFFF)

/-- The doubles of a bead that a transfer reads: its sectors, the host metadata and the double of the mark of R453. -/
def State.readDoublesOf (s : State) (e : Slot) (t : Transfer) : List Nat :=
  (List.range (64 * t.sectors)).map (fun i => 64 * t.sector + i) ++
    (if e.admin then [] else (List.range (metaBytes (s.fmtOf e.cmd) / 8)).map (512 + ·) ++ [526])

/-- A bead error halts a transfer: the grant goes back to the dispatch endpoint with a bead-error message, and a completion
that the engine held is discarded (R187, R188). -/
def State.beadErrorAt (s : State) (k : Nat) (e : Slot) (t : Transfer) (d : Nat) : State :=
  let held := e.completion.isSome
  let e := { e with
    transfers := e.transfers.filter fun x => decide (x.bead ≠ t.bead)
    beadError := true
    completion := none }
  let s := (s.giveBead t.bead e.ep).setSlot k e
  s.hwSend 113 e.ep e.mbx 0x104
    (payloadOf [(0, 2, k), (2, 2, t.unit), (4, 2, t.bead), (6, 1, b2n (decide (512 ≤ d)) + 2 * b2n held),
      (8, 8, beadDouble t.bead d)])

/-- A bead's transfer ends well (R141, R143, R452, R453, R456): the data goes to the host, the bead to the pool. -/
def State.transferEnds (s : State) (k : Nat) (e : Slot) (t : Transfer) : State :=
  let n := s.activeNs e.nsid
  let fmt := (n.map (·.format)).getD 0
  let pi := if e.admin then 0 else (n.map (·.pi)).getD 0
  let first := (n.map (·.piFirst)).getD false
  let lba := unitLba fmt (e.firstUnit + t.unit)
  let raw := s.mem.readDoubles (beadAddr t.bead) 512
  let mask := sumOf (fun i => 2 ^ (t.sector + i)) (List.range t.sectors)
  let plain := e.admin || (s.mem.byte (beadMetaAddr t.bead + 119)).getLsbD 0
  let opened := if plain then some raw else s.cipherUnit false (e.nsid - 1) fmt lba mask raw
  let rest := { e with transfers := e.transfers.filter fun x => decide (x.bead ≠ t.bead) }
  match opened with
  | none => (s.setSlot k (rest.failsAt t.unit (stat 0 0x04))).releaseBead t.bead
  | some data =>
    let hmeta := if e.admin then [] else s.mem.readDoubles (beadMetaAddr t.bead) (metaBytes fmt / 8)
    let bad := if pi = 0 then none else piCheck fmt pi first e.cmd (wordBytes data) (wordBytes hmeta) lba t.unit
    -- admin data ends with the transfer length
    let data := if e.admin then data.take ((adminBytes e.cmd - 4096 * t.unit + 7) / 8) else data
    let out := (data.drop (64 * t.sector)).take (64 * t.sectors) ++ (if pi != 0 && piOwn fmt e.cmd then [] else hmeta)
    let s := { s with hqe := { s.hqe with
      hostOut := s.hqe.hostOut ++ [HostEvent.data k t.unit t.bead t.sector t.sectors out] } }
    match bad with
    | none => (s.setSlot k rest).releaseBead t.bead
    | some st =>
      ((s.setSlot k (rest.failsAt t.unit st)).releaseBead t.bead).tell 2 .protection k

/-- READ_TRANSFER_DONE (R141, R143, R187, R188, R591): a bead's transfer ends, at the first double that stands poisoned or is
uncorrectable; a completion that waited for it is posted. -/
def execReadTransferDone (slot : SlotId) (bead : BeadId) (errors : List BeadError) (s : State) : Out :=
  .next (
    let k := slot.toNat
    match s.slot k with
    | none => s
    | some e =>
      match e.transfers.find? fun t => decide (t.bead = bead.toNat) with
      | none => s
      | some t =>
        let l := errors.filter fun x => x.bead.toNat == t.bead
        let ds := s.readDoublesOf e t
        let bad := ds.find? fun d => s.mem.poisoned (beadDouble t.bead d) || l.any fun x => x.fatal && x.double.val == d
        let read := bad.elim ds fun d => ds.takeWhile (· != d) ++ [d]
        let s := s.meetErrors (l.filter fun x => read.contains x.double.val) .engine 113
        match bad with
        | some d => s.beadErrorAt k e t d
        | none => ((s.transferEnds k e t).post k).shutdownStep)

/-! ### Completions (R142, R188) -/

/-- COMPLETION (R142, R165, R188): held for the slot and posted when it may be; a second one, or one for a slot that is not in
flight, is stray; while a bead error is outstanding, one without flag [1] is discarded. -/
def execCompletion (src : Endpoint) (slot : BitVec 16) (status : BitVec 16) (flags : BitVec 8) (dw0 dw1 : BitVec 32)
    (s : State) : Out :=
  .next (
    let s := s.handled 113 src.toNat 0x111
    let k := slot.toNat
    match s.slot k with
    | none => s.stray 1 src.toNat k 0xFFFF 0xFFFF
    | some e =>
      let cured := flags.getLsbD 1
      if e.beadError && !cured then s
      else if e.completion.isSome then s.stray 1 src.toNat k 0xFFFF 0xFFFF
      else if flags.getLsbD 0 then (s.endSlot k).shutdownStep
      else
        let s := s.setSlot k { e with
          completion := some ⟨status.toNat, dw0.toNat, dw1.toNat, cured⟩
          beadError := false }
        (s.post k).shutdownStep)

/-- COMPLETION_POST (R142): the entry is posted once transfers are issued and the CQ has room. -/
def execCompletionPost (slot : SlotId) (s : State) : Out := .next (s.post slot.toNat).shutdownStep

/-! ### The encryption service (R454) -/

/-- Write doubles, leaving the poison of each as it is. -/
def Mem.rewriteDoubles (m : Mem) (k : Nat) : List Word → Mem
  | [] => m
  | w :: t => (m.write k w.toNat 8).rewriteDoubles (k + 8) t

/-- ENCRYPT_REQUEST (R454, R591): masked data units of the bead are encrypted in place, the grant goes back and the sender is
answered: 0 done, 1 key slot empty, 2 invalid. A double that is read with poison is written with it. -/
def execEncryptRequest (src : Endpoint) (req : EncryptReq) (errors : List BeadError) (s : State) : Out :=
  .next (
    let s := s.handled 113 src.toNat 0x113
    let b := req.bead.toNat
    let ns := tget s.ns req.nsIndex.toNat
    let fmt := (ns.map (·.format)).getD 0
    let valid := s.granted b 113 && ns.isSome && decide (req.mbx.toNat ≠ 15) &&
      (fmt == 5 || decide (req.mask.toNat = 0xFF))
    let raw := s.mem.readDoubles (beadAddr b) 512
    let r : State × Nat :=
      if valid then
        match s.cipherUnit true req.nsIndex.toNat fmt req.lba.toNat req.mask.toNat raw with
        | some c =>
          let l := errors.filter fun x => x.bead.toNat == b && decide (x.double.val < 512) &&
            req.mask.toNat.testBit (x.double.val / 64)
          let m := (s.meetErrors l .engine 113).mem.rewriteDoubles (beadAddr b) (fitWords 512 c)
          ((s.meetErrors l .engine 113).withMem { m with
            poison := (l.filter (·.fatal)).foldl (fun p x => sAdd p (beadDouble b x.double)) m.poison }, 0)
        | none => (s, 1)
      else (s, 2)
    let s := if r.1.granted b 113 then r.1.giveBead b (r.1.mailEp src.toNat) else r.1
    s.hwSend 113 src.toNat req.mbx.toNat 0x114 (payloadOf [(0, 2, b), (2, 1, r.2)]))

end Sys2Proof.Machine
end

