-- ==== Sys2Proof/Machine/FwMoves.lean ====
section
/-! DEFINITION. How firmware moves units: reading, relocating, committing staged and direct portions, map pages, snapshots,
wear summaries (R212 to R217, R235 to R237, R248 to R250, R383). -/

namespace Sys2Proof.Machine

open Sys2Proof

/-! ### Helpers -/

/-- Post every completion that may be posted, in slot order, and take a pending shutdown on (R142, R166). -/
def State.postAll (s : State) : State :=
  ((s.hqe.slots.filter fun (e : Nat × Slot) => e.2.completion.isSome).foldl (fun (t : State) e => t.post e.1) s).shutdownStep

/-- Background work runs: not in Boot, ROM Recovery, Quiesce, Idle-Retain, Deep Sleep or Manufacturing (R43). -/
def State.backgroundOn (s : State) : Bool := !([0, 1, 7, 8, 9, 0xB].contains s.mode)

/-- A die operation of firmware may start: PFAIL_N has not stopped programs (R273). -/
def State.programsOn (s : State) : Bool := !s.fw.pfailStop

/-- The core that carries a firmware task (R135; log entry 44). -/
def fwCore (task : Nat) : Nat := Config.recordCore task % 54

/-- Units go to places in turn, as many to each as it takes: the state and the PPAs of those that found one. -/
def State.putUnits (s : State) (use : Nat) : List StripeAt → List UnitIn → State × List Nat
  | [], _ => (s, [])
  | w :: ws, us =>
    if us.isEmpty then (s, [])
    else
      let s := s.readyBand use w
      let n := s.placeRoom use w
      match s.putAt use w (us.take n) with
      | none => (s, [])
      | some (t, ps) =>
        let q := t.putUnits use ws (us.drop ps.length)
        (q.1, ps ++ q.2)

/-- Work that moves units through beads of a class: while the class cannot supply them it waits (R182, R184). -/
def State.inBeads (s : State) (cls n ep : Nat) (f : State → State) : State :=
  if s.decideBeads cls n ≠ .grant then s
  else
    let r := s.takeBeads cls ep n
    r.2.foldl (fun (t : State) b => t.releaseBead b) (f r.1.poolRefresh)

/-- A read of a unit counts in its block's `READS`, up to 65,535 units of 64 (R230, R236); the first after the fresh erase of an
erase-indeterminate block is the one that Assay ignores (R244, R347). -/
def State.countRead (s : State) (ppa : Nat) : State :=
  let b := blockOf ppa
  let r := s.blk b
  let s := s.setBlk b { r with reads := min (r.reads + 1) (65535 * 64 + 63), ignoreRead := false }
  s.withFw { s.fw with readsDay := s.fw.readsDay + 1 }

/-- Distinct pages that met the early-warning condition within the last 24 power-on hours (R237). -/
def State.warnedPages (s : State) (r : BlockRec) : Nat := countIf (fun (e : Nat × Nat) => decide (s.hours ≤ e.2 + 240)) r.ewPages

/-- A page read above the early-warning threshold (R236, R237, R248). -/
def State.earlyWarning (s : State) (ppa : Nat) : State :=
  let b := blockOf ppa
  let r := s.blk b
  let p := rowOf ppa
  let s := s.setBlk b { r with ew := true, ewPages := tput r.ewPages p s.hours }
  s.withFw { s.fw with ewDay := s.fw.ewDay + 1 }

/-! ### Relocation (R216, R236, R383) -/

/-- The valid host units among some PPAs: PPA, namespace index, unit. -/
def State.validUnits (s : State) (ppas : List Nat) : List (Nat × Nat × Nat) :=
  ppas.filterMap fun p => (s.validAt p).map fun x => (p, x.1, x.2.1)

/-- The PPAs programmed in a block. -/
def State.ppasIn (s : State) (b : Nat) : List Nat :=
  (s.fw.flash.filter fun e => blockOf e.1 == b).map (·.1)

def unitFrom (w : List Word) (kind : Nat) : UnitIn := ⟨uData w, uMeta w, uSeq w, uLba w, uNs w, kind⟩

/-- The conditional updates of moved units (R216). -/
def State.moveAll (s : State) : List (Nat × Nat × Nat) → List Nat → State
  | (old, k, u) :: t, p :: ps =>
    let seq := uSeq (tgetD s.fw.flash p [])
    (s.moveUnit k u old seq (mkEntry p false false false false seq)).moveAll t ps
  | _, _ => s

/-- Units are read as relocation reads them: each counts, those that `warned` names met the early-warning condition (R236). -/
def State.readFor (s : State) (l warned : List Nat) : State :=
  l.foldl (fun (t : State) p =>
    let t := t.countRead p
    if warned.contains p then t.earlyWarning p else t) s

/-- The units of some places are read, and the valid host units among them go to new stripes of a use as copies of a kind, in beads
of a class; those beyond the masked set are lost instead (R387). What finds no room stays. -/
def State.relocate (s : State) (use kind cls : Nat) (ws : List StripeAt) (warned ps : List Nat) : State :=
  let l := s.validUnits ps
  s.inBeads cls l.length (fwCore 33) fun s =>
    let s := s.readFor ps warned
    let dead := l.filter fun x => (s.unitAt x.1 0).isNone
    let s := dead.foldl (fun (t : State) x =>
      t.loseUnit x.2.1 x.2.2 (t.lossCause x.1) (((t.spotOf x.1).map (·.number)).getD 0)) s
    let live := l.filter fun x => (s.unitAt x.1 0).isSome
    let r := s.putUnits use ws (live.map fun x => unitFrom ((s.unitAt x.1 0).getD []) kind)
    r.1.moveAll live r.2

/-- Units of a list up to the `n`th valid one, from the first valid one: what a relocation of `n` units reads (R236). -/
def State.upToValid (s : State) (n : Nat) (l : List Nat) : List Nat :=
  let rec go : Nat → List Nat → List Nat
    | _, [] => []
    | k, p :: t => if (s.validAt p).isSome then (if k + 1 = n then [p] else p :: go (k + 1) t) else p :: go k t
  go 0 (l.dropWhile fun p => (s.validAt p).isNone)

/-- No map entry, page table entry, kept snapshot or kept part of the journal refers to a unit of the band (R229). -/
def State.bandEmpty (s : State) (n : Nat) : Bool :=
  match s.band n with
  | none => false
  | some bd => (bd.blocks.flatMap s.ppasIn).all fun p =>
      !s.holdsValid p && !(s.fw.snaps.any fun x => x.complete && tableNames x.pageTab p)

/-- A closed band without a valid unit is released (R229). -/
def State.releaseIfEmpty (s : State) (n : Nat) : State :=
  match s.band n with
  | some bd => if bd.state = 1 ∧ s.bandEmpty n = true then s.releaseBand n else s
  | none => s

/-! ### Folding and reclamation (R216, R235) -/

/-- The oldest staging block with a valid unit, and its band. -/
def State.oldestStaging (s : State) : Option (Nat × Nat) :=
  (s.fw.bands.filter fun e => e.2.use == 0 && e.2.state != 2).findSome? fun e =>
    (e.2.blocks.find? fun b => !(s.validUnits (s.ppasIn b)).isEmpty).map fun b => (e.1, b)

/-- The staging region is more than this many per cent full (R213, R216). -/
def State.stagingAbove (s : State) (percent : Nat) : Bool :=
  decide (percent * (s.stagingShare * s.goodDies.length) < 100 * countIf (fun (e : Nat × BlockRec) => e.2.staged) s.fw.blocks)

/-- Staged units go to a fold place as kind 1 (R216): those of the oldest staging block, as many as the place takes. Above 90 % the
room that they make is what staging admits. -/
def State.foldInto (s : State) (w : StripeAt) (warned : List Nat) : State :=
  let s := s.readyBand 2 w
  match s.oldestStaging with
  | none => s
  | some (n, b) =>
    let ps := s.upToValid (s.placeRoom 2 w) (s.ppasIn b)
    let t := s.relocate 2 1 3 [w] warned ps
    let moved := countIf (fun (x : Nat × Nat × Nat) => (t.validAt x.1).isNone) (s.validUnits ps)
    let t := t.withFw { t.fw with foldRoom := if t.stagingAbove 90 then t.fw.foldRoom + moved else 0 }
    t.releaseIfEmpty n

/-- The age of a closed band in tenths of power-on hours, unpowered time included (R235, R239). -/
def State.bandAge (s : State) (bd : Band) : Nat := s.hours - bd.closedHours + bd.extraHours

/-- Is band `a` a better victim than `b`: score (1 - v)(age + 1) / 2v, infinite where v = 0 (R235). -/
def State.betterVictim (s : State) (a b : Band) : Bool :=
  let num (x : Band) : Nat := (x.capacity - x.valid) * (min (s.bandAge x) 240 + 10)
  if a.valid = 0 then b.valid != 0
  else if b.valid = 0 then false
  else decide (num b * (2 * a.valid) < num a * (2 * b.valid))

/-- The victim of R235 among closed bands of some uses: the oldest refresh-due band, else the best score, lower numbers first; no band of fresh parity.
Without `any` only a refresh-due band is taken (R234). -/
def State.victimBand (s : State) (uses : List Nat) (any : Bool) : Option Nat :=
  let repair (bd : Band) : Bool := s.fw.reparity.any fun e => e.2.any fun p => bd.blocks.contains (blockOf p)
  let l := s.fw.bands.filter fun e => e.2.state == 1 && uses.contains e.2.use && !repair e.2
  let pick (better : Band → Band → Bool) (m : List (Nat × Band)) : Option Nat :=
    (m.foldl (fun (best : Option (Nat × Band)) e =>
      match best with
      | none => some e
      | some f => if better e.2 f.2 then some e else some f) none).map (·.1)
  match l.filter fun e => e.2.refreshDue with
  | [] => if any then pick s.betterVictim l else none
  | due => pick (fun a b => decide (s.bandAge b < s.bandAge a)) due

/-! ### Staged and direct portions (R150, R214, R215, R376) -/

/-- Two units wait for one portion (R149). -/
def Waiting.with (a b : Waiting) : Bool := a.order == b.order && a.segment == b.segment
def Waiting.same (a b : Waiting) : Bool := a.ns == b.ns && a.unit == b.unit
def Waiting.partial? (w : Waiting) : Bool := w.mask % 256 != 255

/-- The unit as it will be programmed: its copy waits in a bead. -/
def State.unitOf (s : State) (w : Waiting) : UnitIn :=
  ⟨s.mem.readDoubles (beadAddr w.bead) 512, s.mem.readDoubles (beadMetaAddr w.bead) 8, w.seq.getD 0, w.unit, w.ns, 0⟩

/-- The stored data of a unit as its entry stands, for a merge: zero sectors are encrypted (R159, R454). None: marked, lost or
unreadable (R161). -/
def State.oldData (s : State) (k u : Nat) : Option (List Word) :=
  match s.entryKey k u with
  | none => none
  | some key =>
    let e := s.entryAt key
    if entPoison e then none
    else if entTrim e then s.cipherUnit true k 5 (8 * u) 0xFF (List.replicate 512 0#64)
    else match s.unitRead (entPpa e) 0 fun w => tagGood w k u e with
      | .good w _ => some (uData w)
      | .lost _ => none

/-- Merge the partial units of a batch, each over the unit's last contents in commit order (R159, R160). -/
def State.mergeBatch (s : State) (before : List Waiting) : List Waiting → State
  | [] => s
  | w :: t =>
    if !w.partial? then s.mergeBatch (before ++ [w]) t
    else
      let old := match findLast (fun (x : Waiting) => x.same w) before with
        | some x => some (s.mem.readDoubles (beadAddr x.bead) 512)
        | none => s.oldData w.ns w.unit
      let new := s.mem.readDoubles (beadAddr w.bead) 512
      let m := match old with
        | some o => s.mem.writeDoubles (beadAddr w.bead) (fitWords 512 (mergeSectors w.mask o new))
        | none => s.mem
      State.mergeBatch { s with mem := m } (before ++ [w]) t

/-- A partial unit of the queue that cannot be read, and that no earlier unit on its way replaces (R160, R161). -/
def State.unmergeable (s : State) (w : Waiting) : Bool :=
  let before := s.fw.placed.map (·.1) ++ s.fw.staging.takeWhile (· != w)
  w.partial? && (s.oldData w.ns w.unit).isNone && !(before.any fun x => x.same w)

/-- A range keeps nothing of a segment, which lies at one of its ends (R161). -/
def RangeOp.without (r : RangeOp) (segment : Nat) : RangeOp :=
  let stop := r.first + r.count
  if r.first / 64 = segment then { r with first := min stop (64 * segment + 64), count := stop - min stop (64 * segment + 64) }
  else { r with count := 64 * segment - r.first }

/-- A portion is dropped before it is issued: its beads are freed and its command ends with Write Fault (R161; log entry 66). -/
def State.dropPortion (s : State) (w : Waiting) : State :=
  let gone := s.fw.staging.filter fun x => x.with w
  let s := gone.foldl (fun (t : State) x => t.releaseBead x.bead) s
  let s := s.withFw { s.fw with
    staging := s.fw.staging.filter fun x => !x.with w
    ranges := (s.fw.ranges.map fun r => if r.order = w.order && w.ranged then r.without w.segment else r).filter fun r => r.count != 0 }
  (s.orderFails w.order (mkStatus 2 0x80 true)).slotDone w.order

/-- Portions about to be issued that hold an unmergeable partial unit are dropped. -/
def State.dropUnmergeable (s : State) (l : List Waiting) : State :=
  l.foldl (fun (t : State) w =>
    if w.seq.isNone && (t.fw.staging.any fun x => x.with w && t.unmergeable x) then t.dropPortion w else t) s

/-- A portion about to be issued takes its sequence numbers, in the order in which portions commit (R204, R257). -/
def State.numberPortion (s : State) (w : Waiting) : State :=
  let r := s.takeSeqs w.count
  r.1.withFw { r.1.fw with staging := r.1.fw.staging.map fun x => if x.with w then { x with seq := some (r.2.getD x.index 0) } else x }
def State.numberBatch (s : State) (l : List Waiting) : State :=
  l.foldl (fun (t : State) w => if t.fw.staging.any fun x => x.with w && x.seq.isNone then t.numberPortion w else t) s

/-- A unit waits while a range that holds it is being flushed, so that numbers, records and commit points keep one order (R204,
R217). -/
def State.unitHeld (s : State) (w : Waiting) : Bool :=
  (s.fw.ranges.any fun r => r.seq.isSome && r.ns == w.ns && r.first ≤ w.unit && w.unit < r.first + r.count) ||
    s.fw.placed.any fun x => x.1.ranged && x.1.same w

/-- The commit point of units at their places: the entries change together, the records go to the journal, the beads are
freed and finished commands complete (R150, R215, R217). -/
def State.commitAll (s : State) (use : Nat) (l : List (Waiting × Nat)) : State :=
  let s := l.foldl (fun (t : State) (x : Waiting × Nat) =>
    let q := x.1.seq.getD 0
    t.updateUnit x.1.ns x.1.unit q (mkEntry x.2 false false (use == 0) (use == 1) q)) s
  let s := l.foldl (fun (t : State) x => t.releaseBead x.1.bead) s
  l.foldl (fun (t : State) x => t.slotDone x.1.order) s

/-- Portions of which every unit is programmed commit; those that go with a range wait for its record, for which an early flush is
asked (R150, R151, R159). -/
def State.commitReady (s : State) : State :=
  let ready (x : Waiting × Nat) : Bool := !x.1.ranged && !(s.fw.staging.any fun y => y.with x.1)
  let l := s.fw.placed.filter ready
  let t := s.withFw { s.fw with placed := s.fw.placed.filter fun x => !ready x }
  let t := t.commitAll 0 l
  if t.fw.placed.any fun x => x.1.ranged then t.flushStart false false else t

/-- Units that staging admits now: above 90 % only as many as folding has freed (R216). -/
def State.stagingAdmits (s : State) : Nat := if s.stagingAbove 90 then s.fw.foldRoom else 2 ^ 16

/-- The next units for a staging stripe: as many as it holds, up to one that has to wait. -/
def State.nextStaged (s : State) (w : StripeAt) : List Waiting :=
  (s.fw.staging.take (min (s.placeRoom 0 w) s.stagingAdmits)).takeWhile fun x => !s.unitHeld x

/-- Issue a staging stripe of as many waiting units as it holds (R376): their portions take numbers, partial units are merged, and
portions that are now whole commit (R150, R159, R215). -/
def State.issueStaging (s : State) (w : StripeAt) : State :=
  let s := s.readyBand 0 w
  if !s.placeFree 0 w then s
  else
    let s := s.dropUnmergeable (s.nextStaged w)
    let s := s.numberBatch (s.nextStaged w)
    let l := s.nextStaged w
    if l.isEmpty then s
    else
      let s := s.mergeBatch (s.fw.placed.map (·.1)) l
      match s.putAt 0 w (l.map s.unitOf) with
      | none => s
      | some (t, ps) =>
        State.commitReady (t.withFw { t.fw with
          staging := t.fw.staging.drop ps.length, placed := t.fw.placed ++ l.zip ps, foldRoom := t.fw.foldRoom - ps.length })

/-! ### Direct portions (R214, R376) -/

/-- What goes into a slot of a direct wordline: a unit of a portion, or a staged unit that folding moves there. -/
inductive DirectItem where
  | host (w : Waiting)
  | fold (old k u : Nat)
  deriving DecidableEq, Repr

def State.itemUnit (s : State) : DirectItem → UnitIn
  | .host w => s.unitOf w
  | .fold old _ _ => unitFrom ((s.unitAt old 0).getD []) 1

/-- The stripes of a row that a direct portion fills (R214). -/
def directStripes (k : Nat) : Nat := if k = 16 then 1 else ceilDiv 64 (4 * k - 1)
def directRoom (k : Nat) : Nat := if k = 16 then 64 else 4 * k - 1

/-- The rows of stripe `i` of a group: each of up to three portions in one row, the remaining rows with fold units (R214). -/
def groupRows (k row : Nat) (ps : List (List DirectItem)) (fill : List DirectItem) (i : Nat) :
    List (Nat × Bool × List DirectItem) :=
  let m := directStripes k
  (List.range 3).map fun r =>
    match ps[r]? with
    | some p => (row / 3 * 3 + r, k == 16, (p.drop (directRoom k * i)).take (directRoom k))
    | none => (row / 3 * 3 + r, false, (fill.drop ((4 * k - 1) * ((r - ps.length) * m + i))).take (4 * k - 1))

/-- The stripes of a group are programmed, one place for each stripe of a row, all on one wordline. -/
def State.putGroup (s : State) (ps : List (List DirectItem)) (fill : List DirectItem) (first : StripeAt) :
    Nat → List StripeAt → Option (State × List (DirectItem × Nat))
  | _, [] => some (s, [])
  | i, w :: ws =>
    let k := ((s.band w.band.toNat).map (·.k)).getD 16
    let rows := groupRows k w.row.toNat ps fill i
    if w.band ≠ first.band ∨ w.row.toNat / 3 ≠ first.row.toNat / 3 then none
    else match s.putRows 1 w.band.toNat w.j.toNat (rows.map fun r => (r.1, r.2.1, r.2.2.map s.itemUnit)) with
      | none => none
      | some (t, l) => (t.putGroup ps fill first (i + 1) ws).map fun q => (q.1, (rows.flatMap (·.2.2)).zip l ++ q.2)

/-- A direct portion may be issued: no unit of it is on its way in staging or in a range (R204). -/
def State.directReady (s : State) (l : List Waiting) : Bool :=
  l.all fun w => !s.unitHeld w && !(s.fw.placed.any fun x => x.1.same w) && !(s.fw.staging.any fun x => x.seq.isSome && x.same w)

/-- The places of one group at the head of a list: as many as a portion fills stripes of a row. -/
def State.groupPlaces (s : State) (ws : List StripeAt) : List StripeAt :=
  match ws with
  | [] => []
  | w :: _ => ws.take (directStripes (((s.band w.band.toNat).map (·.k)).getD 16))

/-- Issue a group of up to three direct portions on one wordline, its remaining rows filled with fold units (R214, R376). -/
def State.issueDirect (s : State) (ws : List StripeAt) : State :=
  match ws with
  | [] => s
  | w :: _ =>
    let s := s.readyBand 1 w
    let group := (s.fw.direct.filter s.directReady).take 3
    let k := ((s.band w.band.toNat).map (·.k)).getD 16
    let room := (3 - group.length) * directStripes k * (4 * k - 1)
    let source := s.oldestStaging
    let old := match source with
      | some (_, b) => (s.validUnits (s.ppasIn b)).take room
      | none => []
    let old := if room = 0 ∨ s.decideBeads 3 old.length ≠ .grant then [] else old.filter fun x => (s.unitAt x.1 0).isSome
    let places := s.groupPlaces ws
    if group.isEmpty || places.length != directStripes k || s.placeRoom 1 w = 0 then s
    else
      let t := s.withFw { s.fw with direct := s.fw.direct.filter fun l => !group.contains l }
      let q := group.foldl (fun (q : State × List (List Waiting)) l =>
        let r := q.1.takeSeqs l.length
        (r.1, q.2 ++ [l.mapIdx fun i x => { x with seq := some (r.2.getD i 0) }])) (t, [])
      match q.1.putGroup (q.2.map fun l => l.map .host) (old.map fun x => .fold x.1 x.2.1 x.2.2) w 0 places with
      | none => s
      | some (t, l) =>
        match places.findSome? fun w => (s.failsAt w).map fun b => (w, b) with
        | some (w, b) => (t.withFw { t.fw with direct := s.fw.direct }).memberFailed 1 w b
        | none =>
        let hosts := l.filterMap fun x => match x.1 with | .host w => some (w, x.2) | .fold _ _ _ => none
        let moved := l.filterMap fun x => match x.1 with | .host _ => none | .fold o k u => some ((o, k, u), x.2)
        let t := (t.commitAll 1 hosts).moveAll (moved.map (·.1)) (moved.map (·.2))
        match source with
        | some (n, _) => if moved.isEmpty then t else t.releaseIfEmpty n
        | none => t

/-- Whole groups of three are issued at once, each at its places (R214). -/
def State.issueGroups (s : State) : Nat → List StripeAt → State
  | 0, _ => s
  | fuel + 1, ws =>
    if (s.fw.direct.filter s.directReady).length < 3 then s
    else (s.issueDirect ws).issueGroups fuel (ws.drop (s.groupPlaces ws).length)

/-! ### Map pages (R206, R212, R268) -/

/-- The dirty map pages. -/
def State.dirtyPages (s : State) : List Nat :=
  let l := (s.fw.entries.map fun e => e.1 / 1024) ++ s.fw.dealloc.map (·.1) ++ s.fw.pageTab.map (·.1)
  ((l.foldl (fun (t : Tab Unit) p => sAdd t p) []).map (·.1)).filter s.pageDirty

/-- A frame of a page that is resident and at rest is written afresh where it stands poisoned, or where asked (R212, R268). -/
def State.fillFrame (s : State) (mpn : Nat) : State :=
  match s.findPage mpn with
  | none => s
  | some f => if (s.frame f).busy then s else s.putFrame mpn true

/-- A page is written back by R212's choice: a miss named it, it has been dirty for 30 s, it is the oldest dirtied while more than a
quarter of all frames is dirty; or a snapshot waits for it (R263), or its band is reclaimed or rebuilt (R235, R383). -/
def State.writebackDue (s : State) (mpn : Nat) : Bool :=
  let since := tgetD s.fw.dirtySince mpn s.now
  let frames := 8 * 2 ^ s.fld fMAP_CFG_SETBITS
  s.fw.missNamed.contains mpn || decide (since + 30000000000 ≤ s.now) ||
    (decide (frames < 4 * s.fld fMAP_OCC_DIRTY) && s.fw.dirtySince.all fun e => decide (since ≤ e.2)) ||
    s.fw.snaps.any fun x => !x.complete && x.dirty.contains mpn

/-- Steps 2 and 3 of R212: the two units are placed as kind 3 in beads of class 6, the record and the page table entry follow. None
where no place is found, false where a member program fails there. -/
def State.writePage (s : State) (mpn : Nat) (w : StripeAt) : Option (State × Bool) :=
  let s := s.readyBand 4 w
  if s.decideBeads 6 2 ≠ .grant then none
  else
    let b := s.takeBeads 6 (fwCore 34) 2
    let img := s.pageImage mpn
    let r := b.1.poolRefresh.takeSeqs 1
    let seq := r.2.headD 0
    let u (half : Nat) : UnitIn := ⟨(img.drop (512 * half)).take 512, [], seq, mpn * 2 + half, 0, 3⟩
    match r.1.putAt 4 w [u 0, u 1] with
    | none => none
    | some (t, []) => some (b.2.foldl (fun (t : State) x => t.releaseBead x) t, false)
    | some (t, p :: _) =>
      let e := p + seq % 65536 * 2 ^ 48
      let old := tget t.fw.pageTab mpn
      let t := b.2.foldl (fun (t : State) x => t.releaseBead x) t
      let t := t.journal (.mapPage mpn seq e)
      let t := ((match old with | some o => (t.stale (o % 2 ^ 40)).stale (o % 2 ^ 40) | none => t).fresh p).fresh p
      let t := t.withFw { t.fw with
        pageTab := tput t.fw.pageTab mpn e, dirtySince := tdel t.fw.dirtySince mpn, missNamed := t.fw.missNamed.filter (· ≠ mpn)
        snaps := t.fw.snaps.map fun x => { x with dirty := x.dirty.filter (· != mpn) } }
      some (match old with
        | some o => match t.bandOf (blockOf (o % 2 ^ 40)) with
          | some (n, _) => t.releaseIfEmpty n
          | none => t
        | none => t, true)

/-- A map page goes to flash: `SNAP`, copy, `COPIED`, program, record, table entry, `WRITTEN`; a frame that stands poisoned is
rebuilt first (R210, R212). A resident page that `SNAP` refuses is not written; after a program that failed the page stays dirty. -/
def State.writeBack (s : State) (mpn : Nat) (w : StripeAt) : State :=
  match s.findPage mpn with
  | none => ((s.writePage mpn w).map (·.1)).getD s
  | some f =>
    let s := if (s.mem.firstPoison (s.frameAddr f) 1024).isSome then s.fillFrame mpn else s
    let t := s.mapSnap mpn
    if t.fld fMAP_RESP_STATUS ≠ 0 then t
    else match t.mapCopied mpn |>.writePage mpn w with
      | some (u, true) => u.mapWritten mpn
      | some (u, false) => (u.putFrame mpn true).mapWritten mpn
      | none => s

/-- The map pages whose first unit is among some PPAs. -/
def State.pagesAmong (s : State) (ps : List Nat) : List Nat :=
  (s.fw.pageTab.filter fun e => e.2 / 2 ^ 40 % 2 == 0 && ps.contains (e.2 % 2 ^ 40)).map (·.1)

/-- Map pages leave their places, one to each place given: a dirty one by its write-back, a clean one as it is (R235, R383). -/
def State.movePages (s : State) : List StripeAt → List Nat → State
  | w :: ws, p :: ps =>
    (if s.pageDirty p then s.writeBack p w else ((s.writePage p w).map (·.1)).getD s).movePages ws ps
  | _, _ => s

/-! ### Rebuilding a map page (R200, R212, R388) -/

/-- The records on hand in journal order: durable, in the flush in progress, and waiting. -/
def State.allRecords (s : State) : List JRec :=
  s.fw.journal ++ ((s.fw.jFlush.map (·.1)).getD []) ++ s.fw.jWait

/-- A record applied to the entries of one page, by index (R221, R268). -/
def State.pageRec (s : State) (mpn : Nat) (t : Tab Nat) (r : JRec) : Tab Nat :=
  match r with
  | .unit k cond old _ u e =>
    if (s.entryKey k u).map (· / 1024) = some mpn then
      let i := u % 1024
      let now := tgetD t i entNever
      if cond && !(entWritten now && entPpa now == old) then t else tput t i e
    else t
  | .range k _ count _ first e =>
    match tget s.ns k with
    | none => t
    | some n =>
      if mpn < n.base then t
      else
        let lo := max first (1024 * (mpn - n.base))
        let hi := min (first + count) (1024 * (mpn - n.base) + 1024)
        (List.range (hi - lo)).foldl (fun t j => tput t ((lo + j) % 1024) e) t
  | _ => t

/-- A page rebuilt: from flash and every record on hand; where its units are lost, from the records alone, if they reach back to its
last write, and every unit that no record names is lost with it; else every unit is (R212, R387, R388; log entry 162). -/
def State.rebuildPage (s : State) (mpn : Nat) : State :=
  let good := (tget s.fw.pageTab mpn).elim true fun e =>
    [0, 1].all fun i => match s.unitRead (e % 2 ^ 40 + i) 0 fun w => uKind w == 3 && uLba w == mpn * 2 + i && tagCrcGood (unitBytes w) with
      | .good _ _ => true
      | .lost _ => false
  let recs := s.allRecords
  let base : Tab Nat := if good then (s.pageInFlash mpn).mapIdx fun i w => (i, w.toNat) else []
  let reach := recs.any fun r => match r with | .mapPage m _ e => m == mpn && tget s.fw.pageTab mpn == some e | _ => false
  let t := if good || reach then recs.foldl (s.pageRec mpn) base else []
  let s := s.withFw { s.fw with
    dealloc := tdel s.fw.dealloc mpn
    entries := (s.fw.entries.filter fun e => e.1 / 1024 != mpn) |> fun l => t.foldl (fun l e => tput l (mpn * 1024 + e.1) e.2) l }
  let s := if good then s
    else
      match s.ns.find? fun n => n.2.base ≤ mpn && mpn < n.2.base + ceilDiv n.2.units 1024 with
      | none => s
      | some (k, n) =>
        let lost := (List.range 1024).filter fun i => (tget t i).isNone && (mpn - n.base) * 1024 + i < n.units
        (lost.foldl (fun (t : State) i => t.loseUnit k ((mpn - n.base) * 1024 + i) 3 0) s).tell 5 .mapLost mpn
  s.fillFrame mpn

/-! ### Wear (R248 to R250) -/

def State.alarmedGroups (s : State) : Nat := countIf (fun (e : Nat × AsyEntry) => e.2.alarm) s.assay.entries

/-- Retirements in the 30 days before now, and in the 90 days before those (R248). -/
def State.retiredWithin (s : State) (lo hi : Nat) : Nat :=
  countIf (fun h => decide (s.hours < h + hi) && decide (h + lo ≤ s.hours)) s.fw.retiredAt

/-- The highest stage whose condition holds (R248). Assay keeps 1,024 block groups a channel (R340). -/
def State.stageNow (s : State) : Nat :=
  let a := s.retiredWithin 0 7200
  let b := s.retiredWithin 7200 28800
  if decide (s.rawBlocks < 2000 * a) && decide (2 * b < 3 * a) then 4
  else if decide (2 * s.fw.readsDay < 100 * s.fw.softDay) then 3
  else if s.part.channels * 1024 ≤ 100 * s.alarmedGroups then 2
  else if decide (100 * s.fw.readsDay < 1000000 * s.fw.ewDay) then 1
  else 0

/-- `WEAR` of the good blocks that the table lists. -/
def State.goodWears (s : State) : List Nat :=
  (s.fw.blocks.filter fun e => e.2.state != 6 && e.2.state != 7 && !s.dieLost (dieOfBlock e.1)).map (·.2.wear)

/-- The body of the wear summary (R250). -/
def State.wearBody (s : State) : BitVec 256 :=
  let l := s.goodWears
  let low := if l.length < s.goodBlocks then 0 else l.foldl min (2 ^ 32 - 1)
  let rate (n scale : Nat) : Nat := if s.fw.readsDay = 0 then 0 else min 65535 (n * scale / s.fw.readsDay)
  bodyOf [(0, 1, s.fw.wearStage), (1, 1, s.percentageUsed), (2, 1, s.availableSpare), (4, 4, s.reserve.toNat),
    (8, 4, s.fw.retiredEver), (12, 4, low), (16, 4, l.foldl max 0), (20, 4, s.meanWear),
    (24, 2, rate s.fw.ewDay 1000000), (26, 2, rate s.fw.softDay 10000), (28, 4, s.fw.indetEver)]

/-- The wear summary record (R250). -/
def State.wearSummary (s : State) : State := s.logFw 1 (fwCore 30) 0x0101 s.wearBody

end Sys2Proof.Machine
end

