-- ==== Sys2Proof/Machine/SvcOps.lean ====
section
/-! DEFINITION. Signet's service requests and replies, the lock state that it publishes, and the end of an Opal session (R449,
R458, R461). -/

namespace Sys2Proof.Machine

open Sys2Proof

def State.withSig (s : State) (g : Sig) : State := { s with sig := g }

/-! ### Service requests (R449) -/

/-- The reply to a service request; statuses 1, 2 and 4 count as refused (R480). -/
def State.svcReply (s : State) (dst service status tag : Nat) (rest : List (Nat × Nat × Nat)) : State :=
  let s := if status = 1 ∨ status = 2 ∨ status = 4 then s.incSat fSIG_SVC_REFUSED else s
  s.hwSend 112 dst 15 0x003 (payloadOf ([(0, 1, service), (1, 1, status), (4, 4, tag)] ++ rest))

/-- The oldest request of a source, if it asks for this service: counted and taken from the mailbox. -/
def State.svcTake (s : State) (src service : Nat) : Option (State × BitVec 512) :=
  match takeFirst (fun (m : Msg) => decide (m.src = src) && decide (m.sub = 0x1A0)) (s.box 112 0) with
  | some (m, rest) =>
    if pGet m.payload 0 1 = service then some ((s.setBox 112 0 rest).incWrap fSIG_SVC_CALLS, m.payload) else none
  | none => none

/-- What a service answers: its status and its result entries. -/
abbrev SvcOut := State × Nat × List (Nat × Nat × Nat)

/-- Serve the oldest request of a source: status 4 in the error state (R470). -/
def State.serve (s : State) (src service : Nat) (f : State → BitVec 512 → SvcOut) : State :=
  match s.svcTake src service with
  | none => s
  | some (t, p) =>
    if t.flag fSIG_STAT_ERR then t.svcReply src service 4 (pGet p 4 4) []
    else
      let r := f t p
      r.1.svcReply src service r.2.1 (pGet p 4 4) r.2.2

/-- The newest request at Signet is answered at once when 64 wait already (status 3), or when it names no service (status
2). -/
def State.sigTurnAway (s : State) : State :=
  let l := s.box 112 0
  match l.getLast? with
  | none => s
  | some m =>
    let service := pGet m.payload 0 1
    if m.sub ≠ 0x1A0 then s
    else if 64 < l.length then
      ((s.setBox 112 0 l.dropLast).incWrap fSIG_SVC_CALLS).svcReply m.src service 3 (pGet m.payload 4 4) []
    else if service = 0 ∨ 9 < service then
      ((s.setBox 112 0 l.dropLast).incWrap fSIG_SVC_CALLS).svcReply m.src service 2 (pGet m.payload 4 4) []
    else s

/-! ### Lock state (R461) -/

def State.readLocked (s : State) (r : Nat) : Bool := bit (s.reg (rSIG_RLOCK (r / 64))) (r % 64)
def State.writeLocked (s : State) (r : Nat) : Bool := bit (s.reg (rSIG_WLOCK (r / 64))) (r % 64)

/-- A change of a range's lock state: published, counted, and noticed. -/
def State.setLock (s : State) (r : Nat) (rl wl : Bool) : State :=
  if s.readLocked r = rl ∧ s.writeLocked r = wl then s
  else
    let s := s.setReg (rSIG_RLOCK (r / 64)) (setBits (s.reg (rSIG_RLOCK (r / 64))) (r % 64) 1 (b2n rl))
    let s := s.setReg (rSIG_WLOCK (r / 64)) (setBits (s.reg (rSIG_WLOCK (r / 64))) (r % 64) 1 (b2n wl))
    let s := s.incWrap fSIG_GEN_LOCKGEN
    if s.flag fSIG_NOTE_EN then
      s.hwSend 112 (s.fld fSIG_NOTE_DST) (s.fld fSIG_NOTE_MBX) 0x1A1 (payloadOf [(0, 2, r), (2, 1, b2n rl + 2 * b2n wl)])
    else s

/-- Every range's lock state becomes that of two lists of words. -/
def State.setLocks (s : State) (rl wl : List Nat) : State :=
  (List.range 320).foldl (fun (t : State) r =>
    t.setLock r (rl.getD (r / 64) 0 / 2 ^ (r % 64) % 2 == 1) (wl.getD (r / 64) 0 / 2 ^ (r % 64) % 2 == 1)) s

def State.readLocks (s : State) : List Nat := (List.range 5).map fun i => (s.reg (rSIG_RLOCK i)).toNat
def State.writeLocks (s : State) : List Nat := (List.range 5).map fun i => (s.reg (rSIG_WLOCK i)).toNat

/-! ### The end of an Opal session (R458) -/

/-- An open transaction is discarded. -/
def State.opalDiscard (s : State) : State :=
  match s.sig.opal with
  | none => s
  | some o =>
    if !o.inTx then s
    else
      let s := s.withSig { s.sig with
        ranges := o.savedRanges, auths := o.savedAuth, dataStore := o.savedData,
        opal := some { o with inTx := false, erasing := [] } }
      s.setLocks o.savedRl o.savedWl

/-- The session closes, its uncommitted transaction discarded. -/
def State.opalClose (s : State) : State :=
  let s := s.opalDiscard
  (s.withSig { s.sig with opal := none }).setFld fSIG_SESS_OPAL 0

/-- What a controller reset ends beside the slots: the Opal session, and a pending Scheduled Activation (R458, R509). -/
def State.hostGone (s : State) : State :=
  let s := s.opalClose
  { s with boot := { s.boot with sched := none } }

end Sys2Proof.Machine
end

