-- ==== Sys2Proof/Machine/Control.lean ====
section
/-! DEFINITION. Writes to control space, the mode, the speed monitor, the Chain's deliveries, the clasps and the MAP assist
(R10, R22, R29, R31, R37, R42, R96, R101, R102, R107 to R120, R210). -/

namespace Sys2Proof.Machine

open Sys2Proof

/-! ### Writes (R31) -/

/-- A write by `who`, after which cores that wait may go on. -/
def State.writeBy (s : State) (who off : Nat) (v : Word) : State := (s.ctlStore who off v).settle

/-- FCT_MBX_WRITE (R101, R102): mailbox depths of a core; refused where they break the limits. -/
def execFctMbxWrite (who : Endpoint) (core : CoreId) (value : Word) (s : State) : Out :=
  .next (s.writeBy who.toNat (rFCT_MBX core) value)

/-- FCT_HKEY_WRITE (R96, R101): the high word makes the key slot take effect. -/
def execFctHkeyWrite (who : Endpoint) (slot : KeySlot) (high : Bool) (value : Word) (s : State) : Out :=
  .next (s.writeBy who.toNat (rFCT_HKEY (2 * slot + b2n high)) value)

/-- REGISTER_WRITE (R10, R31): a write at any offset of control space; a refused one changes nothing but a count. -/
def execRegisterWrite (who : Endpoint) (off : BitVec 23) (value : Word) (s : State) : Out :=
  .next (s.writeBy who.toNat off.toNat value)

/-! ### The mode (R33, R39 to R42) -/

/-- MODE_REQUEST (R42): a write of `ARC_MODE` with `GO` and the request. -/
def execModeRequest (who : Endpoint) (req : BitVec 4) (s : State) : Out :=
  .next (s.writeBy who.toNat rARC_MODE (BitVec.ofNat 64 (req.toNat * 2 ^ 24 + 2 ^ 28)))

/-- PACE_UPDATE (R29, R37): the measured rate; without the crystal it is not valid. -/
def execPaceUpdate (rate : BitVec 16) (crystal : Bool) (s : State) : Out :=
  .next (if crystal && s.pwr.crystal then (s.setFld fARC_PACE_RATE rate.toNat).setFld fARC_PACE_VALID 1
    else s.setFld fARC_PACE_VALID 0)

/-! ### The Chain (R22, R23) -/

/-- What a hardware endpoint makes at once of a message it does not understand (R292, R373, R449; R548 with R550 by its own
command). -/
def State.turnAway (s : State) (dst : Nat) : State :=
  if 64 ≤ dst ∧ dst < 98 then s.psqTurnAway (dst - 64)
  else if dst = 115 then s.parTurnAway
  else if dst = 112 then s.sigTurnAway
  else s

/-- CHAIN_DELIVERY (R22, R23, R84, R441, R590): the oldest message of the pair reaches its destination, unless its mailbox is
full or an injector acts on it; cores that wait for it go on. -/
def execChainDelivery (src dst : Endpoint) (s : State) : Out :=
  .next (((s.deliver src.toNat dst.toNat).turnAway dst.toNat).settle)

/-! ### Clasps (R107 to R120) -/

/-- CLASP_BREAK (R109, R115, R117, R120). -/
def execClaspBreak (c : ClaspId) (cause : BreakCause) (lost : Nat) (s : State) : Out := .next (s.claspBreak c cause lost)

/-- `CLP_CTL` as it stands, `AUTO` and `HOLD`, with one more bit set (R120). -/
def State.claspCtl (s : State) (c b : Nat) : Word := setBits (s.reg (rCLP_CTL c) &&& 9#64) b 1 1

/-- CLP_CLOSE (R116): a write of `CLOSE`. -/
def execClpClose (who : Endpoint) (c : ClaspId) (s : State) : Out :=
  .next (s.writeBy who.toNat (rCLP_CTL c) (s.claspCtl c 1))

/-- CLP_OPEN (R114): a write of `OPEN`. -/
def execClpOpen (who : Endpoint) (c : ClaspId) (s : State) : Out :=
  .next (s.writeBy who.toNat (rCLP_CTL c) (s.claspCtl c 2))

/-- ISLAND_LEAVES_RESET (R116, R537, R539): an island that a sleep powered down has its supply again; while the device sleeps, or
after a wake without the crystal, it stays down. -/
def execIslandLeavesReset (c : ClaspId) (s : State) : Out :=
  .next (
    if !sHas s.pwr.off c then s.islandLeaves c
    else if s.fld fPWR_STAT_STATE ≠ 0 ∨ s.flag fPWR_STAT_XTALFB = true then s
    else State.islandLeaves { s with pwr := { s.pwr with off := sDel s.pwr.off c } } c)

/-- CLOSE_HANDSHAKE_DONE (R116, R305). -/
def execCloseHandshakeDone (c : ClaspId) (agree : Bool) (s : State) : Out := .next (s.claspCloses c agree)

/-- EVENT_LANE_TOGGLE (R107, R108). -/
def execEventLaneToggle (c : ClaspId) (lane : BitVec 5) (ackEnded : Bool) (s : State) : Out :=
  .next (s.eventPulse c lane.toNat ackEnded)

/-! ### The MAP assist (R210) -/

/-- A write of `MAP_CMD`. -/
def State.mapWrite (s : State) (who op mpn : Nat) : State :=
  s.writeBy who rMAP_CMD (BitVec.ofNat 64 (mpn + op * 2 ^ 32))

/-- MAP_FILLED (R210): loading to clean. -/
def execMapFilled (who : Endpoint) (mpn : BitVec 32) (s : State) : Out := .next (s.mapWrite who.toNat 1 mpn.toNat)
/-- MAP_BUILT (R210): loading to dirty. -/
def execMapBuilt (who : Endpoint) (mpn : BitVec 32) (s : State) : Out := .next (s.mapWrite who.toNat 2 mpn.toNat)
/-- MAP_ABANDON (R210): loading to empty. -/
def execMapAbandon (who : Endpoint) (mpn : BitVec 32) (s : State) : Out := .next (s.mapWrite who.toNat 3 mpn.toNat)
/-- MAP_SNAP (R210): dirty and unpinned to snapshot. -/
def execMapSnap (who : Endpoint) (mpn : BitVec 32) (s : State) : Out := .next (s.mapWrite who.toNat 4 mpn.toNat)
/-- MAP_COPIED (R210): snapshot to clean with `WB`. -/
def execMapCopied (who : Endpoint) (mpn : BitVec 32) (s : State) : Out := .next (s.mapWrite who.toNat 5 mpn.toNat)
/-- MAP_WRITTEN (R210): `WB` clears. -/
def execMapWritten (who : Endpoint) (mpn : BitVec 32) (s : State) : Out := .next (s.mapWrite who.toNat 6 mpn.toNat)
/-- MAP_EVICT (R210): clean and unpinned to empty. -/
def execMapEvict (who : Endpoint) (mpn : BitVec 32) (s : State) : Out := .next (s.mapWrite who.toNat 7 mpn.toNat)
/-- MAP_PREFETCH (R210): an absent page loads in a victim way, with a miss message. -/
def execMapPrefetch (who : Endpoint) (mpn : BitVec 32) (s : State) : Out := .next (s.mapWrite who.toNat 8 mpn.toNat)
/-- MAP_REINIT (R210): every way of the set becomes empty. -/
def execMapReinit (who : Endpoint) (mpn : BitVec 32) (s : State) : Out := .next (s.mapWrite who.toNat 9 mpn.toNat)

end Sys2Proof.Machine
end

