-- ==== Sys2Proof/Machine/Monitors.lean ====
section
/-! DEFINITION. The bead pool manager's commands, the scrubber, the stall monitor and injectors, and the event recorder
(R178, R179, R185, R189, R415, R418 to R421, R428 to R441, R548 to R561). -/

namespace Sys2Proof.Machine

open Sys2Proof

/-! ### The bead pool (R178, R179, R185, R189) -/

/-- BPM_ENABLE (R178): a write that sets `EN`. -/
def execBpmEnable (who : Endpoint) (s : State) : Out :=
  .next (s.writeBy who.toNat rBPM_CTL (setBits (s.reg rBPM_CTL) 0 1 1))

/-- FREELIST_READY (R179). -/
def execFreelistReady (s : State) : Out := .next s.freelistReady

/-- BPM_RETIRE_WRITE (R189). -/
def execBpmRetireWrite (who : Endpoint) (bead : BeadId) (s : State) : Out :=
  .next (s.writeBy who.toNat rBPM_RETIRE (BitVec.ofNat 64 bead.toNat))

/-- Copy one double of a bead, with its poison (R185). -/
def State.copyDouble (s : State) (a b d : Nat) : State :=
  let src := beadDouble a d
  s.withMem (s.mem.writeDouble (beadDouble b d) (s.mem.read src 8) (s.mem.poisoned src))

/-- BEAD_COPY (R185, R187, R591): data and metadata are copied, with the poison of errors that the code finds now; the sender
is answered. -/
def execBeadCopy (src : Endpoint) (fromBead toBead : BeadId) (mbx : BitVec 4) (errors : List BeadError) (s : State) : Out :=
  .next (
    let s := s.handled 114 src.toNat 0x120
    let own := s.mailEp src.toNat
    let a := fromBead.toNat
    let b := toBead.toNat
    let r : State × Nat :=
      if s.granted a own && s.granted b own then
        let l := errors.filter fun x => x.bead.toNat == a
        let bad := fatalIn l a || (List.range 528).any fun d => s.mem.poisoned (beadDouble a d)
        let s := (List.range 528).foldl (fun (t : State) d => t.copyDouble a b d) (s.meetErrors l .beadCopy 114)
        (s.withMem { s.mem with poison := (l.filter (·.fatal)).foldl (fun p x => sAdd p (beadDouble b x.double)) s.mem.poison },
          if bad then 2 else 0)
      else (s, 1)
    r.1.hwSend 114 src.toNat mbx.toNat 0x121 (payloadOf [(0, 1, r.2)]))

/-! ### Memory codes (R415, R418 to R421) -/

/-- The place of a scrubber's access: its core or instance, and its address as that core sees it. -/
def scrubAddr : ScrubPlace → Nat × Nat
  | .dram a => (0, a.toNat)
  | .sram id inst off =>
    let i := id.toNat
    if i = 1 then (inst.toNat, off.toNat)
    else if i = 2 then (inst.toNat, 0x20000 + off.toNat)
    else if i = 3 then (0, 0x0100000000 + inst.toNat * 0x1000000 + off.toNat)
    else if i = 4 then (0, 0x0200000000 + off.toNat)
    else (0, 0x0210000000 + off.toNat)

/-- The scrubber runs, and reads this place: enabled for it, not fenced, not in Quiesce or asleep (R418, R429). -/
def State.scrubs (s : State) (p : ScrubPlace) : Bool :=
  let m := s.fld fARC_MODE_CUR
  !s.mec.fenced && m != 7 && m != 8 && m != 9 &&
    match p with
    | .dram a => s.flag fMEC_SCRUB_DRAMEN && decide (0x1000000000 ≤ a.toNat) && decide (a.toNat < s.dramEnd)
    | .sram id _ _ => 1 ≤ id.toNat && id.toNat ≤ 10 && s.fld fMEC_SCRUB_SRAMEN / 2 ^ (id.toNat - 1) % 2 == 1

/-- The location is pinned as poisoned (R420): a Strong block whole, a Light or SRAM double by itself; the instruction store
is not written back. -/
def State.scrubPin (s : State) (p : ScrubPlace) : State :=
  let w := scrubAddr p
  match p with
  | .dram a =>
    if s.isLight a.toNat then s.withMem { s.mem with poison := sAdd s.mem.poison (a.toNat - a.toNat % 8) }
    else s.poisonBlock a.toNat
  | .sram id _ _ =>
    if id.toNat = 1 ∨ 6 ≤ id.toNat then s
    else s.withMem { s.mem with poison := sAdd s.mem.poison (cellKey w.1 w.2 - cellKey w.1 w.2 % 8) }

/-- The lap goes on; past the last place it ends and its duration is kept (R421). A lap over the SRAMs has ended where the next begins
(log entry 169). -/
def State.scrubNext (s : State) (p : ScrubPlace) : State :=
  let ms := s.now / 1000000
  match p with
  | .dram a =>
    let next := a.toNat - a.toNat % 128 + 128
    if s.dramEnd ≤ next then
      let s := s.setFld fMEC_LAP_DRAMMS (min (ms - s.mec.dramLapAt) (2 ^ 32 - 1))
      { s with mec := { s.mec with dramNext := 0, dramLapAt := ms, dramWarned := false } }
    else { s with mec := { s.mec with dramNext := next } }
  | .sram id inst off =>
    let at_ := off.toNat - off.toNat % 8 + inst.toNat * 2 ^ 40 + id.toNat * 2 ^ 46
    let s := if at_ < s.mec.sramNext then
        let s := s.setFld fMEC_LAP_SRAMMS (min (ms - s.mec.sramLapAt) (2 ^ 32 - 1))
        { s with mec := { s.mec with sramLapAt := ms, sramWarned := false } }
      else s
    { s with mec := { s.mec with sramNext := off.toNat - off.toNat % 8 + 8 + inst.toNat * 2 ^ 40 + id.toNat * 2 ^ 46 } }

/-- SCRUB_ACCESS (R414, R418 to R420): one block or double is read; a corrected one is written back, an uncorrectable one
pinned as poisoned. -/
def execScrubAccess (place : ScrubPlace) (ecc : Ecc) (s : State) : Out :=
  .next (
    if !s.scrubs place then s
    else
      let w := scrubAddr place
      let r : State × Bool := match place with
        | .sram id inst off =>
          if 6 ≤ id.toNat then (s.countHidden id.toNat inst.toNat off.toNat ecc .scrubber 118, false)
          else s.readOutcome w.1 w.2 ecc .scrubber 118
        | .dram _ => s.readOutcome w.1 w.2 ecc .scrubber 118
      let s := if r.2 then r.1.scrubPin place else r.1
      s.scrubNext place)

/-- MEC_DMARK_WRITE (R415, R424). -/
def execMecDmarkWrite (who : Endpoint) (value : Word) (s : State) : Out :=
  .next (s.writeBy who.toNat rMEC_DMARK value)

/-- CE_SUMMARY (R419): once a second, an Info record of the correctable counts, if there were any. -/
def execCeSummary (s : State) : Out :=
  .next (
    let d := s.mec.secondDram
    let r := s.mec.secondSram
    let s := { s with mec := { s.mec with secondDram := 0, secondSram := 0 } }
    if d = 0 ∧ r = 0 then s
    else s.logFw 1 (Config.recordCore 40 % 54) 0x0004 (bodyOf [(0, 8, (s.reg rMEC_CLOG).toNat), (8, 4, d), (12, 4, r)]))

/-- SCRUB_LAP_WARNING (R421): a lap longer than `LAPWARN` hours raises one Notice record. -/
def execScrubLapWarning (dram : Bool) (s : State) : Out :=
  .next (
    let ms := s.now / 1000000
    let long := s.fld fMEC_SCRUB_LAPWARN * 3600000
    if dram then
      if s.mec.dramWarned || decide (ms - s.mec.dramLapAt ≤ long) then s
      else
        let s := { s with mec := { s.mec with dramWarned := true } }
        s.log 2 118 0x0004 (bodyOf [(0, 8, (s.reg rMEC_CLOG).toNat)])
    else
      if s.mec.sramWarned || decide (ms - s.mec.sramLapAt ≤ long) then s
      else
        let s := { s with mec := { s.mec with sramWarned := true } }
        s.log 2 118 0x0004 (bodyOf [(0, 8, (s.reg rMEC_CLOG).toNat)]))

/-! ### Stalls, declarations and injectors (R428 to R441) -/

/-- A core that executes fails by a stall (R428, R429). -/
def CoreStatus.canStall : CoreStatus → Bool
  | .running => true
  | .stopped => true
  | .waiting _ => false
  | .unreleased => false
  | .spare => false
  | .fenced => false

/-- STALL_REPORT (R115, R428 to R432, R437): the attributed unit's fault is handled; a stalled island breaks its clasps. A core
that waits in `crecv` or `cwait` has no incomplete handshake. The PCIe island has no endpoint number, so the unit of its fault
is a free value (log entry 147). -/
def execStallReport (place : StallPlace) (s : State) : Out :=
  .next (match place with
    | .core n =>
      if (s.core n).status.canStall then
        (s.blaming (s.core n).stallBy.isSome fun s => s.coreFail n 0x01 false).settle
      else s
    | .flashIsland c =>
      match s.seqOf c with
      | some q =>
        ((s.claspBreak (psqClasp q) .islandStalled 0).claspBreak (psqClasp q + 1) .islandStalled 0).seqFail q false
      | none => s
    | .ddr5 c => (s.claspBreak (2 + 2 * c.val) .islandStalled 0).claspBreak (3 + 2 * c.val) .islandStalled 0
    | .scrubber =>
      if s.mec.fenced then s
      else State.faultNow { s with mec := { s.mec with fenced := true } } 0x0A 118 false true
    | .pcie =>
      let s := (s.claspBreak 0 .islandStalled 0).claspBreak 1 .islandStalled 0
      s.tick.fatalFault 0x0B ((freshWord s).toNat % 128) false
    | .other ep => s.fatalFault 0x0B ep.toNat false)

/-- FLT_DECL_WRITE (R431): firmware declares a core failed. -/
def execFltDeclWrite (who : Endpoint) (core : BitVec 6) (s : State) : Out :=
  .next (s.writeBy who.toNat rFLT_DECL (BitVec.ofNat 64 (core.toNat + 64)))

/-- DDR5_RETRAIN_DONE (R116, R437): a broken clasp of the island closes again. -/
def execDdr5RetrainDone (chan : Fin 2) (s : State) : Out :=
  .next ([2 + 2 * chan.val, 3 + 2 * chan.val].foldl
    (fun (t : State) c => if t.claspState c = clBroken then t.claspRecloses c else t) s)

/-- INJECTOR_ARM (R439, R440, R446): a write of `FLT_INJA`. -/
def execInjectorArm (who : Endpoint) (inj : Fin 8) (value : Word) (s : State) : Out :=
  .next (s.writeBy who.toNat (rFLT_INJA inj) value)

/-- INJECTOR_TICK (R440): an event of a kind without a stream of events. -/
def execInjectorTick (inj : Fin 8) (s : State) : Out := .next ((s.injTick inj).settle)

/-- HEALTH_SUMMARY (R438, R549): every 24 power-on hours (log entry 62: an Info record). -/
def execHealthSummary (src : CoreId) (s : State) : Out :=
  .next (s.logFw 1 src 0x0104 (bodyOf [(0, 8, (s.reg rFCT_SPARE).toNat), (8, 8, (s.reg rARC_PQFENCE).toNat),
    (16, 8, (s.reg rMEC_DMARK).toNat), (24, 8, (s.reg rFCT_TAKE).toNat)]))

/-! ### The event recorder (R548 to R561) -/

/-- The record that a message holds (R548). -/
def draftOf (src : Nat) (p : BitVec 512) : Draft :=
  ⟨pGet p 2 1 % 8, bit (BitVec.ofNat 64 (pGet p 2 1)) 3, false, bit (BitVec.ofNat 64 (pGet p 2 1)) 6, src, pGet p 0 2,
    BitVec.ofNat 256 (pGet p 32 32)⟩

/-- The message is malformed: another mailbox or sub-operation, or a bit that must be zero is not (R548). -/
def badRecord (mbx sub : Nat) (p : BitVec 512) : Bool :=
  mbx != 0 || sub != 0x1D0 || pGet p 2 1 / 16 % 4 != 0 || pGet p 2 1 / 128 != 0 || pGet p 3 29 != 0

/-- A message of a core to the recorder (R548, R550): its held first record is joined with its continuation, or dropped; a
first record is held. -/
def State.recordMessage (s : State) (src mbx sub : Nat) (p : BitVec 512) : State :=
  let d := draftOf src p
  let held := tget s.evr.firsts src
  let s := { s with evr := { s.evr with firsts := tdel s.evr.firsts src } }
  let bad := badRecord mbx sub p
  let pair := match held with
    | some f => !bad && d.kind == 0xFFFF && d.sev == f.sev
    | none => false
  let s := if held.isSome && !pair then s.dropped 1 else s
  match held, pair with
  | some f, true => s.logAll [f, { d with cont := false }]
  | _, _ =>
    if bad || d.kind == 0xFFFF then s.dropped 1
    else if d.cont then { s with evr := { s.evr with firsts := tput s.evr.firsts src d } }
    else s.logAll [d]

/-- EVR_LOG_MESSAGE (R548 to R554, R561). -/
def execEvrLogMessage (src : Endpoint) (mbx : BitVec 4) (sub : BitVec 12) (payload : BitVec 512) (s : State) : Out :=
  .next (
    let s := match takeFirst (fun (m : Msg) => decide (m.src = src.toNat) && decide (m.sub = sub.toNat)) (s.box 117 mbx.toNat) with
      | some (_, rest) => s.setBox 117 mbx.toNat rest
      | none => s
    s.recordMessage src.toNat mbx.toNat sub.toNat payload)

/-- EVR_CONTINUATION_TIMEOUT (R550): a held first record is discarded and counted. -/
def execEvrContinuationTimeout (src : Endpoint) (s : State) : Out :=
  .next (
    if (tget s.evr.firsts src.toNat).isSome then
      State.dropped { s with evr := { s.evr with firsts := tdel s.evr.firsts src.toNat } } 1
    else s)

/-- EVR_ENABLE (R553): a write that sets `EN`. -/
def execEvrEnable (who : Endpoint) (s : State) : Out :=
  .next (s.writeBy who.toNat rEVR_CTL (setBits (s.reg rEVR_CTL) 0 1 1))

/-- ALERT_RESPONSE_READ (R559, R561): the address is returned and MB_ALERT_N released, or the read is not acknowledged. -/
def execAlertResponseRead (s : State) : Out :=
  .next (
    if s.flag fEVR_STAT_ALERT then
      State.setFld { s with mgmt := { s.mgmt with out := s.mgmt.out ++ [BusEvent.alertResponse (0x1D + s.pwr.addr)] } }
        fEVR_STAT_ALERT 0
    else { s with mgmt := { s.mgmt with out := s.mgmt.out ++ [BusEvent.nack] } })

/-- COUNTER_CODEWORD_WRITE (R556). -/
def execCounterCodewordWrite (s : State) : Out := .next s.counterWord

/-- LOG_SNAPSHOT_EXPIRY (R557): the snapshot of the host or of the management bus lapses. -/
def execLogSnapshotExpiry (mgmt : Bool) (s : State) : Out :=
  .next (if mgmt then { s with evr := { s.evr with mgmtSnap := none } } else { s with evr := { s.evr with hostSnap := none } })

/-- LIFETIME_COUNT_SAVE (R558). -/
def execLifetimeCountSave (s : State) : Out :=
  .next s.saveLife

end Sys2Proof.Machine
end

