-- ==== Sys2Proof/Machine/Firmware.lean ====
section
/-! DEFINITION. Firmware's background work on the map, the journal, blocks and wear, PFAIL_N and recovery (R212 to R276,
R376). -/

namespace Sys2Proof.Machine

open Sys2Proof

/-! ### Map pages, journal and snapshots -/

/-- MAP_WRITEBACK (R210, R212): a dirty page that is due goes to flash. -/
def execMapWriteback (mpn : BitVec 32) (place : StripeAt) (s : State) : Out :=
  .next (
    let p := mpn.toNat
    if s.programsOn && s.pageDirty p && s.writebackDue p then s.writeBack p place else s)

/-- JOURNAL_FLUSH_START (R222, R260): on age, count or an early request. -/
def execJournalFlushStart (s : State) : Out := .next (if s.flushDue then s.flushStart false s.fw.pfailStop else s)

/-- JOURNAL_FLUSH_DURABLE (R151, R222): the flush is durable; ranges in it commit and their commands complete. -/
def execJournalFlushDurable (s : State) : Out := .next s.flushDurable.postAll

/-- The records of a band table: `BAND` and `MEMBERS` of each band that is not released (R390; log entry 155). -/
def State.bandRecords (s : State) : Nat :=
  sumOf (fun (e : Nat × Band) => if e.2.state = 2 then 0 else 1 + ceilDiv e.2.blocks.length 5) s.fw.bands

/-- The units of a snapshot: header, map page table in whole MiB, block table, band table (R206, R223, R230, R264). -/
def State.snapshotUnits (s : State) : Nat :=
  1 + ceilDiv (ceilDiv (s.part.userBytes / 4096) 1024 * 8) (2 ^ 20) * 256 + ceilDiv (16 * s.rawBlocks) 4096 + ceilDiv s.bandRecords 128

/-- The rows that a snapshot of `n` units takes from a row of a band on. -/
def Band.snapshotRows (bd : Band) (serial row n : Nat) : Nat :=
  ceilDiv n (max 1 ((bd.layoutAt serial row).1.length * (4 * bd.k - 1)))

/-- The newest open system band where it can hold another snapshot: its serial, and the row at which that begins (R264). -/
def State.systemRow (s : State) : Option (Nat × Nat) :=
  match (s.fw.bands.filter fun e => e.2.use == 6 && e.2.state == 0).getLast? with
  | none => none
  | some (n, bd) =>
    let row := s.nextRow bd
    if row + bd.snapshotRows n row s.snapshotUnits ≤ s.fw.wordlines then some (n, row) else none

/-- A snapshot starts: its started record, the block table as it stands, and the pages that must be written back first (R223, R230,
R263). Where the current system band cannot hold it another opens, and the snapshot waits until that may be programmed (R259,
R264). -/
def State.snapshotStart (s : State) : State :=
  match s.systemRow with
  | none => s.openBand 6
  | some (n, row) =>
    match s.freeStripe true 6 n row 0 with
    | none => s
    | some (bd, ds, _) =>
      let r := s.takeSeqs 1
      let seq := r.2.headD 0
      let first := bd.ppaOn (ds.headD 0) row 0
      let t := r.1.journal (.snapshot false seq first)
      State.asyCopies <| t.withFw { t.fw with
        snaps := t.fw.snaps ++ [{
          seq := seq, complete := false, pageTab := [], blocks := t.fw.blocks, bands := [], dirty := t.dirtyPages, flush := 0
          recordPpa := 0, band := n, first := first, units := t.snapshotUnits }] }

/-- The data of a snapshot's header unit (R264). -/
def Snapshot.header (x : Snapshot) : List Byte :=
  bytesOf 0x534E4150 4 ++ bytesOf 0 4 ++ bytesOf x.seq 8 ++ bytesOf x.recordPpa 5 ++ bytesOf 0 3 ++ bytesOf x.units 4 ++ bytesOf x.flush 4

/-- The rows of a snapshot count as programmed (log entry 155); the band closes after its last row. -/
def State.snapshotPast (s : State) (n rows : Nat) : State :=
  match s.band n with
  | none => s
  | some bd =>
    let bs := bd.blocks.filter fun b => (s.blk b).state == 2
    let s := s.withFw { s.fw with frontier := bs.foldl (fun f b => tput f b (blockPpa b + 4 * rows)) s.fw.frontier }
    if s.fw.wordlines ≤ rows then s.closeBand n else s

/-- A snapshot whose dirty pages are all written back, and whose started record is durable, is written from its header on and
completes (R223, R263, R264). Where its place is gone it is given up. -/
def State.snapshotEnd (s : State) : State :=
  match s.fw.snaps.getLast? with
  | none => s
  | some x =>
    if x.complete || !x.dirty.isEmpty || x.recordPpa = 0 then s
    else
      let row := rowOf x.first
      let rows := ((s.band x.band).map fun bd => bd.snapshotRows x.band row x.units).getD 1
      let rest := s.fw.snaps.dropLast
      match s.putStripe true 6 x.band row 0 false [⟨unitData x.header, [], x.seq, 2 * 2 ^ 40, 0, 7⟩] with
      | some (t, p :: _) =>
        if p = x.first then
          let t := t.snapshotPast x.band (row + rows)
          let done : Snapshot := { x with complete := true, pageTab := s.fw.pageTab, bands := s.fw.bands }
          (t.withFw { t.fw with snaps := rest ++ [done] }).journal (.snapshot true x.seq x.first)
        else s.withFw { s.fw with snaps := rest }
      | _ => s.withFw { s.fw with snaps := rest }

/-- The snapshot in progress goes on, or one starts (R223, R263). -/
def State.snapshotStep (s : State) : State :=
  let running := (s.fw.snaps.getLast?.map fun x => !x.complete).getD false
  if running then s.snapshotEnd else s.snapshotStart

/-- A fresh snapshot in one step, behind what one in progress held (R473): the dirty pages are written back before. -/
def State.freshSnapshot (s : State) : State :=
  let old := s.fw.seqC
  let s := s.withFw { s.fw with snaps := s.fw.snaps.filter (·.complete) }
  let go (t : State) : State :=
    if t.fw.snaps.any fun x => x.complete && decide (old ≤ x.seq) then t else t.snapshotStep.stripeSync.flushNow false
  go (go (go s))

/-- Bands are opened where none is open: one for the journal, and once that may be programmed one for each of some uses (R259). -/
def State.startBands (s : State) (uses : List Nat) : State :=
  let s := (s.openBand 5).stripeSync.flushNow false
  State.stripeSync (uses.foldl State.openBand s) |>.flushNow false

/-- MAP_TABLE_SNAPSHOT (R223, R263, R264): starts a snapshot where none is in progress, and completes it as soon as its started
record is durable and the pages that were dirty then are written back. -/
def execMapTableSnapshot (s : State) : Out := .next (if s.programsOn then s.snapshotStep else s)

/-! ### Folding, reclamation and refresh -/

/-- The valid units of some places of a band of a use leave them: staged ones by folding, map pages by being written, those of
journal and system bands by a fresh snapshot, others as kind 2 in beads of a class (R216, R235, R237, R383). -/
def State.moveOut (s : State) (use cls : Nat) (ws : List StripeAt) (warned ps : List Nat) : State :=
  if use = 0 then s.relocate 2 1 3 ws warned ps
  else if use = 4 then s.movePages ws (s.pagesAmong ps)
  else if use = 5 ∨ use = 6 then s.snapshotStep
  else s.relocate 3 2 cls ws warned ps

/-- FOLD (R216): while staging is more than 10 % full, staged units of the oldest staging block go to a fold stripe as kind 1, with
conditional updates; an emptied closed band is released. -/
def execFold (place : StripeAt) (warned : List (BitVec 40)) (s : State) : Out :=
  .next (
    if s.programsOn && s.backgroundOn && s.stagingAbove 10 then s.foldInto place (warned.map (·.toNat)) else s)

/-- RECLAMATION (R234 to R236): valid units of the victim band go to a reclaim stripe as kind 2, at a high count of free blocks only
for refresh or while no command is in the device; an emptied band is released. A place in a map band is the map task's, which
moves a page out of its own victim. -/
def execReclamation (place : StripeAt) (warned : List (BitVec 40)) (s : State) : Out :=
  .next (
    if !s.programsOn || !s.backgroundOn then s
    else
      let any := decide (s.lowestFree < 96) || s.hqe.slots.isEmpty
      let map := ((s.band place.band.toNat).map (·.use)) == some 4
      match s.victimBand (if map then [4] else [1, 2, 3]) any with
      | none => s
      | some n =>
        let ps := ((s.band n).map fun bd => bd.blocks.flatMap s.ppasIn).getD []
        let ps := if map then ps else s.upToValid (s.placeRoom 3 place) ps
        (s.moveOut (if map then 4 else 3) 4 [place] (warned.map (·.toNat)) ps).releaseIfEmpty n)

/-- BAND_REFRESH_DUE (R237): a closed band of 87 days of power-on age, or over whose dies the pool's mean wear has risen by
1,280, becomes refresh-due; reclamation then takes it first. -/
def execBandRefreshDue (band : BitVec 45) (s : State) : Out :=
  .next (
    match s.band band.toNat with
    | none => s
    | some bd =>
      let due := 20880 ≤ s.bandAge bd || bd.wearAtClose + 1280 ≤ s.poolWear (bd.blocks.map dieOfBlock)
      if bd.state = 1 ∧ due = true then s.setBand band.toNat { bd with refreshDue := true } else s)

/-- BLOCK_RELOCATION (R237, R265): a block of 4,000,000 reads, with early warnings on three pages, or marked by recovery, has its
valid units moved. -/
def execBlockRelocation (block : BlockId) (place : StripeAt) (warned : List (BitVec 40)) (s : State) : Out :=
  .next (
    let b := block.toNat
    let r := s.blk b
    if s.programsOn && s.backgroundOn && (4000000 ≤ r.reads || 3 ≤ s.warnedPages r || r.marked) then
      let room := s.placeRoom (if r.use = 0 then 2 else 3) place
      let ps := s.ppasIn b
      let t := s.moveOut r.use 4 [place] (warned.map (·.toNat)) (if r.use = 4 then ps else s.upToValid room ps)
      if r.marked && (t.validUnits ps).isEmpty then t.setBlk b { t.blk b with marked := false } else t
    else s)

/-- The device has such a block on a die that is not lost. -/
def State.hasBlock (s : State) (b : Nat) : Bool :=
  decide (dieOfBlock b < s.fw.dies) && !s.dieLost (dieOfBlock b) && decide (b / 2 ^ 14 % 8 < s.fw.planes) &&
    decide (b % 2 ^ 14 < s.fw.blocksPer)

/-- The block may be erased: released first of those that wait, with its released record durable; erase-indeterminate; or free but
not erased in this power cycle (R232, R233, R244, R262). -/
def State.mayErase (s : State) (b : Nat) : Bool :=
  let r := s.blk b
  s.hasBlock b &&
    ((r.state == 4 && (s.fw.released.find? fun x => (s.blk x).state == 4) == some b && s.releaseDurable b) || r.state == 5 ||
      (r.state == 0 && !r.pooled))

/-- BLOCK_ERASE (R231 to R233, R243, R244, R262): a block is erased and joins the free pool; a failed erase retires it. -/
def execBlockErase (block : BlockId) (good : Bool) (s : State) : Out :=
  .next (
    let b := block.toNat
    if s.programsOn && s.mayErase b then
      let t := s.eraseBegins b
      if good then t.blockErased b else t.retire b
    else s)

/-! ### Read-hot units and wear -/

/-- SKETCH_CLEAR (R240). -/
def execSketchClear (s : State) : Out := .next (s.withFw { s.fw with sketch := [] })

/-- A cached unit goes: its bead is freed, and the time is kept for R242. -/
def State.evictHot (s : State) (h : HotUnit) : State :=
  let s := s.releaseBead h.bead
  s.withFw { s.fw with
    hot := s.fw.hot.filter fun x => !(x.ns == h.ns && x.unit == h.unit)
    evicted := (s.fw.evicted.filter fun x => !(x.1 == h.ns && x.2.1 == h.unit)) ++ [(h.ns, h.unit, s.now)] }

/-- HOT_CACHE_EVICT (R241): a cached unit not hit for 100 ms. -/
def execHotCacheEvict (ns : BitVec 8) (unit : BitVec 48) (s : State) : Out :=
  .next (
    match s.fw.hot.find? fun h => h.ns == ns.toNat && h.unit == unit.toNat with
    | some h => if h.lastHit + 100000000 ≤ s.now then s.evictHot h else s
    | none => s)

/-- WEAR_STAGE_RISE (R248, R250): never falls; Notice up to stage 3, Warning at stage 4. -/
def execWearStageRise (s : State) : Out :=
  .next (
    let n := s.stageNow
    if n ≤ s.fw.wearStage then s
    else
      let s := s.withFw { s.fw with wearStage := n }
      (s.tell (if n = 4 then 3 else 2) .wearStage n).wearSummary)

/-- WEAR_SUMMARY (R250): every 24 power-on hours, which ends the windows of R248. -/
def execWearSummary (s : State) : Out :=
  .next (
    let s := s.wearSummary
    s.withFw { s.fw with readsDay := 0, ewDay := 0, softDay := 0, wearSummaryAt := s.hours })

/-! ### Portions that wait -/

/-- DIRECT_GROUP_TIMEOUT (R214): 200 µs after the first direct portion of a group its wordline is programmed at the places of a
group, the remaining pages filled with fold units. -/
def execDirectGroupTimeout (places : List StripeAt) (s : State) : Out :=
  .next (if s.programsOn then (s.issueDirect places).postAll else s)

/-- STAGING_STRIPE_TIMEOUT (R376): 4 µs after its first unit the staging stripe is issued, filled with pads (R366). -/
def execStagingStripeTimeout (place : StripeAt) (s : State) : Out :=
  .next (if s.programsOn then (s.issueStaging place).postAll else s)

/-! ### PFAIL_N (R273, R274) -/

/-- PFAIL_N_ASSERT (R273, R555, R556): no new program or erase, and an early flush; Signet writes the counter codeword. -/
def execPfailNAssert (s : State) : Out :=
  .next (
    let s := s.withFw { s.fw with pfailLow := true }
    if s.fw.pfailIgnore then s
    else (State.flushStart (s.withFw { s.fw with pfailStop := true }) false true).counterWord.saveLife)

/-- PFAIL_N_RELEASE (R274): high for 1 ms. -/
def execPfailNRelease (s : State) : Out := .next (s.withFw { s.fw with pfailLow := false, pfailStop := false })

/-- PFAIL_N_STUCK (R274): low for 100 ms: a Warning record, and the input is ignored until the next device reset. -/
def execPfailNStuck (s : State) : Out :=
  .next (
    if s.fw.pfailLow && !s.fw.pfailIgnore then
      (s.withFw { s.fw with pfailStop := false, pfailIgnore := true }).tell 3 .pfailStuck 0
    else s)

/-! ### Recovery: what is read (R223, R230, R264, R266, R388) -/

def JRec.isCheckpoint : JRec → Bool
  | .checkpoint _ _ _ => true
  | _ => false

/-- The flushes of the journal: each ends with the unit that holds its checkpoint (R222). -/
def journalFlushes (l : List (Nat × List JRec)) : List (List (Nat × List JRec)) :=
  (l.foldl (fun (a : List (List (Nat × List JRec)) × List (Nat × List JRec)) u =>
    if u.2.any JRec.isCheckpoint then (a.1 ++ [a.2 ++ [u]], []) else (a.1, a.2 ++ [u])) ([], [])).1

/-- The records that read back up to the end of the newest flush of which every unit does, and whether a unit is lost: `bad` lists
units that neither decode nor are rebuilt (R266, R388). -/
def State.journalRead (s : State) (bad : List Nat) : List JRec × Bool :=
  let units := s.fw.jUnits.mapIdx fun i u => (u.1, (s.fw.journal.drop (128 * i)).take 128)
  let kept := ((journalFlushes units).reverse.dropWhile fun f => f.any fun u => bad.contains u.1).reverse
  (kept.flatten.flatMap fun u => if bad.contains u.1 then [] else u.2, units.any fun u => bad.contains u.1)

/-- What recovery begins with: the snapshot, the records from its start on, and whether a unit that it needs is lost (R264, R266,
R388). -/
structure Found where
  snap : Option Snapshot
  recs : List JRec
  lost : Bool
  deriving DecidableEq, Repr

/-- The newest snapshot whose header reads back and whose complete record is durable, and the journal from its start (R263,
R264); a copy of the stripe journal must stand too (R388). -/
def State.findRecords (s : State) (bad : List Nat) : Found :=
  let j := s.journalRead bad
  let lost := j.2 || (!s.fw.copies.isEmpty && s.fw.copies.all fun c => s.dieLost c.1)
  let done (x : Snapshot) : Bool := x.complete && !bad.contains x.first && j.1.any fun r => match r with
    | .snapshot true q _ => q == x.seq
    | _ => false
  match s.fw.snaps.reverse.find? done with
  | none => ⟨none, j.1, lost || s.fw.snaps.any fun x => x.complete && bad.contains x.first⟩
  | some x => match startedAt j.1 x.seq with
    | some i => ⟨some x, j.1.drop i, lost⟩
    | none => ⟨some x, j.1, true⟩

/-- A `BLOCK` record is applied: state, use and erase attempts (R230, R266). -/
def applyBlock (t : Tab BlockRec) (st use b : Nat) : Tab BlockRec :=
  let r := tgetD t b BlockRec.fresh
  if st = 0 then
    -- an opened record that follows an erased one names the same erase
    let c := if r.erasedRec then r else r.attempt
    tput t b { c with state := 2, use := use, lastSlc := slcUse use, programmed := false, durable := some 0 }
  else if st = 1 then tput t b { r with state := 3, durable := some 1 }
  else if st = 2 then tput t b { r with state := 4, erasedRec := false, durable := some 2 }
  else if st = 3 then tput t b { r with state := 6, durable := some 3 }
  else if st = 4 then tput t b { r.attempt with state := 5, durable := some 4 }
  else tput t b { r.attempt with state := 0, programmed := false, erasedRec := true, durable := some 5 }

/-- What replay of the table records holds. -/
structure Replay where
  pageTab : Tab Nat
  blocks : Tab BlockRec
  frontier : Tab Nat
  deriving DecidableEq, Repr

def Replay.table (p : Replay) : JRec → Replay
  | .mapPage mpn _ e => { p with pageTab := tput p.pageTab mpn e }
  | .block st use ppa => { p with blocks := applyBlock p.blocks st use (blockOf ppa) }
  | .frontier _ ppa => { p with frontier := tput p.frontier (blockOf ppa) ppa }
  | _ => p

/-- A block is used as flash shows it: pages of it are programmed (R231). -/
def State.programmedIn (s : State) (t : Tab BlockRec) : Tab BlockRec :=
  s.fw.flash.foldl (fun (t : Tab BlockRec) e =>
    let b := blockOf e.1
    let r := tgetD t b BlockRec.fresh
    if r.programmed then t else tput t b { r with programmed := true }) t

/-- The tables as the snapshot and the records give them. Where records are lost, the blocks of every band that is not released
count as in use (R388). -/
def State.replayTables (s : State) (f : Found) : Replay :=
  let p := f.recs.foldl Replay.table
    ⟨(f.snap.map (·.pageTab)).getD [], (f.snap.map (·.blocks)).getD [], []⟩
  let used := if f.lost then
      (s.fw.bands.filter fun e => e.2.state != 2).foldl (fun (t : Tab BlockRec) e => e.2.blocks.foldl (fun (t : Tab BlockRec) b =>
        let r := tgetD t b BlockRec.fresh
        if r.state = 0 then tput t b { r with state := 3, use := e.2.use, lastSlc := slcUse e.2.use } else t) t) p.blocks
    else p.blocks
  { p with blocks := (s.programmedIn used).map fun e => (e.1, { e.2 with pooled := false }) }

/-! ### Recovery: the map (R220, R257, R258, R266, R268, R388) -/

/-- A map record applied to the entries (R221, R268): a conditional `UNIT` only over the old PPA. -/
def State.replayRec (s : State) (r : JRec) : State :=
  match r with
  | .unit k cond old _ u e =>
    match s.entryKey k u with
    | some key =>
      if cond && !(entWritten (s.entryAt key) && entPpa (s.entryAt key) == old) then s
      else
        let s := (s.buildPage (key / 1024)).noteDirty (key / 1024)
        s.withFw { s.fw with entries := tput s.fw.entries key e }
    | none => s
  | .range k kind count _ first e => s.applyRange k kind first count e
  | .nspace _ gone base units =>
    -- the namespace table itself is kept (log entry 70); a deleted namespace's pages are free
    if gone then
      let mine (p : Nat) : Bool := base ≤ p && p < base + ceilDiv units 1024
      s.withFw { s.fw with
        entries := s.fw.entries.filter (fun e => !mine (e.1 / 1024)), dealloc := s.fw.dealloc.filter fun e => !mine e.1 }
    else s
  | _ => s

/-- The map pages that `UNIT` and partial `RANGE` records touch, with how many each (R268). -/
def State.replayPages (s : State) (l : List JRec) : Tab Nat :=
  let bump (t : Tab Nat) (p : Nat) : Tab Nat := tput t p (tgetD t p 0 + 1)
  l.foldl (fun (t : Tab Nat) r => match r with
    | .unit k _ _ _ u _ => match s.entryKey k u with
      | some key => bump t (key / 1024)
      | none => t
    | .range k _ count _ first _ => match tget s.ns k with
      | some n =>
        let ends := [first / 1024, (first + count - 1) / 1024].eraseDups
        ends.foldl (fun t p =>
          if first ≤ 1024 * p && 1024 * p + 1024 ≤ first + count then t else bump t (n.base + p)) t
      | none => t
    | _ => t) []

/-- The entries that the page table finds in flash. -/
def State.loadPages (s : State) : State :=
  s.fw.pageTab.foldl (fun (t : State) e =>
    t.withFw { t.fw with
      entries := (t.pageInFlash e.1).mapIdx (fun i w => (i, w)) |>.foldl
        (fun f x => tput f (e.1 * 1024 + x.1) x.2.toNat) t.fw.entries }) s

/-- Both units of a map page read back (R206, R388). -/
def State.pageReads (s : State) (mpn e : Nat) : Bool :=
  [0, 1].all fun i => match s.unitRead (e % 2 ^ 40 + i) 0 fun w =>
      uKind w == 3 && uLba w == mpn * 2 + i && tagCrcGood (unitBytes w) with
    | .good _ _ => true
    | .lost _ => false

/-- The sequence number that a record holds. -/
def JRec.seqNo : JRec → Nat
  | .unit _ _ _ seq _ _ => seq
  | .range _ _ _ seq _ _ => seq
  | .mapPage _ seq _ => seq
  | .checkpoint _ _ seq => seq
  | .snapshot _ seq _ => seq
  | .nop => 0
  | .frontier _ _ => 0
  | .block _ _ _ => 0
  | .nspace _ _ _ _ => 0

/-- The units that the tag scan finds: in open blocks, from the durable frontier on (R265, R266). -/
def State.scanned (s : State) (p : Replay) : List (Nat × List Word) :=
  s.fw.flash.filter fun e =>
    let b := blockOf e.1
    let r := tgetD p.blocks b BlockRec.fresh
    r.state == 2 && r.use != 6 && tgetD p.frontier b (blockPpa b) ≤ e.1

/-- The group of a sequence number, and a unit's index and last mark in it (R257). -/
def groupOf (seq : Nat) : Nat := if seq % 2 = 1 then seq else seq / 256 * 256
def indexOf (seq : Nat) : Nat := seq / 2 % 64
def isLast (seq : Nat) : Bool := seq / 128 % 2 == 1

/-- A group is complete: the unit marked last and every index before it are found (R266). -/
def groupComplete (seqs : List Nat) : Bool :=
  match seqs with
  | [] => false
  | x :: _ =>
    if x % 2 = 1 then true
    else match seqs.find? isLast with
      | some l => (List.range (indexOf l + 1)).all fun i => seqs.any fun q => indexOf q == i
      | none => false

/-- A unit of the group has a durable `UNIT` record (R266). -/
def hasRecord (l : List JRec) (g : Nat) : Bool :=
  l.any fun r => match r with
    | .unit _ false _ seq _ _ => groupOf seq == g
    | _ => false

/-- The entry that a scanned unit gets: staged or direct by its block's use. -/
def scanEntry (t : Tab BlockRec) (ppa : Nat) (w : List Word) : Nat :=
  let use := (tgetD t (blockOf ppa) BlockRec.fresh).use
  mkEntry ppa false false (use == 0) (use == 1 && uKind w == 0) (uSeq w)

/-- Units by group, in the order of their sequence numbers (R266). -/
def groupList (l : List (Nat × List Word)) : Tab (List (Nat × List Word)) :=
  l.foldl (fun t x => tput t (groupOf (uSeq x.2)) (tgetD t (groupOf (uSeq x.2)) [] ++ [x])) []

/-- A scanned unit gets its entry with a fresh `UNIT` record (R266). -/
def State.applyUnit (s : State) (x : Nat × List Word) : State :=
  let u := JRec.unit (uNs x.2) false 0 (uSeq x.2) (uLba x.2) (scanEntry s.fw.blocks x.1 x.2)
  (s.replayRec u).journal u

/-- A record for a unit holds this sequence number or a later one. -/
def recordsUnit (l : List JRec) (k u seq : Nat) : Bool :=
  l.any fun r => match r with
    | .unit k' _ _ q u' _ => k' == k && u' == u && seq ≤ q
    | .range k' _ n q first _ => k' == k && first ≤ u && u < first + n && seq ≤ q
    | _ => false

/-- The tag scan of every open and closed band (R388): a map page takes its highest copy, and a unit the highest that is newer than
its page and than every record for it (R258); a Critical record is logged. -/
def State.scanAll (s : State) (recs : List JRec) : State :=
  let bs := (s.fw.bands.filter fun e => e.2.state != 2).flatMap (·.2.blocks)
  let l := s.fw.flash.filter fun e => bs.contains (blockOf e.1) && tagCrcGood (unitBytes e.2)
  let bySeq := (l.foldl (fun (t : Tab (List (Nat × List Word))) x => tput t (uSeq x.2) (tgetD t (uSeq x.2) [] ++ [x])) []).flatMap (·.2)
  let seqAt (t : State) (mpn : Nat) : Nat := ((tget t.fw.pageTab mpn).map fun e => uSeq (tgetD t.fw.flash (e % 2 ^ 40) [])).getD 0
  let s := bySeq.foldl (fun (t : State) x =>
    let mpn := uLba x.2 / 2
    if uKind x.2 == 3 && uLba x.2 % 2 == 0 && seqAt t mpn < uSeq x.2 then
      let e := x.1 + uSeq x.2 % 65536 * 2 ^ 48
      (t.withFw { t.fw with pageTab := tput t.fw.pageTab mpn e }).journal (.mapPage mpn (uSeq x.2) e)
    else t) s
  let s := recs.foldl State.replayRec s.loadPages
  let s := bySeq.foldl (fun (t : State) x =>
    if uKind x.2 ≤ 2 && !recordsUnit recs (uNs x.2) (uLba x.2) (uSeq x.2) then
      match t.entryKey (uNs x.2) (uLba x.2) with
      | some key => if seqAt t (key / 1024) < uSeq x.2 then t.applyUnit x else t
      | none => t
    else t) s
  s.tell 5 .mapLost 0

/-! ### Recovery: blocks and bands (R232, R244, R259, R265, R266) -/

/-- Valid-unit hints of the bands, from the entries and the page table (R235). -/
def State.countValid (s : State) : State :=
  s.withFw { s.fw with bands := s.fw.bands.map fun e =>
    (e.1, { e.2 with valid := (if e.2.state = 2 then 0 else
      countIf (fun (x : Nat × Nat) => entWritten x.2 && e.2.blocks.contains (blockOf (entPpa x.2))) s.fw.entries +
        2 * countIf (fun (x : Nat × Nat) => e.2.blocks.contains (blockOf (x.2 % 2 ^ 40))) s.fw.pageTab) }) }

/-- Bands follow their blocks as the records show them: one of which no block was ever opened is gone, one whose release is not
durable is closed again, and one with an open block closes (R229, R259, R262, R266). -/
def State.settleBand (s : State) (n : Nat) : State :=
  match s.band n with
  | none => s
  | some bd =>
    let st (b : Nat) : Nat := (s.blk b).state
    let later (b : Nat) : Bool := s.fw.bands.any fun e => n < e.1 && e.2.state != 2 && e.2.blocks.contains b
    if bd.state = 2 then
      (if bd.blocks.any fun b => (st b == 2 || st b == 3) && !later b then s.setBand n { bd with state := 1 } else s)
    else if bd.blocks.all fun b => st b == 0 then (s.setBand n { bd with state := 2 }).stripeJournal (.released n)
    else if bd.state = 0 ∨ (bd.blocks.any fun b => st b == 2) = true then s.closeBand n
    else s

/-- The free block of a die that a start erases next: of the lowest `WEAR`, lowest number first. -/
def State.nextFree (s : State) (d : Nat) : Option Nat :=
  let l := ((List.range s.fw.planes).flatMap fun p => (List.range s.fw.blocksPer).map fun i => d * 2 ^ 17 + p * 2 ^ 14 + i).filter fun b =>
    let r := s.blk b
    r.state == 0 && !r.pooled
  (l.foldl (fun (m : Option (Nat × Nat)) b =>
    let w := (s.blk b).wear
    match m with
    | some x => if w < x.1 then some (w, b) else m
    | none => some (w, b)) none).map (·.2)

/-- The first erases: on each good die as many free blocks as bands open; those in `failed` fail and are retired (R243, R266). -/
def State.eraseOn (s : State) (failed : List Nat) (d : Nat) : Nat → State
  | 0 => s
  | n + 1 =>
    match s.nextFree d with
    | none => s
    | some b =>
      let t := s.eraseBegins b
      (if failed.contains b then t.retire b else t.blockErased b).eraseOn failed d n

/-! ### Recovery: stripes (R267, R391) -/

/-- The stripes that the stripe journal lists as open: of the bands, in rows beyond the last `DONE` up to the last `WINDOW`. -/
def State.openSpots (s : State) (ns : List Nat) : List StripeSpot :=
  ns.flatMap fun n => match s.band n with
    | none => []
    | some bd =>
      ((List.range (min (bd.window + 1) (s.rowsOf bd.use))).drop bd.doneRow).flatMap fun row =>
        (bd.layoutAt n row).1.mapIdx fun j ds => ⟨n, bd, row, j, ds, 0⟩

/-- The parity spans of the data members present in a slot: position and span. -/
def State.spansPresent (s : State) (x : StripeSpot) (slot : Nat) : List (Nat × List Word) :=
  (List.range x.band.k).filterMap fun p => (tget s.fw.flash (x.slotPpa p slot)).map fun w => (p, w.take 520)

/-- The stored P and Q are those of the members present (R267). -/
def State.parityFits (s : State) (x : StripeSpot) : Bool :=
  (List.range 4).all fun i =>
    let l := s.spansPresent x i
    l.isEmpty || [false, true].all fun q =>
      ((tget s.fw.flash (s.parityPpa x q i)).map fun w => w.take 520) == some (if q then sumQ l else sumP l)

/-- Fresh P and Q for the members present: four units of each (R267). -/
def State.freshParity (s : State) (x : StripeSpot) : List UnitIn :=
  [false, true].flatMap fun q => (List.range 4).map fun i =>
    let l := s.spansPresent x i
    let v := if q then sumQ l else sumP l
    let seq := (List.range x.band.k).foldl (fun m p => max m (uSeq (tgetD s.fw.flash (x.slotPpa p i) []))) 0
    ⟨v.take 512, v.drop 512, seq, 0, 0, if q then 6 else 5⟩

/-- Units go to the next free places of a use. -/
def State.putNext (s : State) (use : Nat) : Nat → List UnitIn → State × List Nat
  | 0, _ => (s, [])
  | fuel + 1, us =>
    if us.isEmpty then (s, [])
    else match s.nextStripe true use with
      | none => (s, [])
      | some (n, row, j) =>
        let w : StripeAt := ⟨BitVec.ofNat 45 n, BitVec.ofNat 12 row, BitVec.ofNat 7 j, none⟩
        match s.putAt use w (us.take (s.placeRoom use w)) with
        | none => (s, [])
        | some (t, ps) =>
          let r := t.putNext use fuel (us.drop ps.length)
          (r.1, ps ++ r.2)

/-- `reconcile_stripes`: stripes listed as open whose P or Q does not fit get fresh parity in the repair band; then every row of
their bands is done. The state and the stripes repaired (R267, R391; log entry 163). -/
def State.reconcile (s : State) (ns : List Nat) : State × Nat :=
  let l := (s.openSpots ns).filter fun x => !s.parityFits x
  let r := s.putNext 3 l.length (l.flatMap s.freshParity)
  let put := (l.mapIdx fun i x => (x.number, (r.2.drop (8 * i)).take 8)).filter fun e => e.2.length == 8
  let s := r.1.withFw { r.1.fw with reparity := put.foldl (fun t e => tput t e.1 e.2) r.1.fw.reparity }
  if put.length < l.length then (s, put.length)
  else (ns.foldl (fun (t : State) n => match t.band n with
    | some bd => (t.setBand n { bd with doneRow := bd.window }).stripeJournal (.done n bd.window)
    | none => t) s, put.length)

/-! ### Recovery as a whole (R266, R270) -/

/-- The map and the tables are rebuilt and the groups of the scan applied, with their records waiting for flush A: the state, and
the groups applied and dropped (R266). -/
def State.rebuildMap (s : State) (f : Found) (p : Replay) : State × Nat × Nat :=
  let s := s.withFw { s.fw with
    entries := [], dealloc := [], pageTab := p.pageTab, blocks := p.blocks, durFrontier := p.frontier, jWait := [], jFlush := none
    dirtySince := [], snaps := s.fw.snaps.filter (·.complete) }
  let scan := s.scanned p
  let host := groupList (scan.filter fun x => uKind x.2 == 0)
  let whole (g : Nat × List (Nat × List Word)) : Bool := groupComplete (g.2.map fun x => uSeq x.2) || hasRecord f.recs g.1
  let ok := host.filter whole
  let top := scan.foldl (fun m x => max m (uSeq x.2)) (s.fw.journal.foldl (fun m r => max m r.seqNo) 0)
  let s := s.withFw { s.fw with seqC := (top + 256) / 256 * 256, seqTop := top }
  let s := if f.lost then s.scanAll f.recs else f.recs.foldl State.replayRec s.loadPages
  let s := ok.foldl (fun (t : State) g => g.2.foldl State.applyUnit t) s
  let dead := s.fw.pageTab.filter fun e => !s.pageReads e.1 e.2
  let s := dead.foldl (fun (t : State) e => t.rebuildPage e.1) s
  let ix := s.replayPages (f.recs ++ s.fw.jWait)
  -- a page with more than 1,024 records is current at once (R268)
  (s.withFw { s.fw with replayIndex := ix.filter fun e => e.2 ≤ 1024 }, ok.length, host.length - ok.length)

/-- Recovery (R266): map and tables, erase-indeterminate blocks and closed bands with flush A, the first bands with flush B, the
stripes with flush C, and the summary. The firmware marks again the DRAM devices that were marked (R415) and prepares Assay (R348). -/
def State.recover (s : State) (bad warned failed : List Nat) (rebuilt : Nat) (again : Bool) : State :=
  let s := s.fw.dramMarks.foldl (fun (t : State) e => t.markDevice e.1 e.2) s.asyPrepare
  let s := s.withFw { s.fw with flash := s.fw.flash.filter fun e => !bad.contains e.1 }
  let f := s.findRecords bad
  let p := s.replayTables f
  let pfail := s.fw.pfailFlush
  let pages := ((s.scanned p).foldl (fun (t : Tab Unit) x => sAdd t (x.1 / 4)) []).length
  let r := s.rebuildMap f p
  let s := warned.foldl (fun (t : State) w => t.setBlk (blockOf w) { t.blk (blockOf w) with marked := true, ew := true }) r.1
  let cut := s.fw.blocks.filter fun e => e.2.state == 1 || e.2.state == 4
  let s := cut.foldl (fun (t : State) e => t.eraseIndet e.1 false) s
  let stood := (s.fw.bands.filter fun e => e.2.state == 0).map (·.1)
  let s := (s.fw.bands.map (·.1)).foldl State.settleBand (s.withFw { s.fw with released := [] })
  let s := s.countValid
  let s := s.goodDies.foldl (fun (t : State) d => t.eraseOn failed d 9) s
  let s := s.startBands [0, 1, 2, 3, 4, 6, 3]
  let q := s.reconcile stood
  let s := q.1.stripeSync.flushNow false
  let clean := match (f.recs.filter fun r => r != .nop).getLast? with
    | some (.checkpoint c _ _) => c
    | _ => false
  let sev := if rebuilt ≠ 0 then 3 else if clean then 1 else 2
  let body := bodyOf [(0, 1, b2n clean + 2 * b2n pfail + 4 * b2n again),
    (4, 4, countIf (fun r => r != .nop) f.recs), (8, 4, pages), (12, 4, r.2.1), (16, 4, r.2.2), (20, 4, rebuilt),
    (24, 2, cut.length), (26, 2, q.2), (28, 4, s.now / 1000000)]
  let s := s.logFw sev (fwCore 31) 0x0102 body
  if clean then s else s.addLife 7 1

/-- RECOVERY (R255 to R270, R388): at every start but a wake from Idle-Retain, before ready: `bad` lists units that neither decode
nor are rebuilt, `warned` those that the neighbour check finds above the early-warning threshold (R265), `failed` blocks whose
first erase fails, `rebuilt` counts units rebuilt from parity, and `again` says that a reset ended an earlier pass (R269). -/
def execRecovery (bad warned : List (BitVec 40)) (failed : List BlockId) (rebuilt : BitVec 16) (again : Bool) (s : State) : Out :=
  .next (
    if s.mode = 1 then s.recover (bad.map (·.toNat)) (warned.map (·.toNat)) (failed.map (·.toNat)) rebuilt.toNat again else s)

/-- MAP_PAGE_REPLAY (R268): a page with index records is brought current; a resident one is rewritten and dirty. -/
def execMapPageReplay (mpn : BitVec 32) (s : State) : Out :=
  .next (
    match tget s.fw.replayIndex mpn.toNat with
    | none => s
    | some _ => State.fillFrame (s.withFw { s.fw with replayIndex := tdel s.fw.replayIndex mpn.toNat }) mpn.toNat)

end Sys2Proof.Machine
end

