-- ==== Sys2Proof/Machine/Redundancy.lean ====
section
/-! DEFINITION. Losses, repair, rebuild, reshape, patrol and the stripe journal (R380 to R400). -/

namespace Sys2Proof.Machine

open Sys2Proof

/-! ### Losses (R380) -/

/-- LUN_OFFLINE_TIMEOUT (R380): a LUN offline for 1 s makes its die lost. -/
def execLunOfflineTimeout (die : BitVec 9) (s : State) : Out :=
  .next (
    if (tget s.fw.offlineAt die.toNat).isSome then
      s.blaming (s.flt.blamedDies.contains die.toNat) fun s => s.loseDie die.toNat 1
    else s)

/-! ### One stripe (R363, R383) -/

/-- The PPAs of the data slots of a stripe, given its number. -/
def State.stripePpas (s : State) (n : Nat) : List Nat :=
  match s.band (n / 2 ^ 19) with
  | none => []
  | some bd =>
    let row := n % 2 ^ 19 / 128
    match (bd.layoutAt (n / 2 ^ 19) row).1[n % 128]? with
    | none => []
    | some ds => (List.range (4 * bd.k)).map fun i => bd.ppaOn (ds.getD (i / 4) 0) row (i % 4)

/-- The use of the band of a stripe. -/
def State.stripeUse (s : State) (n : Nat) : Nat := ((s.band (n / 2 ^ 19)).map (·.use)).getD 3

/-- The units of a stripe that are valid (R381, R383). -/
def State.stripeValid (s : State) (n : Nat) : List Nat :=
  (s.stripePpas n).filter fun p => (tget s.fw.flash p).isSome && s.holdsValid p

/-- The stripe holds no valid unit. -/
def State.stripeStale (s : State) (n : Nat) : Bool := (s.stripeValid n).isEmpty

/-- Every valid unit of a stripe leaves it (R216, R383). -/
def State.moveStripe (s : State) (n : Nat) (ws : List StripeAt) (warned : List Nat) : State :=
  (s.moveOut (s.stripeUse n) 5 ws warned (s.stripeValid n)).releaseIfEmpty (n / 2 ^ 19)

/-- STRIPE_REPAIR (R382, R383): the stripe that failed first is relocated, and is repaired once it holds no valid unit. -/
def execStripeRepair (places : List StripeAt) (warned : List (BitVec 40)) (s : State) : Out :=
  .next (
    match s.fw.repairs with
    | [] => s
    | (n, _) :: rest =>
      if !s.programsOn || !s.backgroundOn then s
      else
        let s := s.moveStripe n places (warned.map (·.toNat))
        if s.stripeStale n then s.withFw { s.fw with repairs := rest, repairedEver := s.fw.repairedEver + 1 } else s)

/-! ### Rebuild (R383 to R386) -/

/-- The stripes that hold a valid unit, by number. -/
def State.validStripes (s : State) : Tab StripeSpot :=
  s.fw.flash.foldl (fun (t : Tab StripeSpot) e =>
    if s.holdsValid e.1 then match s.spotOf e.1 with
      | some x => tput t x.number x
      | none => t
    else t) []

/-- The place of a stripe in the order of R384, the first rank first: loss count, degraded reads served, kind of band. -/
def State.rebuildRank (s : State) (x : StripeSpot) : Nat :=
  let c := if 2 ≤ s.lossCount x.dies then 0 else 1
  let r := if s.fw.served.contains x.number then 0 else 1
  let u := x.band.use
  let k := if u = 5 ∨ u = 6 then 0 else if u = 4 then 1 else if u = 0 then 2 else 3
  8 * c + 4 * r + k

/-- The stripe that rebuild takes next (R384). -/
def State.nextRebuild (s : State) : Option Nat :=
  let l := s.validStripes.filter fun e => 0 < s.lossCount e.2.dies
  (l.foldl (fun (m : Option (Nat × Nat)) e =>
    let r := s.rebuildRank e.2
    match m with
    | some x => if r < x.1 then some (r, e.1) else m
    | none => some (r, e.1)) none).map (·.2)

/-- REBUILD (R381, R383, R384, R386): the next stripe of lost members is relocated; a checkpoint follows every 1,024 stripes; when no
stripe with a valid unit has a lost member, the rebuild is done and the level that applies is requested. -/
def execRebuild (places : List StripeAt) (warned : List (BitVec 40)) (s : State) : Out :=
  .next (
    if !s.programsOn || !s.backgroundOn then s
    else match s.nextRebuild with
    | none => s
    | some n =>
      let s := s.moveStripe n places (warned.map (·.toNat))
      if !s.stripeStale n then s
      else
        let c := s.fw.rebuildDone + 1
        let s := s.withFw { s.fw with rebuildDone := c, rebuildLast := n }
        let s := if c % 1024 = 0 then s.stripeJournal (.rebuild false n c) else s
        let s := if s.lossLevel = 2 then
            (s.withFw { s.fw with rebuildAt := none, rebuildDone := 0, served := [] }).stripeJournal (.rebuild true n c)
          else s
        s.checkHealth)

/-! ### Reshape (R392 to R394) -/

/-- Channels that hold good dies (R361, R392). -/
def State.goodChannels (s : State) : Nat :=
  ((List.range 32).filter fun c => s.goodDies.any fun d => d / 16 == c).length

/-- A band of another shape than the target that is not released; with a valid host unit. -/
def State.otherShapes (s : State) : List (Nat × Band) := s.fw.bands.filter fun e => e.2.state != 2 && e.2.k != s.fw.reshapeK
def State.otherValid (s : State) : Bool := s.otherShapes.any fun e => !s.bandEmpty e.1

def State.reshapeRecord (s : State) : State :=
  s.stripeJournal (.reshape s.fw.reshapeState s.fw.reshapeK s.fw.reshapeBoundary s.fw.reshapeMoved)

/-- Moving goes over to Draining, and Draining to Idle, as soon as R393 says. -/
def State.reshapeStep (s : State) : State :=
  let s := if s.fw.reshapeState = 2 ∧ s.otherValid = false then State.reshapeRecord (s.withFw { s.fw with reshapeState := 3 }) else s
  if s.fw.reshapeState = 3 ∧ s.otherShapes.isEmpty = true then
    State.reshapeRecord (s.withFw { s.fw with reshapeState := 0, shapeK := s.fw.reshapeK })
  else s

/-- A new target: Planned, then Moving at once, the boundary at the start (R393, R394). -/
def State.reshapePlan (s : State) (k : Nat) : State :=
  let s := State.reshapeRecord (s.withFw { s.fw with reshapeState := 1, reshapeK := k, reshapeBoundary := 0, reshapeMoved := 0 })
  State.reshapeRecord (s.withFw { s.fw with reshapeState := 2 })

/-- The stripe at the boundary: the next of another shape that holds a valid unit, from the start again where none is left behind it
(R394). -/
def State.nextReshape (s : State) : Option Nat :=
  let l := (s.validStripes.filter fun e => e.2.band.k != s.fw.reshapeK).map (·.1)
  match l.find? fun n => s.fw.reshapeBoundary < n with
  | some n => some n
  | none => l.head?

/-- Moving: the stripe at the boundary is relocated, with a checkpoint after every 1,024 (R394). -/
def State.reshapeMove (s : State) (places : List StripeAt) (warned : List Nat) : State :=
  match s.nextReshape with
  | none => s.reshapeStep
  | some n =>
    let s := s.moveStripe n places warned
    if !s.stripeStale n then s
    else
      let m := s.fw.reshapeMoved + 1
      let s := s.withFw { s.fw with reshapeBoundary := n, reshapeMoved := m }
      let s := if m % 1024 = 0 then s.reshapeRecord else s
      s.checkHealth.reshapeStep

/-- RESHAPE (R392 to R394): in Idle, or where losses make the target impossible, a new target of 4 to 16 within the channels;
in Moving, the stripe at the boundary is relocated; Draining waits for the releases. -/
def execReshape (target : BitVec 5) (places : List StripeAt) (warned : List (BitVec 40)) (s : State) : Out :=
  .next (
    let k := target.toNat
    let fits (k : Nat) : Bool := 4 ≤ k && k ≤ 16 && k + 2 ≤ s.goodChannels
    if [7, 8, 9].contains s.mode then
      (if s.fw.reshapeState = 0 ∨ s.fw.reshapeState = 4 then s
       else State.reshapeRecord (s.withFw { s.fw with reshapeSaved := s.fw.reshapeState, reshapeState := 4 }))
    else
      let s := if s.fw.reshapeState = 4 then s.withFw { s.fw with reshapeState := s.fw.reshapeSaved } else s
      if s.fw.reshapeState = 0 ∨ fits s.fw.reshapeK = false then
        (if fits k && k != s.fw.shapeK then (s.reshapePlan k).reshapeStep.checkHealth else s)
      else if s.fw.reshapeState = 2 && s.programsOn && s.backgroundOn then s.reshapeMove places (warned.map (·.toNat))
      else s.reshapeStep.checkHealth)

/-! ### Patrol (R395 to R397) -/

/-- A stripe goes to the repair list once (R382). -/
def State.repairLater (s : State) (n : Nat) : State :=
  if s.fw.repairs.any fun r => r.1 == n then s else s.withFw { s.fw with repairs := s.fw.repairs ++ [(n, s.now)] }

def State.stripeNumberAt (s : State) (ppa : Nat) : Option Nat :=
  (s.spotOf ppa).map fun x => stripeNumber x.serial x.row x.j

def bump (t : Tab Nat) (k : Nat) : Tab Nat := tput t k (tgetD t k 0 + 1)

/-- What patrol does with its findings (R396). -/
def State.patrolActs (s : State) (f : PassFindings) : State :=
  let s := f.failed.foldl (fun (t : State) p =>
    let t := t.withFw { t.fw with dieFails := bump t.fw.dieFails (dieOfBlock (blockOf p.toNat)) }
    match t.stripeNumberAt p.toNat with | some n => t.repairLater n | none => t) s
  let s := f.located.foldl (fun (t : State) p =>
    let t := t.withFw { t.fw with dieMismatch := bump t.fw.dieMismatch (dieOfBlock (blockOf p.toNat)) }
    match t.stripeNumberAt p.toNat with
    | some n => (t.repairLater n).tell 3 .mismatch n
    | none => t) s
  let s := f.unlocated.foldl (fun (t : State) n => (t.repairLater n.toNat).tell 4 .mismatchOpen n.toNat) s
  f.warnings.foldl (fun (t : State) p => t.earlyWarning p.toNat) s

/-- The summary of a pass (R397). -/
def State.passSummary (s : State) (first last : Nat) (f : PassFindings) (lap : Bool) (lost : Nat) : PassSummary :=
  ⟨first, last, f.checked.toNat, f.pages.toNat, f.located.length, f.unlocated.length, f.failed.length, lost, f.warnings.length,
    f.ms.toNat, s.hours - f.ms.toNat / 360000, b2n f.complete + 2 * b2n f.byReset + 4 * b2n f.byMode + 8 * b2n lap⟩

/-- The 64 bytes of a summary, as a number. -/
def PassSummary.word (p : PassSummary) : BitVec 512 :=
  payloadOf [(0, 8, p.first), (8, 8, p.last), (16, 4, p.checked), (20, 4, p.pages), (24, 4, p.located), (28, 4, p.notLocated),
    (32, 4, p.slots), (36, 4, p.lost), (40, 4, p.warnings), (44, 4, p.ms), (48, 4, p.hours), (52, 1, p.flags)]

/-- The two records of a patrol summary (R397, R549, R550). -/
def State.patrolRecord (s : State) (p : PassSummary) : State :=
  let c := fwCore 32
  s.logAll [⟨1, false, false, true, c, 0x0103, p.word.truncate 256⟩,
    ⟨1, false, false, false, c, 0xFFFF, (p.word >>> 256).truncate 256⟩]

/-- PATROL_LAP (R395, R396): a lap ends, its findings are acted on and an Info record carries its summary. -/
def execPatrolLap (found : PassFindings) (s : State) : Out :=
  .next (
    if !s.backgroundOn then s
    else
      let before := s.fw.lostEver
      let t := s.patrolActs found
      let top := (t.fw.bandSerial + 1) * 2 ^ 19 - 1
      let p := t.passSummary 0 top found true (t.fw.lostEver - before)
      let t := t.withFw { t.fw with patrolLap := t.fw.patrolLap + 1, lastLap := t.hours - t.fw.patrolAt, patrolAt := t.hours }
      t.patrolRecord p)

/-- RANGE_PASS (R397): the pass acts as patrol does, and its summary is kept for page 0xC2. -/
def execRangePass (first last : BitVec 64) (found : PassFindings) (s : State) : Out :=
  .next (
    if !s.backgroundOn then s
    else
      let before := s.fw.lostEver
      let t := s.patrolActs found
      t.withFw { t.fw with lastPass := some (t.passSummary first.toNat last.toNat found false (t.fw.lostEver - before)) })

/-! ### The stripe journal (R389) -/

/-- STRIPE_JOURNAL_WRITE (R389 to R391): a write to all live copies, of which one may fail; a copy that is missing, lost or failed
before starts on `die`. -/
def execStripeJournalWrite (failed : Option (Fin 3)) (die : BitVec 9) (s : State) : Out :=
  .next (s.stripeWrite (failed.map (·.val)) die.toNat)

end Sys2Proof.Machine
end

