-- ==== Sys2Proof/Machine/NvmIo.lean ====
section
/-! DEFINITION. The NVM I/O commands as firmware carries them out: Flush, Write, Read, Write Uncorrectable, Compare, Write
Zeroes, Dataset Management, Verify (R149 to R161, R172, R200, R201, R205, R214 to R220, R240 to R242, R378, R387, R461). -/

namespace Sys2Proof.Machine

open Sys2Proof

/-! ### What comes before the work -/

/-- The slot holds a dispatched I/O command of this opcode that has not been answered and does not wait already, in a mode that
serves I/O (R43). -/
def State.ioSlot (s : State) (k op : Nat) : Option Slot :=
  match s.slot k with
  | some e => if s.servesIo && !e.admin && cmdOp e.cmd == op && e.dispatched && e.completion.isNone && !s.orderWaits e.order then some e else none
  | none => none

/-- The status with which a command is turned away: as its dispatch found, else cancelled (R172). -/
def Slot.turnedAway (e : Slot) : Option Nat :=
  match e.verdict with
  | some st => some st
  | none => if e.cancelled then some (stat 0 0x08) else none

/-- The command ends with a status: its completion is sent and posted when it may be (R142). -/
def State.finish (s : State) (k status : Nat) (dw0 : Nat := 0) : State :=
  ((s.complete k status dw0 0).post k).shutdownStep

/-- The beads of a command that its endpoint holds are freed. -/
def State.freeAll (s : State) (l : List Nat) (ep : Nat) : State :=
  l.foldl (fun (t : State) b => if t.granted b ep then t.releaseBead b else t) s

def isFmt5 (fmt : Nat) : Bool := fmt == 5

/-- The sector run of unit `i` of a command in format 5, first sector and count; else the whole unit (R141). -/
def State.runOf (s : State) (e : Slot) (i : Nat) : Nat × Nat :=
  let m := s.sectorMask e i
  let first := ((List.range 8).find? fun k => m / 2 ^ k % 2 == 1).getD 0
  (first, countIf (fun k => m / 2 ^ k % 2 == 1) (List.range 8))

/-! ### NVM_FLUSH (R158) -/

/-- NVM_FLUSH (R153, R158): success at dispatch. -/
def execNvmFlush (slot : SlotId) (s : State) : Out :=
  .next (match s.ioSlot slot.toNat 0x00 with
    | none => s
    | some e => s.finish slot.toNat ((e.turnedAway).getD 0))

/-! ### NVM_WRITE (R149, R150, R159, R214, R257) -/

/-- The units of one portion wait for their stripe: a whole segment for direct placement, any other portion for staging
(R214). They take their sequence numbers when they are issued (R204). -/
def State.addPortion (s : State) (e : Slot) (l : List (Nat × Nat)) : State :=
  let ws := l.mapIdx fun i x => ({
    order := e.order, ns := e.nsid - 1, unit := e.firstUnit + x.1, seq := none, bead := x.2, mask := s.sectorMask e x.1
    segment := (e.firstUnit + x.1) / 64, index := i, count := l.length, ranged := false } : Waiting)
  if l.length = 64 && ws.all fun w => w.mask == 0xFF then s.withFw { s.fw with direct := s.fw.direct ++ [ws] }
  else s.withFw { s.fw with staging := s.fw.staging ++ ws }

/-- The portions of a command, segment by segment (R149): lists of unit index and bead. -/
def portionsOf (firstUnit : Nat) (beads : List Nat) : List (List (Nat × Nat)) :=
  let l := beads.mapIdx fun i b => (i, b)
  let a := firstUnit / 64
  (List.range ((firstUnit + beads.length + 63) / 64 - a)).map fun g => l.filter fun x => (firstUnit + x.1) / 64 == a + g

/-- Full staging stripes are issued at once (R376), each at the next place given. -/
def State.fillStaging (s : State) : List StripeAt → State
  | [] => s
  | w :: ws =>
    if s.fw.staging.isEmpty || decide (s.fw.staging.length < s.placeRoom 0 w) then s else (s.issueStaging w).fillStaging ws

/-- The data of a command has been pulled into beads of its endpoint: a failure that the engine reported ends it with the engine's
status (R139, R172); while data is missing or a bead stands poisoned it waits. -/
def State.pulled (s : State) (k : Nat) (e : Slot) (bs : List Nat) (f : State → State) : State :=
  match e.pullStopped with
  | some st => (s.freeAll bs e.ep).finish k st
  | none => if bs.length ≠ e.units || bs.any (fun b => !s.granted b e.ep || s.mem.spanPoisoned b) then s else f s

/-- NVM_WRITE (R149, R150, R153, R159, R172, R214, R257, R376): `beads` hold the units that write data ready delivered. Three
direct portions fill a wordline and staged units a stripe; what fills neither waits for its timeout. The command completes
when every portion has committed. -/
def execNvmWrite (slot : SlotId) (beads : List BeadId) (directAt stagingAt : List StripeAt) (s : State) : Out :=
  .next (
    let k := slot.toNat
    match s.ioSlot k 0x01 with
    | none => s
    | some e =>
      let bs := beads.map (·.toNat)
      match e.turnedAway with
      | some st => (s.freeAll bs e.ep).finish k st
      | none => s.pulled k e bs fun s =>
        if !s.programsOn then s
        else
          let s := (portionsOf e.firstUnit bs).foldl (fun (t : State) l => t.addPortion e l) s
          ((s.issueGroups s.fw.direct.length directAt).fillStaging stagingAt).postAll)

/-! ### Reading units (R172, R200, R201, R205, R378, R387) -/

/-- What a read of a unit gives. -/
inductive Got where
  /-- The deallocated-read value (R201). -/
  | zeros
  /-- The unit as stored. -/
  | stored (w : List Word)
  /-- A hit in the read-hot cache: its bead (R186). -/
  | cached (bead : Nat)
  /-- No data, with the status. -/
  | failed (status : Nat)
  deriving DecidableEq, Repr

/-- Deallocated blocks are reported as errors: `DULBE` of Error Recovery, kept for each namespace (R127, R172). -/
def State.dulbe (s : State) (nsid : Nat) : Bool := tgetD s.hqe.features (0x05 + nsid * 0x100000) 0 / 2 ^ 16 % 2 == 1

/-- A slot that fails every stage is summarised for log page 0xC3 (R333, R355), its result word a free value. -/
def State.slotFailed (s : State) (p : Nat) : State :=
  let d := dieOfBlock (blockOf p)
  State.tick (s.withFw { s.fw with
    slotFails := ((p, (freshWord s).toNat % 2 ^ 32, s.hours) :: s.fw.slotFails).take 252
    dieSlotFails := tput s.fw.dieSlotFails d (min 65535 (tgetD s.fw.dieSlotFails d 0 + 1)) })

/-- What follows from the read of a place that gave no good unit there: on a lost die its stripe has served a degraded read; a slot
that failed on a good die is summarised and its stripe repaired, and the page counts for its block where it was rebuilt
(R243, R333, R379, R382, R384). -/
def State.readFailed (s : State) (p : Nat) (rebuilt : Bool) : State :=
  let stripe := (s.spotOf p).map (·.number)
  let b := blockOf p
  if s.dieLost (dieOfBlock b) then
    match stripe with
    | some n => if s.fw.served.contains n then s else s.withFw { s.fw with served := n :: s.fw.served }
    | none => s
  else
    let s := s.slotFailed p
    let r := s.blk b
    let s := if rebuilt && !r.rebuilt.contains (rowOf p) then s.setBlk b { r with rebuilt := rowOf p :: r.rebuilt } else s
    match stripe with
    | some n => s.repairLater n
    | none => s

/-- A read of a mirrored unit counts for its mirror, whose turn it is every other time (R242): the mirror's place where it is its
turn. -/
def State.mirrorTurn (s : State) (k u : Nat) : State × Option Nat :=
  match s.fw.mirrors.find? fun m => m.ns == k && m.unit == u with
  | none => (s, none)
  | some m =>
    let fresh := decide (s.now < m.since + 1000000000)
    let m' := { m with reads := if fresh then m.reads + 1 else 1, since := if fresh then m.since else s.now, turn := !m.turn }
    (s.withFw { s.fw with mirrors := s.fw.mirrors.map fun x => if x = m then m' else x }, if m.turn then some m.ppa else none)

/-- The read of a unit through its entry (R172, R205, R378): by its mirror at the mirror's turn, dropped where it fails the tag check;
else at the entry's place, rebuilt from parity where that fails, and lost beyond the masked set (R242, R387). -/
def State.gotStored (s : State) (k u e : Nat) (r : UnitRead) : State × Got :=
  let m := s.mirrorTurn k u
  let copy := m.2.bind fun p => (tget s.fw.flash p).bind fun w => if tagGood w k u e then some (p, w) else none
  match copy with
  | some (p, w) => (m.1.countRead p, .stored w)
  | none =>
    let s := if m.2.isSome then m.1.withFw { m.1.fw with mirrors := m.1.fw.mirrors.filter fun x => !(x.ns == k && x.unit == u) } else m.1
    let p := entPpa e
    let s := s.countRead p
    let s := if r.soft then s.withFw { s.fw with softDay := s.fw.softDay + 1 } else s
    let s := if r.warn then s.earlyWarning p else s
    match s.unitRead p r.bad.toNat fun w => tagGood w k u e with
    | .good w rebuilt => (if rebuilt then s.readFailed p true else s, .stored w)
    | .lost cause => ((s.readFailed p false).loseUnit k u cause (((s.spotOf p).map (·.number)).getD 0), .failed (stat 2 0x81))

/-- The read of a unit (R172, R200, R201, R241): a corrupted entry has its page rebuilt first (R212). -/
def State.gotUnit (s : State) (k u : Nat) (r : UnitRead) : State × Got :=
  match s.entryKey k u with
  | none => (s, .failed (stat 0 0x80))
  | some key =>
    let s := s.buildPage (key / 1024)
    let s := if entValid (s.entryAt key) then s else s.rebuildPage (key / 1024)
    let e := s.entryAt key
    if entTrim e then (s, if entPpa e = 0 ∧ s.dulbe (k + 1) = true then .failed (stat 2 0x87) else .zeros)
    else if entPoison e || !entValid e then (s, .failed (stat 2 0x81))
    else match s.fw.hot.find? fun h => h.ns == k && h.unit == u && !s.mem.spanPoisoned h.bead with
    | some h => (s, .cached h.bead)
    | none => s.gotStored k u e r

/-- The data and host metadata that a read gives. -/
def State.gotData (s : State) : Got → Option (List Word × List Word)
  | .stored w => some (uData w, uMeta w)
  | .cached b => some (s.mem.readDoubles (beadAddr b) 512, s.mem.readDoubles (beadMetaAddr b) 8)
  | _ => none

/-- Read the units of a command in order: what each gives. -/
def State.gotAll (s : State) (k : Nat) : List Nat → List UnitRead → State × List Got
  | [], _ => (s, [])
  | u :: us, rs =>
    let g := s.gotUnit k u (rs.headD ⟨0, false, false⟩)
    let q := g.1.gotAll k us (rs.drop 1)
    (q.1, g.2 :: q.2)

/-- The status of the first failing unit (R172). -/
def firstFailure (l : List Got) : Option Nat :=
  l.findSome? fun g => match g with
    | .failed st => some st
    | _ => none

def Got.ok : Got → Bool
  | .failed _ => false
  | _ => true

/-- The host metadata of the deallocated-read value: the guard of zero data, tags all ones (R201). -/
def zeroMeta (fmt : Nat) (first : Bool) : List Word :=
  if piBytes fmt = 0 then List.replicate 8 0#64
  else
    let at_ := piAt fmt first
    let g := guardOf fmt (List.replicate (4096 + at_) 0#8)
    let p := beBytes (guardBytes fmt) g ++ beBytes 2 0xFFFF ++ List.replicate (refBytes fmt) 0xFF#8
    bytesWords ((List.replicate at_ 0#8 ++ p ++ List.replicate 64 0#8).take 64)

/-- A bead takes a unit: data, host metadata, its tag where there is one (R202), and the mark of R453 for the deallocated-read
value. -/
def State.loadBead (s : State) (b : Nat) (data hmeta tag : List Word) (plain : Bool) : State :=
  let m := s.mem.writeDoubles (beadAddr b) (fitWords 512 data)
  let m := m.writeDoubles (beadMetaAddr b) (fitWords 8 hmeta)
  let m := if tag.isEmpty then m else m.writeDoubles (beadMetaAddr b + 64) (fitWords 4 tag)
  s.withMem (m.writeDouble (beadMetaAddr b + 112) (b2n plain * 2 ^ 56) false)

/-- A bead takes all of another, poison included (R185). -/
def State.copyBead (s : State) (a b : Nat) : State := (List.range 528).foldl (fun (t : State) d => t.copyDouble a b d) s

/-! ### Read-hot units (R240 to R242) -/

/-- The four sketch counters of a unit: fields of 14 bits of its hash under key slot 1 (R240; log entry 67). -/
def State.sketchKeys (s : State) (ep k u : Nat) : List Nat :=
  let h := (sipHash (s.hashKey 1) (BitVec.ofNat 64 (u + k * 2 ^ 48))).toNat
  (List.range 4).map fun r => ep * 65536 + r * 16384 + h / 2 ^ (14 * r) % 16384

/-- A read is counted: the state, and whether the unit is hot, its estimate 64 or more (R240). -/
def State.countHot (s : State) (ep k u : Nat) : State × Bool :=
  let ks := s.sketchKeys ep k u
  let t := ks.foldl (fun t x => tput t x (min 255 (tgetD t x 0 + 1))) s.fw.sketch
  (s.withFw { s.fw with sketch := t }, decide (64 ≤ (ks.map fun x => tgetD t x 0).foldl min 255))

def State.hotOf (s : State) (k u : Nat) : Option HotUnit := s.fw.hot.find? fun h => h.ns == k && h.unit == u

/-- The cached unit of an owner with the oldest last hit (R241). -/
def State.coldest (s : State) (ep : Nat) : Option HotUnit :=
  (s.fw.hot.filter fun h => h.owner == ep).foldl (fun (m : Option HotUnit) h => match m with
    | none => some h
    | some x => if h.lastHit < x.lastHit then some h else some x) none

/-- The reads of a mirror in the last second. -/
def State.recentReads (s : State) (m : Mirror) : Nat := if s.now < m.since + 1000000000 then m.reads else 0

/-- Mirror a unit (R242): a second copy as kind 2 in a reclaim band in another channel; a full table drops the mirror with the
fewest reads in the last second. -/
def State.mirror (s : State) (k u : Nat) (w : StripeAt) : State :=
  match (s.entryKey k u).map s.entryAt with
  | none => s
  | some e =>
    match s.unitAt (entPpa e) 0 with
    | none => s
    | some x =>
      match (s.readyBand 3 w).putAt 3 w [unitFrom x 2] with
      | some (t, p :: _) =>
        if ppaChan p = ppaChan (entPpa e) then s
        else
          let least := (t.fw.mirrors.map t.recentReads).foldl min (2 ^ 64)
          let kept := if t.fw.mirrors.length < 65536 then t.fw.mirrors
            else ((takeFirst (fun (y : Mirror) => t.recentReads y == least) t.fw.mirrors).map (·.2)).getD t.fw.mirrors
          t.withFw { t.fw with mirrors := kept ++ [⟨k, u, p, 0, t.now, true⟩] }
      | some (t, []) => t
      | none => s.readyBand 3 w

/-- A unit that is hot is cached by a copy of its bead into class 15, for which a refused owner evicts its coldest, or mirrored where
it was evicted less than 1 s ago (R241, R242). A mirrored unit stays so. -/
def State.admitHot (s : State) (ep k u bead : Nat) (w : Option StripeAt) : State :=
  let lately := s.fw.evicted.any fun x => x.1 == k && x.2.1 == u && decide (s.now < x.2.2 + 1000000000)
  match s.fw.mirrors.any fun m => m.ns == k && m.unit == u, lately, w with
  | true, _, _ => s
  | false, true, some w => s.mirror k u w
  | false, _, _ =>
    let room (t : State) : Bool := decide (t.fw.hot.length < 4096) && decide (t.decideBeads 15 1 = .grant)
    let s := if room s then s else (match s.coldest ep with | some h => s.evictHot h | none => s)
    if room s then
      let r := s.takeBead 15 ep
      let t := r.1.poolRefresh.copyBead bead r.2
      t.withFw { t.fw with hot := t.fw.hot ++ [⟨k, u, r.2, ep, t.now⟩] }
    else s

/-- What a read does to the read-hot index: a hit is noted, any other read of stored data counts, and a hot unit is admitted from the
bead that holds it (R240 to R242). -/
def State.heat (s : State) (ep k u bead : Nat) (g : Got) (w : Option StripeAt) : State :=
  match g with
  | .cached _ => s.withFw { s.fw with hot := s.fw.hot.map fun h => if h.ns = k ∧ h.unit = u then { h with lastHit := s.now } else h }
  | .stored _ =>
    let r := s.countHot ep k u
    if r.2 then r.1.admitHot ep k u bead w else r.1
  | _ => s

/-! ### NVM_READ (R141, R153) -/

/-- A bead of class 0 is taken for each unit that has data and, once the unit has been counted, passed to the engine with its entry
of the read-data messages (R141, R186, R241). -/
def State.readOut (s : State) (k : Nat) (e : Slot) (fmt : Nat) (first : Bool) (w : Option StripeAt) (i : Nat) : List Got → State
  | [] => s
  | g :: t =>
    let fill (s : State) (b : Nat) : State := match g with
      | .stored x => s.loadBead b (uData x) (uMeta x) ((x.drop 520).take 4) false
      | .cached a => s.copyBead a b
      | _ => s.loadBead b (List.replicate 512 0#64) (zeroMeta fmt first) [] true
    let s := match g with
      | .failed _ => s
      | _ =>
        let r := s.takeBead 0 e.ep
        let u := (fill r.1.poolRefresh r.2).heat e.ep (e.nsid - 1) (e.firstUnit + i) r.2 g w
        let u := u.giveBead r.2 113
        let run := u.runOf e i
        match u.slot k with
        | some f => u.setSlot k { f with transfers := f.transfers ++ [({ unit := i, bead := r.2, sector := run.1, sectors := run.2 } : Transfer)] }
        | none => u
    s.readOut k e fmt first w (i + 1) t

/-- NVM_READ (R153, R172, R200, R205, R240 to R242, R378, R461): every unit is read through its entry; those with data go to
the engine, and the completion is sent with the status of the first failing unit. While class 0 cannot supply the beads the
command waits. -/
def execNvmRead (slot : SlotId) (reads : List UnitRead) (mirrorAt : Option StripeAt) (s : State) : Out :=
  .next (
    let k := slot.toNat
    match s.ioSlot k 0x02 with
    | none => s
    | some e =>
      match e.turnedAway with
      | some st => s.finish k st
      | none =>
        let us := (List.range e.unitCount).map (e.firstUnit + ·)
        if s.decideBeads 0 us.length ≠ .grant then s
        else
          let n := s.activeNs e.nsid
          let r := s.gotAll (e.nsid - 1) us reads
          let t := r.1.readOut k e ((n.map (·.format)).getD 0) ((n.map (·.piFirst)).getD false) mirrorAt 0 r.2
          t.finish k ((firstFailure r.2).getD 0))

/-- NVM_VERIFY (R153, R172): every unit is read and checked, protection information too; no data is transferred. -/
def execNvmVerify (slot : SlotId) (reads : List UnitRead) (s : State) : Out :=
  .next (
    let k := slot.toNat
    match s.ioSlot k 0x0C with
    | none => s
    | some e =>
      match e.turnedAway with
      | some st => s.finish k st
      | none =>
        let us := (List.range e.unitCount).map (e.firstUnit + ·)
        let n := s.activeNs e.nsid
        let fmt := (n.map (·.format)).getD 0
        let pi := (n.map (·.pi)).getD 0
        let first := (n.map (·.piFirst)).getD false
        let r := s.gotAll (e.nsid - 1) us reads
        let checked := (us.zip r.2).mapIdx fun i x =>
          match r.1.gotData x.2 with
          | some (data, hmeta) =>
            (match r.1.cipherUnit false (e.nsid - 1) fmt (unitLba fmt x.1) (r.1.sectorMask e i) data with
            | none => Got.failed (stat 0 0x04)
            | some d =>
              match (if pi = 0 then none else piCheck fmt pi first e.cmd (wordBytes d) (wordBytes hmeta) (unitLba fmt x.1) i) with
              | some st => Got.failed st
              | none => x.2)
          | none => x.2
        r.1.finish k ((firstFailure checked).getD 0))

/-! ### NVM_COMPARE (R153, R172) -/

/-- Compare the host's unit in a bead with what a read gives: the status at which the comparison stops. The masked sectors and
the namespace's metadata are compared, ciphertext with ciphertext (R452). -/
def State.compareUnit (s : State) (e : Slot) (fmt : Nat) (first : Bool) (i b : Nat) (g : Got) : Option Nat :=
  let mask := s.sectorMask e i
  let data := s.mem.readDoubles (beadAddr b) 512
  let hmeta := (s.mem.readDoubles (beadMetaAddr b) 8).take (metaBytes fmt / 8)
  let same (d m : List Word) : Option Nat :=
    if ((List.range 8).all fun k => mask / 2 ^ k % 2 == 0 || sectorOf k data == sectorOf k d) && hmeta == m.take (metaBytes fmt / 8)
    then none else some (stat 2 0x85)
  match g with
  | .failed st => some st
  | .stored w => same (uData w) (uMeta w)
  | .cached a => same (s.mem.readDoubles (beadAddr a) 512) (s.mem.readDoubles (beadMetaAddr a) 8)
  | .zeros =>
    match s.cipherUnit true (e.nsid - 1) fmt (unitLba fmt (e.firstUnit + i)) mask (List.replicate 512 0#64) with
    | some d => same d (zeroMeta fmt first)
    | none => some (stat 0 0x04)

/-- Units are read and compared in order, none behind the first that fails or differs (R172): the status that ends it. -/
def State.compareAll (s : State) (e : Slot) (fmt : Nat) (first : Bool) (i : Nat) : List Nat → List UnitRead → State × Option Nat
  | [], _ => (s, none)
  | b :: bs, rs =>
    let g := s.gotUnit (e.nsid - 1) (e.firstUnit + i) (rs.headD ⟨0, false, false⟩)
    match g.1.compareUnit e fmt first i b g.2 with
    | some st => (g.1, some st)
    | none => g.1.compareAll e fmt first (i + 1) bs (rs.drop 1)

/-- NVM_COMPARE (R153, R172): units are read and compared in order up to the first failure or mismatch; `beads` hold the host's
units. -/
def execNvmCompare (slot : SlotId) (beads : List BeadId) (reads : List UnitRead) (s : State) : Out :=
  .next (
    let k := slot.toNat
    match s.ioSlot k 0x05 with
    | none => s
    | some e =>
      let bs := beads.map (·.toNat)
      match e.turnedAway with
      | some st => (s.freeAll bs e.ep).finish k st
      | none => s.pulled k e bs fun s =>
        let n := s.activeNs e.nsid
        let r := s.compareAll e ((n.map (·.format)).getD 0) ((n.map (·.piFirst)).getD false) 0 bs reads
        (r.1.freeAll bs e.ep).finish k (r.2.getD 0))

/-! ### Ranges (R151, R157, R218, R219) -/

/-- A range of units of a command waits for the flush that holds its record (R151, R204, R218). A count of 0 adds nothing. -/
def State.addRange (s : State) (e : Slot) (kind first count : Nat) : State :=
  if count = 0 then s
  else s.withFw { s.fw with ranges := s.fw.ranges ++ [⟨e.order, e.nsid - 1, kind, first, count, none⟩] }

/-- The early flush that such a command asks for (R151). -/
def State.flushFor (s : State) (e : Slot) : State := ((s.flushStart false s.fw.pfailStop).slotDone e.order).postAll

/-- WRITE_UNCORRECTABLE (R151, R219): every unit in range is poisoned; in format 5 the run must be whole units. -/
def execWriteUncorrectable (slot : SlotId) (s : State) : Out :=
  .next (
    let k := slot.toNat
    match s.ioSlot k 0x04 with
    | none => s
    | some e =>
      let lba := cmdSlba e.cmd
      let n := cmdBlocks e.cmd
      let fmt := s.fmtOf e.cmd
      match e.turnedAway with
      | some st => s.finish k st
      | none =>
        if fmt = 5 ∧ (lba % 8 ≠ 0 ∨ n % 8 ≠ 0) then s.finish k (stat 0 0x02)
        else
          let u := wholeUnits fmt lba n
          (s.addRange e 2 u.1 u.2).flushFor e)

/-- A partial unit of Write Zeroes: a bead of encrypted zeros for its sectors waits for staging, to be merged there. Where its segment
has whole units too it commits with their range, numbered as a unit of the whole portion (R149, R159, R218, R257). -/
def State.addZeroUnit (s : State) (e : Slot) (fmt : Nat) (whole : Nat × Nat) (i : Nat) : State :=
  let u := e.firstUnit + i
  let mask := sumOf (fun k =>
    let l := 8 * u + k
    if cmdSlba e.cmd ≤ l ∧ l < cmdSlba e.cmd + cmdBlocks e.cmd then 2 ^ k else 0) (List.range 8)
  let first := max e.firstUnit (u / 64 * 64)
  let last := min e.lastUnit (u / 64 * 64 + 63)
  let ranged := decide (0 < whole.2) && decide (whole.1 ≤ last) && decide (first < whole.1 + whole.2)
  match s.cipherUnit true (e.nsid - 1) fmt (8 * u) mask (List.replicate 512 0#64) with
  | none => s.orderFails e.order (stat 0 0x04)
  | some d =>
    let r := s.takeBead 2 e.ep
    let t := r.1.poolRefresh.loadBead r.2 d [] [] false
    t.withFw { t.fw with staging := t.fw.staging ++ [{
      order := e.order, ns := e.nsid - 1, unit := u, seq := none, bead := r.2, mask := mask, segment := u / 64
      index := u - first, count := last + 1 - first, ranged := ranged }] }

/-- WRITE_ZEROES (R151, R159, R218): whole units are trimmed, deallocated with `DEAC` or written as zeros; partial units at the
ends in format 5 are written by read-modify-write. While class 2 cannot supply their beads the command waits. -/
def execWriteZeroes (slot : SlotId) (s : State) : Out :=
  .next (
    let k := slot.toNat
    match s.ioSlot k 0x08 with
    | none => s
    | some e =>
      let fmt := s.fmtOf e.cmd
      match e.turnedAway with
      | some st => s.finish k st
      | none =>
        let whole := wholeUnits fmt (cmdSlba e.cmd) (cmdBlocks e.cmd)
        let parts := if fmt = 5 then (List.range (e.lastUnit - e.firstUnit + 1)).filter fun i =>
            !(decide (whole.1 ≤ e.firstUnit + i) && decide (e.firstUnit + i < whole.1 + whole.2)) else []
        if parts.length ≠ 0 ∧ s.decideBeads 2 parts.length ≠ .grant then s
        else
          let s := s.addRange e (if e.cmd.dw12.getLsbD 25 then 0 else 1) whole.1 whole.2
          (parts.foldl (fun (t : State) i => t.addZeroUnit e fmt whole i) s).flushFor e)

/-- DATASET_MANAGEMENT (R151, R157, R218): with Deallocate, the whole units of each entry are deallocated, partial units stay;
without, it completes at once. -/
def execDatasetManagement (slot : SlotId) (s : State) : Out :=
  .next (
    let k := slot.toNat
    match s.ioSlot k 0x09 with
    | none => s
    | some e =>
      let fmt := s.fmtOf e.cmd
      let lbas := ((s.activeNs e.nsid).map (·.lbas)).getD 0
      let list := s.cmdRuns e
      let s := match e.listBead with
        | some b => (s.freeAll [b] e.ep).setSlot k { e with listBead := none }
        | none => s
      match e.turnedAway with
      | some st => s.finish k st
      | none =>
        if !deallocates e.cmd then s.finish k 0
        else if list.any fun (x : Nat × Nat) => lbas < x.1 + x.2 then s.finish k (stat 0 0x80)
        else
          let s := list.foldl (fun (t : State) (x : Nat × Nat) =>
            let u := wholeUnits fmt x.1 x.2
            t.addRange e 0 u.1 u.2) s
          s.flushFor e)

end Sys2Proof.Machine
end

