-- ==== Sys2Proof/Machine/SigOps.lean ====
section
/-! DEFINITION. Signet's shared operations: keys and their replacement, zeroisation, the error state, sessions and what they
hold, and the identity (R447 to R472). -/

namespace Sys2Proof.Machine

open Sys2Proof

/-! ### Key slots and media keys (R455, R456, R460) -/

/-- The loaded key slots, counted in `SIG_STAT.SLOTS`. -/
def State.setLoaded (s : State) (t : Tab Unit) : State :=
  (s.withSig { s.sig with loaded := t }).setFld fSIG_STAT_SLOTS t.length

/-- A range is locked for reads or for writes (log entry 75). -/
def State.rangeLocked (s : State) (r : Nat) : Bool := s.readLocked r || s.writeLocked r

/-- A range exists: a locking range that is defined, or the global range of a namespace. -/
def State.rangeValid (s : State) (r : Nat) : Bool := ((tget s.sig.ranges r).map (·.valid)).getD false

/-- Slots are loaded for every range that is not locked (R455). -/
def State.loadUnlocked (s : State) : State :=
  s.setLoaded (s.sig.ranges.foldl (fun (t : Tab Unit) (r : Nat × Range) =>
    if r.2.valid && !s.rangeLocked r.1 then sAdd t r.1 else t) [])

/-- The media key of a range is replaced: what was encrypted under the old one is lost (R460). -/
def State.replaceMek (s : State) (r : Nat) : State :=
  (s.withSig { s.sig with gens := tput s.sig.gens r (tgetD s.sig.gens r 0 + 1) }).incWrap fSIG_GEN_KEYGEN

/-- A run of blocks without those of another run. -/
def cutRun (b m : Nat) (x : Nat × Nat) : List (Nat × Nat) :=
  let e := x.1 + x.2
  [(x.1, min e b - x.1), (max x.1 (b + m), e - max x.1 (b + m))].filter fun (y : Nat × Nat) => y.2 != 0

/-- The blocks of a range within its namespace: a locking range whole, a global range without its locking ranges (R455). -/
def State.rangeRuns (s : State) (r : Nat) : Nat × List (Nat × Nat) :=
  if 256 ≤ r then
    match tget s.sig.ranges r with
    | some e => (e.nsx, [(e.start, e.len)])
    | none => (0, [])
  else
    let lbas := ((tget s.ns r).map (·.lbas)).getD 0
    (r, s.sig.ranges.foldl (fun (l : List (Nat × Nat)) (e : Nat × Range) =>
      if 256 ≤ e.1 && e.2.valid && e.2.nsx == r then l.flatMap (cutRun e.2.start e.2.len) else l) [(0, lbas)])

/-- Firmware deallocates the units of runs of blocks, each with its journal record (R460). -/
def State.deallocRuns (s : State) (k : Nat) (runs : List (Nat × Nat)) : State :=
  let fmt := ((tget s.ns k).map (·.format)).getD 0
  runs.foldl (fun (t : State) (x : Nat × Nat) =>
    let u := wholeUnits fmt x.1 x.2
    if u.2 = 0 then t
    else
      let r := t.takeSeqs 1
      let seq := r.2.headD 0
      let en := mkEntry 0 true false false false seq
      (r.1.journal (.range k 0 u.2 seq u.1 en)).applyRange k 0 u.1 u.2 en) s

/-- A cryptographic erase of a range: a new key and every unit deallocated (R460). Its records go with the next flush. -/
def State.eraseRange (s : State) (r : Nat) : State :=
  let runs := s.rangeRuns r
  let s := (s.replaceMek r).deallocRuns runs.1 runs.2
  if s.rangeValid r && !s.rangeLocked r then s.setLoaded (sAdd s.sig.loaded r) else s

/-- The ranges of a namespace: its global range and its locking ranges. -/
def State.rangesOf (s : State) (k : Nat) : List Nat :=
  (s.sig.ranges.filter fun (r : Nat × Range) => r.1 == k || (256 ≤ r.1 && r.2.valid && r.2.nsx == k)).map (·.1)

/-- A range stops to be: its key and its lock state go. -/
def State.dropRange (s : State) (r : Nat) : State :=
  let s := (s.replaceMek r).setLock r false false
  (s.withSig { s.sig with ranges := tdel s.sig.ranges r }).setLoaded (sDel s.sig.loaded r)

/-- Service 0x05: the global range of a new namespace gets its key; a deleted namespace's ranges lose theirs and become free;
or its ranges are erased (R449, R477). -/
def State.nsKeys (s : State) (op k : Nat) : State :=
  if op = 1 then
    let s := s.replaceMek k
    (s.withSig { s.sig with ranges := tput s.sig.ranges k ⟨true, k, 0, ((tget s.ns k).map (·.lbas)).getD 0, false, false, false, []⟩ }).setLoaded
      (sAdd s.sig.loaded k)
  else if op = 2 then (s.rangesOf k).foldl (fun (t : State) r => t.dropRange r) s
  else (s.rangesOf k).foldl (fun (t : State) r => t.eraseRange r) s

/-! ### What every erase of the whole device does (R473) -/

/-- Every unit of every namespace is deallocated. -/
def State.deallocEverything (s : State) : State :=
  s.ns.foldl (fun (t : State) (n : Nat × Namespace) => t.deallocRuns n.1 [(0, n.2.lbas)]) s

/-- Map content in DRAM goes: no page that is not pinned stays resident (R473). -/
def State.clearFrames (s : State) : State :=
  (s.map.frames.filter fun (f : Nat × Frame) => f.2.pins == 0).foldl (fun (t : State) f => t.setFrame f.1 Frame.empty) s

/-- No unit is mapped any more, and no map page is in flash. -/
def State.clearMap (s : State) : State :=
  (s.withFw { s.fw with
    entries := [], pageTab := [], dealloc := [], dirtySince := [], missNamed := [], lostUnits := []
    snaps := s.fw.snaps.map fun x => { x with dirty := [] } }).countValid.clearFrames

/-- Beads and the frames of map pages hold nothing that they held (log entry 165); the read-hot cache and mirrors go, and a fresh
snapshot is written (R473). -/
def State.clearCopies (s : State) : State :=
  let s := s.fw.hot.foldl (fun (t : State) h => t.releaseBead h.bead) s
  let s := s.withFw { s.fw with hot := [], mirrors := [] }
  let lo := s.frameAddr 0
  let hi := s.frameAddr (8 * 2 ^ s.fld fMAP_CFG_SETBITS)
  let s := s.withMem (s.mem.keep fun a => match regionAt a with
    | .beadData _ => false
    | .beadMeta _ => false
    | _ => !(decide (lo ≤ a) && decide (a < hi)))
  s.freshSnapshot

/-- All 320 media keys are replaced (R471, R473). -/
def State.replaceAll (s : State) : State := (List.range 320).foldl (fun (t : State) r => t.replaceMek r) s

/-! ### Authorities (R457, R458) -/

/-- SID, PSID and Admin1 are enabled as manufactured; 0 SID, 1 PSID, 2 to 5 the admins, 6 to 70 the users (log entry 73). -/
def authMade (a : Nat) : Authority := ⟨Config.madePin a, 0, 5, a ≤ 2⟩
def State.auth (s : State) (a : Nat) : Authority := tgetD s.sig.auths a (authMade a)
def State.setAuth (s : State) (a : Nat) (x : Authority) : State := s.withSig { s.sig with auths := tput s.sig.auths a x }

/-- Opal goes back to its manufactured state: no locking range, nothing locked, every PIN as manufactured; SID stays where only
the Locking SP is reverted. -/
def State.opalMade (s : State) (sid : Bool) : State :=
  let s := s.setLocks [] []
  s.withSig { s.sig with
    ranges := (s.sig.ranges.filter fun (r : Nat × Range) => r.1 < 256).map fun (r : Nat × Range) =>
      (r.1, { r.2 with readEnabled := false, writeEnabled := false, lockOnReset := false, users := [] })
    auths := if sid then [] else s.sig.auths.filter fun (a : Nat × Authority) => a.1 < 2
    locking := false, dataStore := [] }

/-- Zeroisation (R471): every media key and PIN digest is destroyed and every range erased; `owner` destroys the owner keys
too. -/
def State.zeroise (s : State) (owner : Bool) : State :=
  let s := (s.opalClose.opalMade true).replaceAll
  let s := if owner then s.withSig { s.sig with keys := s.sig.keys.filter fun (k : Nat × KsKey) => k.1 < 2 } else s
  s.deallocEverything.clearMap.clearCopies.loadUnlocked

/-! ### The error state (R470, R475) -/

/-- A stop as of R430 that is no fault of a monitored unit: fetching stops, `CSTS.CFS` is set, nothing is posted any more. -/
def State.fatalStop (s : State) (event arg : Nat) : State :=
  let s := (s.setFld fFLT_STAT_FATAL 1).setFld fHQE_CTL_FETCH 0
  s.setCfs.logAll [⟨6, false, true, false, 112, 0x0006, Config.recordBody (200 + event) arg⟩]

/-- The sanitize state as `SIG_SAN` shows it. -/
def State.showSan (s : State) : State :=
  let g := s.sig
  s.setReg rSIG_SAN (BitVec.ofNat 64 (g.sanAct % 8 + b2n g.sanNdas * 2 ^ 3 + g.sanState % 4 * 2 ^ 4 +
    g.sanProg % 65536 * 2 ^ 6 + g.sanPass % 16 * 2 ^ 22))

/-- A sanitize operation in force fails (R475). -/
def State.sanFails (s : State) : State :=
  if s.sig.sanState = 1 then (s.withSig { s.sig with sanState := 3 }).showSan else s

/-- A failed test puts Signet in the error state (R470). -/
def State.signetError (s : State) (row : Nat) : State :=
  let s := ((s.setLoaded []).setFld fSIG_STAT_ERR 1).setFld fSIG_STAT_STFAIL row
  ((s.secRecord 1 row).sanFails).fatalStop 1 row

/-! ### Keyed sessions (R462 to R466) -/

/-- What a keyed session holds is shown in `SIG_SESS`. -/
def State.showKs (s : State) : State :=
  let s := match s.sig.ks with
    | some k => ((s.setFld fSIG_SESS_KS (b2n k.proved)).setFld fSIG_SESS_KEYID k.keyId).setFld fSIG_SESS_PRIV k.granted
    | none => ((s.setFld fSIG_SESS_KS 0).setFld fSIG_SESS_KEYID 0).setFld fSIG_SESS_PRIV 0
  s

/-- The keyed session ends; Diagnostic, which it holds, ends with it (R464, R466). -/
def State.ksEnd (s : State) : State :=
  match s.sig.ks with
  | none => s
  | some k =>
    let s := (s.withSig { s.sig with ks := none }).showKs
    if k.granted / 4 % 2 = 1 ∧ s.mode = 0xA then s.modeRequest epSignet 0xA else s

/-! ### The identity (R450) -/

/-- An ASCII character as a byte. -/
def asc (c : Char) : Byte := BitVec.ofNat 8 c.toNat
def ascii (t : String) : List Byte := t.toList.map asc
def hexDigit (n : Nat) : Byte := BitVec.ofNat 8 (if n % 16 < 10 then 48 + n % 16 else 55 + n % 16)
def decDigit (n : Nat) : Byte := BitVec.ofNat 8 (48 + n % 10)

/-- A signed byte as a sign and two upper-case hexadecimal digits (R129). -/
def signHex (b : Nat) : List Byte :=
  let m := if b < 128 then b else 256 - b
  [asc (if b < 128 then '+' else '-'), hexDigit (m / 16), hexDigit m]

/-- The 16 bytes of `ARC_ID` (R451). -/
def State.idBytes (s : State) : List Byte := bytesOf (s.reg rARC_ID).toNat 8 ++ bytesOf (s.reg rARC_ID1).toNat 8

/-- The first 16 characters of the serial number (R129). -/
def State.serial16 (s : State) : List Byte :=
  let w1 := s.reg rARC_ID1
  let wafer := bits w1 0 5
  bytesOf (s.reg rARC_ID).toNat 8 ++ [decDigit (wafer / 10), decDigit wafer] ++ signHex (bits w1 8 8) ++ signHex (bits w1 16 8)

/-- The identity string of 22 characters (R450). -/
def State.identity (s : State) : List Byte :=
  let w1 := s.reg rARC_ID1
  let step := bits w1 24 8
  s.serial16 ++ [asc '-', BitVec.ofNat 8 (64 + step / 16), decDigit (step % 16), asc '-', hexDigit (bits w1 32 8 / 16), hexDigit (bits w1 32 8)]

/-! ### Measurements (R468) -/

/-- The security configuration of index 8: approved mode, JTAG, enrolled keys with their digests. -/
def State.securityDigest (s : State) : BitVec 384 :=
  Config.sha384 ([BitVec.ofNat 8 (b2n s.sig.approved), BitVec.ofNat 8 (b2n (s.flag fSIG_STAT_JTAGOPEN))] ++
    (s.sig.keys.flatMap fun (k : Nat × KsKey) => BitVec.ofNat 8 k.1 :: bytesOf (Config.sha384 (bytesOf k.2.key.toNat 32)).toNat 48) ++
    (match s.sig.imageKey with
     | some k => bytesOf (Config.sha384 (bytesOf k.toNat 48)).toNat 48
     | none => []))

/-- Measurement indexes 1 to 8 with a package, or with none (ROM Recovery). -/
def State.measuresOf (s : State) (p : Option Package) : List (BitVec 384) :=
  [Config.romDigest] ++ ((p.map fun x => (List.range 6).map fun i => x.measures.getD i 0#384).getD (List.replicate 6 0#384)) ++
    [s.securityDigest]

end Sys2Proof.Machine
end

