-- ==== Sys2Proof/Machine/HallmarkOps.lean ====
section
/-! DEFINITION. The Hallmark log: records, the epoch summary and its compaction (R495 to R498). -/

namespace Sys2Proof.Machine

open Sys2Proof

def State.withBoot (s : State) (b : Boot) : State := { s with boot := b }

def digestBytes (d : BitVec 384) : List Byte := beBytes 48 d.toNat
def zeros (n : Nat) : List Byte := List.replicate n 0#8

/-! ### Records as bytes (R495, R496) -/

/-- Bytes 0 to 543 of a record, which the signature covers. -/
def HRec.head (r : HRec) : List Byte :=
  bytesOf r.type 1 ++ bytesOf 1 1 ++ bytesOf 640 2 ++ bytesOf r.cause 1 ++ bytesOf r.source 1 ++ bytesOf r.flags 1 ++ zeros 1 ++
    bytesOf r.seq 8 ++ bytesOf r.hours 4 ++ bytesOf r.cycles 4 ++ bytesOf r.signetVer 4 ++ zeros 4 ++
    (r.measures.flatMap digestBytes) ++ digestBytes r.prev ++ zeros 80

/-- The 640 bytes of a record. -/
def HRec.bytes (r : HRec) : List Byte := r.head ++ beBytes 96 r.sig.toNat

/-- The bytes of a summary before its signature; each catalogue entry ends in 16 zero bytes. -/
def HSummary.head (h : HSummary) : List Byte :=
  let c := h.catalogue.length
  let n := h.runs.length
  [3#8, 1#8] ++ zeros 2 ++ bytesOf (192 + 400 * c + 16 * n) 4 ++ bytesOf h.epoch 8 ++ bytesOf h.lastSeq 8 ++
    digestBytes h.lastHash ++ bytesOf c 2 ++ bytesOf n 2 ++ zeros 20 ++
    (h.catalogue.flatMap fun (m : List (BitVec 384)) => m.flatMap digestBytes ++ zeros 16) ++
    (h.runs.flatMap fun (r : Nat × Nat × Nat × Nat × Nat) =>
      bytesOf r.1 8 ++ bytesOf r.2.1 4 ++ bytesOf r.2.2.1 2 ++ bytesOf r.2.2.2.1 1 ++ bytesOf r.2.2.2.2 1)
def HSummary.bytes (h : HSummary) : List Byte := h.head ++ beBytes 96 (Config.identitySign h.head).toNat

/-! ### Compaction (R496) -/

/-- The summary with one more record: its measurements in the catalogue, its run lengthened or begun. -/
def HSummary.cover (h : HSummary) (r : HRec) : HSummary :=
  let at_ := (h.catalogue.findIdx? (· == r.measures)).getD h.catalogue.length
  let cat := if at_ < h.catalogue.length then h.catalogue else h.catalogue ++ [r.measures]
  let fall := b2n (r.flags % 2 == 1)
  let runs := match h.runs.getLast? with
    | some (first, n, c, t, f) =>
      if c = at_ ∧ t = r.type then h.runs.dropLast ++ [(first, n + 1, c, t, min 255 (f + fall))]
      else h.runs ++ [(r.seq, 1, at_, r.type, fall)]
    | none => [(r.seq, 1, at_, r.type, fall)]
  { h with lastSeq := r.seq, lastHash := Config.sha384 r.bytes, catalogue := cat, runs := runs }

/-- The summary of every record so far. -/
def Boot.whole (b : Boot) : HSummary := b.records.foldl HSummary.cover b.summary

/-- Bytes of the active half in use. -/
def Boot.halfUsed (b : Boot) : Nat :=
  192 + 400 * b.summary.catalogue.length + 16 * b.summary.runs.length + 640 * b.records.length

/-- 16 bytes as a codeword, the first byte lowest. -/
def cwOf (l : List Byte) : BitVec 128 := BitVec.ofNat 128 (leValue l)

/-- Bytes are written to Locket from a codeword on (log entry 50). -/
def Lkt.putBytes (l : Lkt) (cw : Nat) (bytes : List Byte) : Lkt :=
  (List.range (ceilDiv bytes.length 16)).foldl (fun (t : Lkt) i => t.put (cw + i) (cwOf ((bytes.drop (16 * i)).take 16))) l

/-- The first codeword of a half of the Hallmark partition, and its sectors (R496, R511). -/
def halfWord (half : Nat) : Nat := 0x10000 + 0x8000 * half
def Lkt.wipeHalf (l : Lkt) (half : Nat) : Lkt := (List.range 128).foldl (fun (t : Lkt) i => t.wipe (0x100 + 128 * half + i)) l

/-- Below 16 KiB free the log is compacted before an append: the other half is erased, and begins with a new summary (R496). -/
def State.compactLog (s : State) : State :=
  let b := s.boot
  if 524288 < b.halfUsed + 16384 then
    let h := 1 - b.half
    let sum : HSummary := { b.whole with epoch := b.summary.epoch + 1 }
    { s with
      lkt := (s.lkt.wipeHalf h).putBytes (halfWord h) sum.bytes
      boot := { b with summary := sum, records := [], half := h } }
  else if (tget s.lkt.words (halfWord b.half)).isNone then { s with lkt := s.lkt.putBytes (halfWord b.half) b.summary.bytes }
  else s

/-- The catalogue or the run list is full, which forbids an activation (R497). -/
def Boot.logFull (b : Boot) : Bool := 512 ≤ b.whole.catalogue.length || 4095 ≤ b.whole.runs.length

/-! ### Verification (R488 to R491) -/

/-- Every security version is at least the floor of its kind (R490). -/
def State.aboveFloors (s : State) (p : Package) : Bool :=
  (s.boot.floors.zip p.secVer).all fun (y : Nat × Nat) => decide (y.1 ≤ y.2)

/-- The owner key that a package needs, if it needs one, is enrolled; the previous one serves at start only (R489). -/
def State.ownerGood (s : State) (start : Bool) (p : Package) : Bool :=
  match p.owner with
  | none => true
  | some k => s.sig.imageKey == some k || (start && s.sig.imageKeyOld == some k)

/-- A package verifies, its security versions left aside. -/
def State.verifies (s : State) (start : Bool) (p : Package) : Bool := p.signed && p.fits && s.ownerGood start p

/-- The package of a slot that holds one: slot 1 always, a primary slot with its valid flag (R484). -/
def State.slotPackage (s : State) (k : Nat) : Option Package :=
  let d := s.boot.dir
  if k = 1 ∨ (k = 2 ∧ d.valid2 = true) ∨ (k = 3 ∧ d.valid3 = true) then tget s.boot.slots k else none

/-! ### Appending (R495) -/

/-- A record is appended (R495): 1 start, 2 activation; with its cause, image source, flags and package. -/
def State.hallmark (s : State) (type cause source flags : Nat) (p : Option Package) : State :=
  let s := s.compactLog
  let b := s.boot
  let r : HRec := ⟨type, cause, source, flags, b.nextSeq, s.hours, s.fld fEVR_STARTS_STARTS, ((p.map (·.secVer)).getD []).getD 0 0,
    s.measuresOf p, b.prevHash, 0#768⟩
  let r := { r with sig := Config.identitySign r.head }
  { s with
    lkt := s.lkt.putBytes (halfWord b.half + b.halfUsed / 16) r.bytes
    boot := { b with records := b.records ++ [r], nextSeq := b.nextSeq + 1, prevHash := Config.sha384 r.bytes } }

/-- Log page 0xC1 (R498). -/
def State.hallmarkPage (s : State) : List Byte :=
  let sum := s.boot.summary.bytes
  let recs := s.boot.records.flatMap HRec.bytes
  bytesOf (64 + sum.length + recs.length) 8 ++ bytesOf (s.boot.nextSeq - 1) 8 ++ bytesOf s.boot.summary.epoch 8 ++
    bytesOf s.boot.records.length 4 ++ zeros 36 ++ sum ++ recs

end Sys2Proof.Machine
end

