-- ==== Sys2Proof/Machine/LogPages.lean ====
section
/-! DEFINITION. The pages of Get Log Page (R128, R194, R246, R249, R355, R398, R399, R451, R476, R498, R501, R557, R558). -/

namespace Sys2Proof.Machine

open Sys2Proof

/-- A list of bytes cut or padded with zeros to `n`. -/
def padTo (n : Nat) (l : List Byte) : List Byte := (l ++ zeros n).take n

/-- The bytes of a page that a read at `off` of `n` bytes returns; zeros beyond its length (R128). -/
def pagePiece (page : List Byte) (off n : Nat) : List Byte := padTo n (page.drop off)

/-- Free bytes where the spec states a page and not its content (log entry 76). -/
def State.freeBytes (s : State) (n : Nat) : List Byte :=
  ((List.range ((n + 7) / 8)).flatMap fun i => bytesOf (Config.freeWord (s.free + i)).toNat 8).take n
def State.tickBy (s : State) (n : Nat) : State := { s with free := s.free + n }

/-! ### Standard pages (R128; layouts as NVMe defines them, log entry 18) -/

/-- The pages served. -/
def servedPages : List Nat := [0, 1, 2, 3, 4, 5, 6, 0x81, 0xC0, 0xC1, 0xC2, 0xC3, 0xC4, 0xC5, 0xC6]

/-- Page 0x00: a dword for each page, bit 0 set where it is served. -/
def supportedPage : List Byte := (List.range 256).flatMap fun i => bytesOf (b2n (servedPages.contains i)) 4

/-- The composite temperature in kelvin, kept in degrees Celsius (R558, R583). -/
def State.kelvin (s : State) : Nat := (s.pwr.composite + 273).toNat

/-- The thresholds of the composite temperature: over, 378 K by default, and under (R127, R129). -/
def State.overTemp (s : State) : Nat := tgetD s.hqe.features 0x04 378 % 65536
def State.underTemp (s : State) : Nat := tgetD s.hqe.features 0x200004 0 % 65536

/-- Critical Warning (R246, R251, R558). -/
def State.criticalWarning (s : State) : Nat :=
  b2n (s.availableSpare < s.fw.spareThreshold) +
    2 * b2n (s.overTemp < s.kelvin || s.kelvin < s.underTemp || s.pwr.tripped) +
    4 * b2n (!s.fw.lostUnits.isEmpty || s.flag fFLT_STAT_FATAL) + 8 * b2n (s.fld fARC_MODE_HEALTH == 5)

def State.life (s : State) (i : Nat) : Nat := tgetD s.evr.lifetime i 0

/-- Page 0x02 (R558). Busy time, the entries of page 0x01, the two temperature times and the sensors are free values (log entry 76). -/
def State.healthPage (s : State) : List Byte :=
  [BitVec.ofNat 8 s.criticalWarning] ++ bytesOf s.kelvin 2 ++ bytesOf s.availableSpare 1 ++ bytesOf s.fw.spareThreshold 1 ++
    bytesOf s.percentageUsed 1 ++ zeros 26 ++
    bytesOf ((s.life 5 + 999) / 1000) 16 ++ bytesOf ((s.life 6 + 999) / 1000) 16 ++ bytesOf (s.life 2) 16 ++ bytesOf (s.life 3) 16 ++
    padTo 16 (s.freeBytes 8) ++ bytesOf (s.fld fEVR_STARTS_STARTS) 16 ++ bytesOf (s.hours / 10) 16 ++ bytesOf (s.life 7) 16 ++
    bytesOf (s.life 4) 16 ++ padTo 16 ((s.freeBytes 32).drop 24) ++ (s.freeBytes 16).drop 8 ++ (s.freeBytes 24).drop 16 ++ zeros 296

/-- The firmware revision of a package: major, minor, the low four digits of build (R501). -/
def packageRevision (p : Package) : List Byte :=
  let v := p.version.toNat
  let two (n : Nat) := [decDigit (n / 10), decDigit n]
  two (v / 2 ^ 24 % 100) ++ two (v / 2 ^ 16 % 256 % 100) ++ two (v % 65536 / 100 % 100) ++ two (v % 65536 % 100)

/-- The revision of a slot; zeros where it holds no valid package. -/
def State.slotRevision (s : State) (k : Nat) : List Byte :=
  let d := s.boot.dir
  let valid := k == 1 || (k == 2 && d.valid2) || (k == 3 && d.valid3)
  match tget s.boot.slots k with
  | some p => if valid then packageRevision p else zeros 8
  | none => zeros 8

/-- Page 0x03 (R501). -/
def State.firmwarePage (s : State) : List Byte :=
  let d := s.boot.dir
  [BitVec.ofNat 8 (d.running % 8 + (if d.next = d.running then 0 else d.next % 8 * 16))] ++ zeros 7 ++
    s.slotRevision 1 ++ s.slotRevision 2 ++ s.slotRevision 3 ++ zeros 480

/-- Page 0x04: identifiers of the namespaces that changed. -/
def State.changedPage (s : State) : List Byte := padTo 4096 (s.hqe.nsChanged.flatMap fun n => bytesOf n 4)

/-- Page 0x05: the commands of R126, with the change of logical blocks for those that make one. -/
def effectsPage : List Byte :=
  let word (ok blocks : Bool) := bytesOf (b2n ok + 2 * b2n blocks) 4
  ((List.range 256).flatMap fun i => word (adminOps.contains i) (i == 0x80 || i == 0x84)) ++
    ((List.range 256).flatMap fun i => word (ioOps.contains i) (i == 1 || i == 4 || i == 8 || i == 9)) ++ zeros 2048

/-- Page 0x81 (R476): progress, status, the last command dword 10 and the estimates. -/
def State.sanitizePage (s : State) : List Byte :=
  let g := s.sig
  let st := if g.sanState = 0 then 0 else if g.sanState = 1 then 2 else if g.sanState = 2 then
    (if g.sanAct = 2 ∧ g.sanNdas = true then 4 else 1) else 3
  let prog := if g.sanState = 1 then g.sanProg else 65535
  let passes := max 1 g.sanPasses
  bytesOf prog 2 ++ bytesOf (st + g.sanPass % 32 * 8) 2 ++ bytesOf g.sanCdw10 4 ++ bytesOf (9000 * passes) 4 ++ bytesOf 60 4 ++
    bytesOf 4 4 ++ bytesOf (9000 * passes) 4 ++ bytesOf 60 4 ++ bytesOf 4 4 ++ zeros 480

/-! ### Page 0xC0 (R557) -/

def insertRec (r : Record) : List Record → List Record
  | [] => [r]
  | x :: t => if r.seq ≤ x.seq then r :: x :: t else x :: insertRec r t

/-- Every whole record of the four pools, in ascending order. -/
def State.persistentRecords (s : State) : List Record :=
  let all := [s.evr.poolErr, s.evr.poolCrit, s.evr.poolFatal, s.evr.poolSec].flatMap fun p => p.recs.map (·.2)
  all.foldr insertRec []

def State.cursor (s : State) (mgmt : Bool) : Nat := s.fld (if mgmt then fEVR_MCUR_CUR else fEVR_HCUR_CUR)
def State.setCursor (s : State) (mgmt : Bool) (n : Nat) : State := s.setFld (if mgmt then fEVR_MCUR_CUR else fEVR_HCUR_CUR) n

/-- A snapshot with this source. -/
def State.buildSnap (s : State) (mgmt persistent : Bool) : LogSnap :=
  let cur := s.cursor mgmt
  let l := if persistent then s.persistentRecords else s.evr.ring.filter fun r => cur < r.seq
  ⟨l.take 16383, ((s.evr.ring.getLast?).map (·.seq)).getD 0, countIf (fun n => cur < n) s.evr.lost, persistent,
    decide (16383 < l.length), cur, s.now⟩

/-- The page that a snapshot makes. -/
def State.snapPage (s : State) (p : LogSnap) : List Byte :=
  bytesOf ((p.records.head?.map (·.seq)).getD 0) 8 ++ bytesOf ((p.records.getLast?.map (·.seq)).getD 0) 8 ++ bytesOf p.newest 8 ++
    bytesOf p.records.length 4 ++ bytesOf p.missed 4 ++ bytesOf (b2n p.persistent) 1 ++ bytesOf (b2n p.more) 1 ++ zeros 6 ++
    bytesOf p.cursor 8 ++ bytesOf (s.fld fEVR_HOURS_ON + p.builtAt / 360000000000) 4 ++ bytesOf (s.fld fEVR_STARTS_STARTS) 4 ++
    zeros 8 ++ (p.records.flatMap fun r => bytesOf r.bytes.toNat 64)

/-- A read of page 0xC0: a read at 0, or one with no snapshot in place, builds one; a ring read with `RAE` = 0 that transfers
the last record moves the cursor. -/
def State.readSnap (s : State) (mgmt : Bool) (lsp : Nat) (rae : Bool) (off n : Nat) : State × List Byte :=
  let old := if mgmt then s.evr.mgmtSnap else s.evr.hostSnap
  let s := if off = 0 ∨ old.isNone = true then (if lsp / 2 % 2 = 1 then s.setCursor mgmt 0 else s) else s
  let p : LogSnap := match old with
    | some p => if off = 0 then s.buildSnap mgmt (lsp % 2 == 1) else p
    | none => s.buildSnap mgmt (lsp % 2 == 1)
  let s := if mgmt then { s with evr := { s.evr with mgmtSnap := some p } } else { s with evr := { s.evr with hostSnap := some p } }
  let stop := 64 + 64 * p.records.length
  let s := match p.records.getLast? with
    | some r => if !p.persistent && !rae && off < stop && stop ≤ off + n then s.setCursor mgmt r.seq else s
    | none => s
  (s, pagePiece (s.snapPage p) off n)

/-! ### Page 0xC2 (R398) -/

/-- The loss count of each stripe that holds a valid unit and has lost members, by stripe number (R381). -/
def State.stripeLosses (s : State) : Tab Nat :=
  s.fw.flash.foldl (fun (t : Tab Nat) e =>
    if s.holdsValid e.1 then
      match s.spotOf e.1 with
      | some x => if s.lossCount x.dies = 0 then t else tput t (stripeNumber x.serial x.row x.j) (s.lossCount x.dies)
      | none => t
    else t) []

/-- The state of a die: good, offline, lost, absent. -/
def State.dieState (s : State) (d : Nat) : Nat :=
  if s.part.channels ≤ d / 16 ∨ s.fw.dies ≤ d then 3
  else if s.dieLost d then 2
  else if (tget s.fw.offlineAt d).isSome then 1
  else 0

/-- Channels all of whose dies are lost. -/
def State.lostChannels (s : State) : Nat :=
  sumOf (fun c => if (List.range 16).all fun l => s.dieLost (16 * c + l) then 2 ^ c else 0) (List.range 32)

/-- Page 0xC2. The estimate of the remaining time and the progress of the lap are free values (log entry 76). -/
def State.redundancyPage (s : State) : List Byte :=
  let f := s.fw
  let losses := s.stripeLosses
  let one := countIf (fun (e : Nat × Nat) => e.2 == 1) losses
  let two := countIf (fun (e : Nat × Nat) => 2 ≤ e.2) losses
  let left := one + two
  let prog := if f.rebuildDone + left = 0 then 0 else 1000 * f.rebuildDone / (f.rebuildDone + left)
  bytesOf f.shapeK 1 ++ bytesOf (if f.reshapeState = 0 then 0 else f.reshapeK) 1 ++ bytesOf f.reshapeState 1 ++
    bytesOf (s.fld fARC_MODE_HEALTH) 1 ++ bytesOf one 4 ++ bytesOf two 4 ++ bytesOf f.lostEver 4 ++
    bytesOf (sumOf (fun d => if s.dieLost d then 2 ^ d else 0) (List.range 512)) 64 ++ bytesOf s.lostChannels 4 ++ bytesOf prog 4 ++
    bytesOf (f.rebuildAt.getD 0) 4 ++ (if f.rebuildAt.isSome then s.freeBytes 4 else zeros 4) ++ bytesOf f.reshapeBoundary 8 ++
    bytesOf f.reshapeMoved 8 ++ bytesOf f.patrolLap 4 ++ bytesOf f.lastLap 4 ++ bytesOf ((Config.freeWord (s.free + 1)).toNat % 1001) 4 ++
    bytesOf f.repairedEver 4 ++ (match f.lastPass with | some p => bytesOf p.word.toNat 64 | none => zeros 64) ++
    padTo 6 (f.copies.flatMap fun c => bytesOf c.1 2) ++ zeros 2 ++ bytesOf f.stripes.length 8 ++ bytesOf f.copiesReplaced 4 ++ zeros 44 ++
    ((List.range 512).flatMap fun d =>
      bytesOf (tgetD f.dieFails d 0) 4 ++ bytesOf (tgetD f.dieMismatch d 0) 4 ++ bytesOf (s.dieState d) 1 ++
        bytesOf (tgetD f.lostDies d 0) 1 ++ zeros 2 ++ bytesOf (tgetD f.lostHours d 0) 4)

/-! ### Page 0xC3 (R355) -/

/-- The entries of a die. -/
def State.dieEntries (s : State) (d : Nat) : List (Nat × AsyEntry) := s.assay.entries.filter fun e => e.1 / 64 == d

def meanInt (l : List Int) : Int := if l.isEmpty then 0 else (l.foldl (· + ·) 0).tdiv (Int.ofNat l.length)
def byteOfInt (x : Int) : List Byte := [BitVec.ofNat 8 (x % 256).toNat]

/-- The 24 bytes of a die. -/
def State.assayDie (s : State) (d : Nat) : List Byte :=
  let es := s.dieEntries d
  let learned := es.filter fun e => e.2.learned
  let offs := learned.map fun e => tgetD s.assay.applied e.1 []
  let all := es.flatMap fun e => tgetD s.assay.applied e.1 []
  bytesOf (countIf (fun (e : Nat × AsyEntry) => e.2.alarm) es) 2 ++ bytesOf learned.length 2 ++
    ((List.range 8).flatMap fun k => byteOfInt (meanInt (offs.map fun l => l.getD k 0))) ++
    bytesOf ((meanInt (learned.map fun e => e.2.r) / 16) % 65536).toNat 2 ++ bytesOf (tgetD s.fw.dieSlotFails d 0) 2 ++
    bytesOf (all.foldl (fun m x => max m x.natAbs) 0) 2 ++
    bytesOf (b2n (s.dieLost d) + 2 * b2n (es.any fun e => e.2.frozen)) 1 ++ zeros 5

/-- Page 0xC3. -/
def State.assayPage (s : State) : List Byte :=
  bytesOf s.assay.accepted 8 ++ bytesOf s.assay.stale 8 ++ bytesOf s.assay.discarded 8 ++
    bytesOf s.alarmedGroups 4 ++ bytesOf (countIf (fun (e : Nat × AsyEntry) => e.2.learned) s.assay.entries) 4 ++
    bytesOf s.assay.savedHours 8 ++ zeros 24 ++ ((List.range 512).flatMap s.assayDie) ++
    (s.fw.slotFails.flatMap fun (x : Nat × Nat × Nat) => bytesOf x.1 5 ++ zeros 3 ++ bytesOf x.2.1 4 ++ bytesOf x.2.2 4)

/-! ### Pages 0xC4 to 0xC6 (R399, R451, R128, R194) -/

def LostUnit.before (a b : LostUnit) : Bool := decide (a.ns < b.ns) || (a.ns == b.ns && decide (a.unit ≤ b.unit))
def insertLost (a : LostUnit) : List LostUnit → List LostUnit
  | [] => [a]
  | b :: t => if a.before b then a :: b :: t else b :: insertLost a t

/-- Units lost now: those whose entry says so (R200, R399). -/
def State.lostNow (s : State) : Nat :=
  countIf (fun (e : Nat × Nat) => entPoison e.2 && entPpa e.2 == 1) s.fw.entries

/-- Page 0xC4. -/
def State.lostPage (s : State) : List Byte :=
  let l := s.fw.lostUnits.foldr insertLost []
  bytesOf l.length 4 ++ bytesOf s.lostNow 4 ++ bytesOf (b2n (l.length < s.lostNow)) 1 ++ zeros 55 ++
    (l.flatMap fun u => bytesOf u.unit 6 ++ bytesOf u.ns 1 ++ bytesOf u.cause 1 ++ bytesOf u.hours 4 ++ bytesOf u.stripe 4)

/-- Page 0xC5. -/
def State.identityPage (s : State) : List Byte :=
  s.idBytes ++ bytesOf (s.fld fARC_OPT_PART) 1 ++ bytesOf (s.fld fARC_OPT_CHANNELS) 1 ++ bytesOf (s.fld fARC_OPT_CORES) 1 ++
    bytesOf (b2n s.sig.approved + 2 * b2n (s.flag fARC_OPT_JTAG_OFF) + 4 * b2n (s.flag fSIG_STAT_ERR) +
      8 * b2n (s.sig.keys.any fun (k : Nat × KsKey) => 2 ≤ k.1)) 1 ++ zeros 4 ++ s.identity ++ zeros 2 ++
    digestBytes Config.identityHash ++ bytesOf (Config.deviceCert.length + Config.caCert.length) 4 ++ zeros 28 ++
    Config.deviceCert ++ Config.caCert

/-- Page 0xC6. -/
def State.poolPage (s : State) : List Byte :=
  let p := s.pool
  padTo 1024 (bytesOf s.hqe.fetched 8 ++ bytesOf s.hqe.completed 8 ++ bytesOf (s.fld fHQE_HAZ_HOLDS) 8 ++
    bytesOf (s.reg rHQE_PERR).toNat 8 ++ bytesOf (s.reg rHQE_SLOT).toNat 8) ++
  padTo 128 ([p.allocs, p.refQuota, p.refBead, s.fld fBPM_STAT_LOW, p.corrected, p.uncorrected, p.repulls, p.rereads,
    p.level1, p.level2, p.waited].flatMap fun n => bytesOf n 8) ++
  ((List.range 16).flatMap fun c => bytesOf (s.fld (fBPM_CST_HELD c)) 8 ++ bytesOf (s.fld (fBPM_CST_HIGH c)) 8 ++
    bytesOf (tgetD p.classAllocs c 0) 8 ++ bytesOf (s.fld (fBPM_CST_REFUSE c)) 8) ++
  ((((p.beads.filter fun (b : Nat × Bead) => b.2.st == .retired).flatMap fun (b : Nat × Bead) => bytesOf b.1 2) ++
    List.replicate 128 0xFF#8).take 128) ++ zeros 2304

/-! ### A read of a page (R128) -/

/-- The bytes of a page other than 0xC0, if it is served. -/
def State.pageBytes (s : State) (lid : Nat) : Option (List Byte) :=
  if lid = 0x00 then some supportedPage
  else if lid = 0x01 then some (s.freeBytes 16384)
  else if lid = 0x02 then some s.healthPage
  else if lid = 0x03 then some s.firmwarePage
  else if lid = 0x04 then some s.changedPage
  else if lid = 0x05 then some effectsPage
  else if lid = 0x06 then some (s.freeBytes 564)
  else if lid = 0x81 then some s.sanitizePage
  else if lid = 0xC1 then some s.hallmarkPage
  else if lid = 0xC2 then some s.redundancyPage
  else if lid = 0xC3 then some s.assayPage
  else if lid = 0xC4 then some s.lostPage
  else if lid = 0xC5 then some s.identityPage
  else if lid = 0xC6 then some s.poolPage
  else none

/-- A read of `n` bytes at `off` of a page: none for a page that is not served. Page 0x04 is cleared by a read with `RAE` = 0;
the free values of a page are its own. -/
def State.readPage (s : State) (mgmt : Bool) (lid lsp : Nat) (rae : Bool) (off n : Nat) : Option (State × List Byte) :=
  if lid = 0xC0 then some (s.readSnap mgmt lsp rae off n)
  else match s.pageBytes lid with
  | none => none
  | some l =>
    let t := s.tickBy 2048
    let t := if lid = 0x04 && !rae then { t with hqe := { t.hqe with nsChanged := [] } } else t
    some (t, pagePiece l off n)

end Sys2Proof.Machine
end

