-- ==== Sys2Proof/Machine/AdminOps.lean ====
section
/-! DEFINITION. What the admin commands share: the slot they work on, their data in beads, and the work of firmware that waits
for commands already dispatched: Format NVM, detach and deletion, Sanitize, sleep entry (R126, R139, R141, R169 to R171, R473,
R532, R533). -/

namespace Sys2Proof.Machine

open Sys2Proof

/-! ### The slot and its data -/

/-- The slot holds a dispatched admin command of this opcode that has not been answered. -/
def State.adminSlot (s : State) (k op : Nat) : Option Slot :=
  match s.slot k with
  | some e => if e.admin && cmdOp e.cmd == op && e.dispatched && e.completion.isNone then some e else none
  | none => none

/-- The admin commands that are served while Sanitize is in force (R169); Exit Failure Mode is seen to in its own rows. -/
def sanServed : List Nat := [0x02, 0x06, 0x08, 0x09, 0x0A, 0x0C, 0x1D, 0x1E, 0x82, 0x84]

/-- An admin command without host data. -/
def State.adminCmd (s : State) (k op : Nat) (f : Slot → State) : State :=
  match s.adminSlot k op with
  | none => s
  | some e =>
    match (if sanServed.contains op then none else s.sanGate) with
    | some st => s.finish k st
    | none => f e

/-- An admin command with the data that the engine has pulled into `beads` (R139): a failure that the engine reported is passed
through, and while the data is not whole the command waits. -/
def State.adminPull (s : State) (k op : Nat) (beads : List BeadId) (f : State → Slot → List Byte → State) : State :=
  match s.adminSlot k op with
  | none => s
  | some e =>
    let bs := beads.map (·.toNat)
    match e.pullStopped with
    | some st => (s.freeAll bs e.ep).finish k st
    | none =>
    match (if sanServed.contains op then none else s.sanGate) with
    | some st => (s.freeAll bs e.ep).finish k st
    | none =>
      if bs.length ≠ e.units || bs.any (fun b => !s.granted b e.ep || s.mem.spanPoisoned b) then s
      else
        let data := bs.flatMap fun b => wordBytes (s.mem.readDoubles (beadAddr b) 512)
        f (s.freeAll bs e.ep) e (data.take (adminBytes e.cmd))

/-- One bead of returned data, from byte 4096 `i` on. -/
def State.returnPiece (s : State) (k cls i : Nat) (l : List Byte) : State :=
  let r := s.takeBead cls 113
  let u := r.1.poolRefresh.loadBead r.2 (bytesWords (padTo 4096 (l.drop (4096 * i)))) [] [] true
  match u.slot k with
  | some f => u.setSlot k { f with transfers := f.transfers ++ [⟨i, r.2, 0, min 8 ((l.length - 4096 * i + 511) / 512)⟩] }
  | none => u

/-- An admin command returns data through beads of the admin class and completes (R141); while the class cannot supply them the
command waits, as `s` stood. -/
def State.adminReturn (s t : State) (k : Nat) (l : List Byte) (dw0 : Nat := 0) : State :=
  let cls := t.fld fHQE_GRANT_ACLASS
  let n := (l.length + 4095) / 4096
  if n ≠ 0 ∧ t.decideBeads cls n ≠ .grant then s
  else ((List.range n).foldl (fun (u : State) i => u.returnPiece k cls i l) t).finish k 0 dw0

/-- The command with an order number ends. -/
def State.finishOrder (s : State) (o status : Nat) (dw0 : Nat := 0) : State :=
  match s.hqe.slots.find? fun (e : Nat × Slot) => decide (e.2.order = o) with
  | some (k, e) => if e.completion.isSome then s else s.finish k status dw0
  | none => s

/-- Feature values by identifier, Error Recovery by namespace, Temperature Threshold by selector, Interrupt Vector Configuration
by vector (R127). -/
def featureKey (fid nsid dw11 : Nat) : Nat :=
  if fid = 0x04 then 0x04 + dw11 / 2 ^ 16 % 64 * 0x20000
  else if fid = 0x05 then 0x05 + nsid * 0x100000
  else if fid = 0x09 then 0x10000 + dw11 % 65536
  else fid

/-- Asynchronous Event Configuration enables a notice. -/
def State.noticeOn (s : State) (b : Nat) : Bool := tgetD s.hqe.features 0x0B 0 / 2 ^ b % 2 == 1

/-- Namespaces changed: listed for page 0x04, and noticed where it is enabled (R128, R129). -/
def State.nsNotice (s : State) (ids : List Nat) : State :=
  let s := { s with hqe := { s.hqe with
    nsChanged := s.hqe.nsChanged ++ ids.filter fun n => !s.hqe.nsChanged.contains n } }
  if s.noticeOn 8 then s.asyncEvent 2 0 4 else s

/-! ### Commands already dispatched -/

/-- An I/O command that firmware works on: dispatched, not answered, not turned away. -/
def Slot.working (e : Slot) : Bool := !e.admin && e.dispatched && e.completion.isNone && e.verdict.isNone

/-- A dispatched command to namespace index `k` has not completed. -/
def State.nsBusy (s : State) (k : Nat) : Bool :=
  s.hqe.slots.any fun e => e.2.working && (e.2.allNs || e.2.nsid == k + 1)

/-- The held commands that a change turns away are completed, not dispatched (R169 to R171): of one namespace, or of all. Where
Read-Only turns one away too, that decides before Sanitize and Format (R172). -/
def State.dropHeld (s : State) (k : Option Nat) (status : Nat) : State :=
  let l := sortSlots (s.hqe.slots.filter fun (e : Nat × Slot) =>
    e.2.held && !e.2.admin && !e.2.cancelled && (match k with | some k => e.2.nsid == k + 1 | none => true))
  l.foldl (fun (t : State) e =>
    match t.slot e.1 with
    | some f =>
      let st := if t.writeBarred f && status != stat 0 0x0B then stat 0 0x20 else status
      if f.held then (t.setSlot e.1 { f with held := false, dispatched := true, ep := 113 }).finish e.1 st else t
    | none => t) s

/-! ### Format NVM (R170, R477) -/

/-- LBAs of the same units in another format. -/
def Namespace.lbasIn (n : Namespace) (fmt : Nat) : Nat := if fmt = 5 then n.units * 8 else n.units

/-- A format is carried out on a namespace: its keys are replaced and its units deallocated, and it takes its new format. -/
def State.formatNow (s : State) (k : Nat) (n : Namespace) (f : FormatTo) : State :=
  let s := s.dropHeld (some k) (stat 0 0x84)
  let s := if f.erase then s.nsKeys 3 k else s
  let s := s.deallocRuns k [(0, n.lbas)]
  { s with ns := tput s.ns k { n with
    format := f.fmt, pi := f.pi, piFirst := f.piFirst, extended := f.extended, lbas := n.lbasIn f.fmt, formatTo := none } }

/-- A format of a namespace is carried out, and its command ends with its last namespace; one of the whole device resets the wear
stage (R248). -/
def State.formatOne (t : State) (k : Nat) (n : Namespace) (f : FormatTo) : State :=
  let t := t.formatNow k n f
  if t.ns.any fun (y : Nat × Namespace) => (y.2.formatTo.map (·.order)) == some f.order then t
  else
    let t := if f.whole then t.withFw { t.fw with wearStage := 0 } else t
    (t.nsNotice [k + 1]).finishOrder f.order 0

/-- Formats whose namespaces have no dispatched command left are carried out, their records durable before the command ends (R275). -/
def State.formatAdvance (s : State) : State :=
  s.ns.foldl (fun (t : State) (x : Nat × Namespace) =>
    match tget t.ns x.1 with
    | some n =>
      (match n.formatTo with
      | some f =>
        if t.nsBusy x.1 then t
        else t.durably fun t => t.formatOne x.1 n f
      | none => t)
    | none => t) s

/-! ### Detach and deletion (R171, R477) -/

/-- A namespace is deleted: its ranges lose their keys, its units are deallocated, and the journal says so. -/
def State.deleteNow (s : State) (k : Nat) (n : Namespace) : State :=
  let s := (s.nsKeys 2 k).deallocRuns k [(0, n.lbas)]
  let s := s.journal (.nspace k true n.base n.units)
  { s with ns := tdel s.ns k }

/-- The end of a detach or a deletion of a namespace with no dispatched command left; a command ends with its last namespace. -/
def State.leaveNow (t : State) (k : Nat) (n : Namespace) (order : Nat) (delete : Bool) : State :=
  let t := t.dropHeld (some k) (stat 0 0x0B)
  let t := if delete then t.deleteNow k n
    else { t with ns := tput t.ns k { n with attached := false, leaving := none } }
  let t := t.checkHealth.nsNotice [k + 1]
  if t.ns.any fun (y : Nat × Namespace) => (y.2.leaving.map (·.1)) == some order then t
  else t.finishOrder order 0

/-- Detaches and deletions whose namespace has no dispatched command left are carried out, a deletion with its record durable
(R275). -/
def State.leaveAdvance (s : State) : State :=
  s.ns.foldl (fun (t : State) (x : Nat × Namespace) =>
    match tget t.ns x.1 with
    | some n =>
      (match n.leaving with
      | some (order, delete) =>
        if t.nsBusy x.1 then t
        else if delete then t.durably fun t => t.leaveNow x.1 n order true
        else t.leaveNow x.1 n order false
      | none => t)
    | none => t) s

/-! ### Sanitize (R169) -/

/-- An accepted Sanitize enters its mode once no dispatched I/O command is left; held ones are completed, not dispatched. -/
def State.sanAdvance (s : State) : State :=
  if s.sig.sanState ≠ 1 ∨ !(isHealth s.mode || s.mode == 0xA) then s
  else if s.hqe.slots.any fun e => e.2.working then s
  else (s.dropHeld none (stat 0 0x1D)).modeRequest (s.fld fHQE_DCFG_AEP) 6

/-! ### Sleep entry (R532, R533) -/

/-- The read-hot cache is dropped (R241, R532). -/
def State.dropHot (s : State) : State :=
  let s := s.fw.hot.foldl (fun (t : State) h => t.releaseBead h.bead) s
  s.withFw { s.fw with hot := [] }

/-- Steps 3 and 4 of entry, once every command fetched before has completed: the journal becomes durable, without a place for its
units later; the read-hot cache is dropped, for Deep Sleep a normal shutdown's checkpoint and an Assay copy are written, and the
mode is requested (R532, R533). -/
def State.sleepAdvance (s : State) : State :=
  let t := s.pwr.entry
  if t = 0 ∨ !(isHealth s.mode || s.mode == 0xA) ∨ !(s.hqe.slots.all fun (e : Nat × Slot) => s.hqe.aers.contains e.1) then s
  else match s.flushAll (t == deepSleep) with
  | none => s
  | some s =>
    let s := s.dropHot
    let s := if t = deepSleep then s.saveAssay.saveStamp.counterWord.saveLife else s
    let s := s.withPwr { s.pwr with entry := 0 }
    s.modeRequest (s.fld fHQE_DCFG_AEP) t

/-- What waits for the commands in flight goes on. -/
def State.fwAdvance (s : State) : State := s.formatAdvance.leaveAdvance.sanAdvance.sleepAdvance

end Sys2Proof.Machine
end

