-- ==== Sys2Proof/Machine/Admin.lean ====
section
/-! DEFINITION. The admin commands that the admin firmware carries out: logs, Identify, Abort, features, events, namespaces and
Format NVM (R126 to R130, R163, R170, R171, R196, R239, R247, R529, R541). -/

namespace Sys2Proof.Machine

open Sys2Proof

/-! ### Get Log Page (R128) -/

/-- GET_LOG_PAGE (R128, R498): a page that is not served, an offset that is not dword aligned and a length above 2 MiB are
refused (log entry 18). -/
def execGetLogPage (slot : SlotId) (s : State) : Out :=
  .next (
    let k := slot.toNat
    s.adminCmd k 0x02 fun e =>
      let d := e.cmd.dw10.toNat
      let off := e.cmd.dw12.toNat + e.cmd.dw13.toNat * 2 ^ 32
      let n := adminBytes e.cmd
      if off % 4 ≠ 0 ∨ 0x200000 < n then s.finish k (stat 0 0x02)
      else match s.readPage false (d % 256) (d / 256 % 128) (d.testBit 15) off n with
      | none => s.finish k (stat 1 0x09)
      | some r => s.adminReturn r.1 k r.2)

/-! ### Identify (R129, R130, R527; places of the fields as NVMe defines them, log entry 18) -/

/-- Bytes of a structure with its stated fields laid over them. -/
def overlay (base : List Byte) (fields : List (Nat × List Byte)) : List Byte :=
  fields.foldl (fun (l : List Byte) (f : Nat × List Byte) => l.take f.1 ++ f.2 ++ l.drop (f.1 + f.2.length)) base

/-- ASCII text, padded with spaces. -/
def spaced (n : Nat) (l : List Byte) : List Byte := (l ++ List.replicate n 0x20#8).take n

def modelName (p : Part) : String :=
  match p with
  | .ahm4832 => "Margor AHM4832"
  | .ahm4824 => "Margor AHM4824"
  | .ahm4816 => "Margor AHM4816"

/-- A power state descriptor (R527): maximum power in hundredths of a watt, not operational, latencies, relative figure. -/
def powerDescriptor (mp : Nat) (nops : Bool) (enlat exlat rel : Nat) : List Byte :=
  bytesOf mp 2 ++ zeros 1 ++ bytesOf (2 * b2n nops) 1 ++ bytesOf enlat 4 ++ bytesOf exlat 4 ++
    bytesOf rel 1 ++ bytesOf rel 1 ++ bytesOf rel 1 ++ bytesOf rel 1 ++ bytesOf 0 2 ++ zeros 2 ++ bytesOf 0 2

/-- Identify Controller (R129). Fields that the spec does not state are free values. -/
def State.identifyController (s : State) : List Byte :=
  let sn := spaced 20 s.serial16
  overlay (s.freeBytes 4096)
    [(0, bytesOf Config.vendorId.toNat 2), (2, bytesOf (s.fld fHQE_PCID_SSVID) 2), (4, sn),
     (24, spaced 40 (ascii (modelName s.part))), (64, s.slotRevision s.boot.dir.running), (76, bytesOf 0 1), (77, bytesOf 9 1),
     (78, bytesOf 1 2), (80, bytesOf 0x00020000 4), (84, bytesOf 6000000 4), (88, bytesOf 10000 4), (92, bytesOf 0x300 4),
     (256, bytesOf 0x005F 2), (258, bytesOf 3 1), (259, bytesOf 7 1), (260, bytesOf 0x17 1), (261, bytesOf 0x06 1),
     (262, bytesOf 255 1), (263, bytesOf 4 1), (266, bytesOf 378 2), (268, bytesOf 393 2), (328, bytesOf 0x40000007 4),
     (512, bytesOf 0x66 1), (513, bytesOf 0x44 1), (516, bytesOf 256 4), (520, bytesOf 0x00DF 2), (522, bytesOf 0 2),
     (524, bytesOf 0x04 1), (525, bytesOf 0 1), (526, bytesOf 63 2), (528, bytesOf 63 2), (532, bytesOf 0 2),
     (536, bytesOf 0x00000002 4), (540, bytesOf 256 4), (768, padTo 256 (ascii "nqn.2021-06.com.ahnot:margor:" ++ s.serial16)),
     (2048, powerDescriptor 5800 false 0 0 0), (2080, powerDescriptor 4000 false 0 0 1), (2112, powerDescriptor 2500 false 0 0 2),
     (2144, powerDescriptor 320 true 10000 40000 3), (2176, powerDescriptor 18 true 30000 2700000 4)]

/-- An LBA format (R130). -/
def lbaFormat (fmt : Nat) : List Byte :=
  bytesOf (metaBytes fmt) 2 ++ bytesOf (if fmt = 5 then 9 else 12) 1 ++ bytesOf (if fmt = 5 then 3 else 0) 1

/-- Identify Namespace (R130), of a namespace or of none (the common values). -/
def State.identifyNamespace (s : State) (n : Option Namespace) : List Byte :=
  let lbas := (n.map (·.lbas)).getD 0
  let fmt := (n.map (·.format)).getD 0
  let run := if fmt = 5 then 511 else 63
  let del := if fmt = 5 then 7 else 0
  let pi := (n.map fun x => x.pi + 8 * b2n x.piFirst).getD 0
  overlay (s.freeBytes 4096)
    [(0, bytesOf lbas 8), (8, bytesOf lbas 8), (16, bytesOf lbas 8), (24, bytesOf 0x16 1), (25, bytesOf 5 1),
     (26, bytesOf (fmt + 16 * b2n ((n.map (·.extended)).getD false)) 1), (27, bytesOf 0x03 1), (28, bytesOf 0x1F 1),
     (29, bytesOf pi 1), (33, bytesOf 0x19 1), (34, bytesOf run 2), (36, bytesOf run 2), (64, bytesOf run 2), (66, bytesOf run 2),
     (68, bytesOf del 2), (70, bytesOf del 2), (72, bytesOf run 2), (128, (List.range 6).flatMap lbaFormat)]

/-- The extended LBA format list: `PIF` of the guard sizes, `STS` 0 (R130). -/
def extendedFormats : List Byte :=
  (List.range 6).flatMap fun f => bytesOf ((if f = 3 then 1 else if f = 4 then 2 else 0) * 128) 4

/-- The identifiers above `nsid` that satisfy `p`, as a list of 1,024. -/
def State.nsList (s : State) (nsid : Nat) (p : Namespace → Bool) : List Byte :=
  padTo 4096 (((List.range 256).filter fun k => nsid < k + 1 && ((tget s.ns k).map p).getD false).flatMap fun k => bytesOf (k + 1) 4)

/-- The structure that a CNS names; none where it is not served. -/
def State.identifyData (s : State) (cns nsid : Nat) : Except Nat (List Byte) :=
  let found (p : Namespace → Bool) : Option Namespace := if nsid = 0 then none else (tget s.ns (nsid - 1)).filter p
  let badId : Bool := nsid == 0 || (256 < nsid && nsid != 0xFFFFFFFF)
  if cns = 0x00 then
    (if nsid = 0xFFFFFFFF then .ok (s.identifyNamespace none)
     else if badId then .error (stat 0 0x0B)
     else match found (·.attached) with
       | some n => .ok (s.identifyNamespace (some n))
       | none => .ok (zeros 4096))
  else if cns = 0x01 then .ok s.identifyController
  else if cns = 0x02 then .ok (s.nsList nsid (·.attached))
  else if cns = 0x03 then (if (found (·.attached)).isSome then .ok (s.freeBytes 4096) else .error (stat 0 0x0B))
  else if cns = 0x05 then
    (if (found (·.attached)).isSome then .ok (overlay (s.freeBytes 4096) [(12, extendedFormats)]) else .error (stat 0 0x0B))
  else if cns = 0x06 ∨ cns = 0x08 ∨ cns = 0x1C then .ok (s.freeBytes 4096)
  else if cns = 0x10 then .ok (s.nsList nsid fun _ => true)
  else if cns = 0x11 then (if badId then .error (stat 0 0x0B) else match found (fun _ => true) with
       | some n => .ok (s.identifyNamespace (some n))
       | none => .ok (zeros 4096))
  else if cns = 0x12 then .ok (padTo 4096 (if (found (·.attached)).isSome then [1#8, 0#8, 1#8, 0#8] else []))
  else if cns = 0x13 then .ok (padTo 4096 [1#8, 0#8, 1#8, 0#8])
  else .error (stat 0 0x02)

/-- IDENTIFY (R129, R130). -/
def execIdentify (slot : SlotId) (s : State) : Out :=
  .next (
    let k := slot.toNat
    s.adminCmd k 0x06 fun e =>
      match s.identifyData (e.cmd.dw10.toNat % 256) e.cmd.nsid.toNat with
      | .error st => s.finish k st
      | .ok l => s.adminReturn (s.tickBy 512) k l)

/-! ### Abort, Asynchronous Event Request, Device Self-test (R126, R129, R163) -/

/-- Commands of this opcode in flight that were fetched before. -/
def State.earlier (s : State) (op order : Nat) : Nat :=
  countIf (fun (x : Nat × Slot) => x.2.admin && cmdOp x.2.cmd == op && decide (x.2.order < order)) s.hqe.slots

/-- ABORT (R163): the named command continues; a fifth outstanding Abort is refused. -/
def execAbort (slot : SlotId) (s : State) : Out :=
  .next (
    let k := slot.toNat
    s.adminCmd k 0x08 fun e => if 4 ≤ s.earlier 0x08 e.order then s.finish k (stat 1 0x03) else s.finish k 0 1)

/-- ASYNC_EVENT_REQUEST (R126, R129): held until an event, at most eight at once. -/
def execAsyncEventRequest (slot : SlotId) (s : State) : Out :=
  .next (
    let k := slot.toNat
    s.adminCmd k 0x0C fun _ =>
      if s.hqe.aers.contains k then s
      else if 8 ≤ s.hqe.aers.length then s.finish k (stat 1 0x05)
      else
        let t : State := { s with hqe := { s.hqe with aers := s.hqe.aers ++ [k] } }
        match t.hqe.events with
        | [] => t
        | (a, b, c) :: rest => State.asyncEvent { t with hqe := { t.hqe with events := rest } } a b c)

/-- DEVICE_SELF_TEST (R126): accepted; what a test finds is a free value of page 0x06 (log entry 76). -/
def execDeviceSelfTest (slot : SlotId) (s : State) : Out :=
  .next (
    let k := slot.toNat
    s.adminCmd k 0x14 fun e =>
      let stc := e.cmd.dw10.toNat % 16
      if stc = 1 ∨ stc = 2 ∨ stc = 0xF then s.finish k 0 else s.finish k (stat 0 0x02))

/-! ### Features (R127) -/

/-- The features that are set and got in the general way. -/
def plainFeatures : List Nat := [0x01, 0x04, 0x05, 0x07, 0x08, 0x09, 0x0A, 0x0B]

/-- A feature takes a value, saved too where `SV` is set. -/
def State.setFeature (s : State) (key v : Nat) (save : Bool) : State :=
  { s with hqe := { s.hqe with
    features := tput s.hqe.features key v
    saved := if save then tput s.hqe.saved key v else s.hqe.saved } }

/-- The value that a feature stores. -/
def featureValue (fid dw11 : Nat) : Nat :=
  if fid = 0x04 then dw11 % 65536 else if fid = 0x09 then dw11 / 65536 % 2 else dw11

/-- SET_FEATURES (R127): the features that carry their value in dword 11. Every other identifier is refused, Volatile Write
Cache too; Power Management and Timestamp have their own rows. -/
def execSetFeatures (slot : SlotId) (s : State) : Out :=
  .next (
    let k := slot.toNat
    s.adminCmd k 0x09 fun e =>
      let fid := e.cmd.dw10.toNat % 256
      let save := e.cmd.dw10.getLsbD 31
      let v := e.cmd.dw11.toNat
      let nsid := e.cmd.nsid.toNat
      if fid = 0x02 ∨ fid = 0x0E then s
      else if !plainFeatures.contains fid then s.finish k (stat 0 0x02)
      else if fid = 0x07 then
        (if v % 65536 = 65535 ∨ v / 65536 = 65535 then s.finish k (stat 0 0x02) else s.finish k 0 0xFFFEFFFE)
      else if fid = 0x05 then
        (if nsid = 0xFFFFFFFF then
          (s.ns.foldl (fun (t : State) (n : Nat × Namespace) => t.setFeature (featureKey 0x05 (n.1 + 1) 0) v save) s).finish k 0
        else if (s.activeNs nsid).isNone then s.finish k (stat 0 0x0B)
        else (s.setFeature (featureKey 0x05 nsid 0) v save).finish k 0)
      else (s.setFeature (featureKey fid nsid v) (featureValue fid v) save).finish k 0)

/-- The default value of a feature. -/
def featureDefault (fid dw11 : Nat) : Nat :=
  if fid = 0x04 ∧ dw11 / 2 ^ 16 % 64 = 0 then 378 else if fid = 0x07 then 0xFFFEFFFE else if fid = 0x09 then dw11 % 65536 else 0

/-- What Get Features answers: data and dword 0, or a status. Current, default, saved value, or capabilities: saveable, by
namespace, changeable. The Timestamp returns its data structure, and has no select. -/
def State.featureAnswer (s : State) (c : NvmeCmd) : Except Nat (List Byte × Nat) :=
  let fid := c.dw10.toNat % 256
  let sel := c.dw10.toNat / 256 % 8
  let v := c.dw11.toNat
  let key := featureKey fid c.nsid.toNat v
  let own := if fid = 0x09 then v % 65536 else 0
  let scale := if fid = 0x09 then 65536 else 1
  if fid = 0x0E then
    (if sel ≠ 0 then .error (stat 0 0x02)
    else .ok (bytesOf s.stampMs 6 ++ bytesOf (s.fld fTMR_STAT_SYNCH + 2 * s.fld fTMR_STAMP_ORIGIN) 1 ++ zeros 1, 0))
  else if !(plainFeatures.contains fid || fid == 0x02) then .error (stat 0 0x02)
  else if fid = 0x05 ∧ (s.activeNs c.nsid.toNat).isNone = true then .error (stat 0 0x0B)
  else if sel = 3 then .ok ([], 5 + 2 * b2n (fid == 0x05))
  else if sel = 0 then .ok ([], (tget s.hqe.features key).elim (featureDefault fid v) fun x => own + scale * x)
  else if sel = 1 then .ok ([], featureDefault fid v)
  else if sel = 2 then .ok ([], (tget s.hqe.saved key).elim (featureDefault fid v) fun x => own + scale * x)
  else .error (stat 0 0x02)

/-- GET_FEATURES (R127, R529, R541). -/
def execGetFeatures (slot : SlotId) (s : State) : Out :=
  .next (
    let k := slot.toNat
    s.adminCmd k 0x0A fun e =>
      match s.featureAnswer e.cmd with
      | .error st => s.finish k st
      | .ok r => if r.1.isEmpty then s.finish k 0 r.2 else s.adminReturn s k r.1)

/-- POWER_MANAGEMENT_FEATURE (R40, R504, R529, R532): an operational state is taken at once; PS3 and PS4 complete and sleep entry
begins: fetching stops, and a pending Scheduled Activation ends. `l12`: ASPM L1.2 is enabled on the link. -/
def execPowerManagementFeature (slot : SlotId) (l12 : Bool) (s : State) : Out :=
  .next (
    let k := slot.toNat
    s.adminCmd k 0x09 fun e =>
      let ps := e.cmd.dw11.toNat % 32
      let save := e.cmd.dw10.getLsbD 31
      if e.cmd.dw10.toNat % 256 ≠ 0x02 then s
      else if 4 < ps ∨ (ps = 4 ∧ l12 = false) then s.finish k (stat 0 0x02)
      else if ps ≤ 2 then
        let s := s.setFeature 0x02 ps save
        (s.withPwr { s.pwr with lastOp := ps }).finish k 0
      else if s.sig.sanState = 1 ∨ s.mode = 6 ∨ s.mode = 7 then s.finish k (stat 0 0x0C)
      else
        let s := (s.setFeature 0x02 ps save).finish k 0
        let s := match s.boot.sched with
          | some p => State.finishOrder { s with boot := { s.boot with sched := none } } p.order (stat 0 0x07)
          | none => s
        let s := s.setFld fHQE_CTL_FETCH 0
        (s.withPwr { s.pwr with entry := if ps = 3 then idleRetain else deepSleep }).fwAdvance)

/-- The ages of closed bands grow by the time the device was unpowered, in tenths of hours (R239). -/
def State.addUnpowered (s : State) (hours : Nat) : State :=
  s.withFw { s.fw with bands := s.fw.bands.map fun (b : Nat × Band) =>
    (b.1, if b.2.state = 1 then { b.2 with extraHours := b.2.extraHours + hours } else b.2) }

/-- TIMESTAMP_FEATURE (R239, R541): the Timestamp is anchored afresh, with origin 1; the first after a start extends the ages of
bands by the unpowered interval, and one of more than 30 days lets Assay acquire again (R350). It has no saved value. -/
def execTimestampFeature (slot : SlotId) (beads : List BeadId) (s : State) : Out :=
  .next (
    let k := slot.toNat
    match s.adminSlot k 0x09 with
    | none => s
    | some c =>
      if c.cmd.dw10.toNat % 256 ≠ 0x0E then s
      else s.adminPull k 0x09 beads fun s e l =>
        if e.cmd.dw10.getLsbD 31 then s.finish k (stat 1 0x0D)
        else
          let ms := (leValue (l.take 6)) % 2 ^ 48
          let s := match s.pwr.stampSaved with
            | some old =>
              let up := s.now / 1000000
              let away := ms - old - up
              let s := if 30 * 86400000 < away then s.asyAcq else s
              (s.addUnpowered (away / 360000)).withPwr { s.pwr with stampSaved := none }
            | none => s
          (s.setStamp (BitVec.ofNat 64 (ms + 2 ^ 48))).finish k 0)

/-! ### Namespaces (R171, R196, R247) -/

/-- The lowest free run of `n` map pages (R196). -/
def State.freeBase (s : State) (n : Nat) : Nat :=
  let ends := 0 :: s.ns.map fun (x : Nat × Namespace) => x.2.base + (x.2.units + 1023) / 1024
  let free (b : Nat) : Bool := s.ns.all fun (x : Nat × Namespace) =>
    decide (b + n ≤ x.2.base) || decide (x.2.base + (x.2.units + 1023) / 1024 ≤ b)
  (ends.filter free).foldl min (2 ^ 32)

/-- A new namespace enters with its key and its record, and the command that created it ends (R247, R449). -/
def State.nsCreated (s : State) (k i : Nat) (n : Namespace) : State :=
  let s := ({ s with ns := tput s.ns i n } : State)
  let s := (s.journal (.nspace i false n.base n.units)).nsKeys 1 i
  s.checkHealth.finish k 0 (i + 1)

/-- A namespace is created from its Identify structure, its record durable before the command ends (R247, R275, R449): until then it
waits, as `wait` stood. -/
def State.createNs (s wait : State) (k : Nat) (l : List Byte) : State :=
  let nsze := leValue (l.take 8)
  let ncap := leValue ((l.drop 8).take 8)
  let flbas := leValue ((l.drop 26).take 1)
  let dps := leValue ((l.drop 29).take 1)
  let fmt := flbas % 16
  let pi := dps % 8
  match leastBelow (fun i => (tget s.ns i).isNone) 256 with
  | none => s.finish k (stat 1 0x16)
  | some i =>
    if 5 < fmt ∨ 3 < pi ∨ (pi ≠ 0 ∧ piBytes fmt = 0) then s.finish k (stat 1 0x0A)
    else if nsze = 0 then s.finish k (stat 0 0x02)
    else if ncap ≠ nsze then s.finish k (stat 1 0x1B)
    else
      let n : Namespace := ⟨0, nsze, fmt, pi, dps.testBit 3, false, flbas.testBit 4, none, none⟩
      if s.belowShare (s.reserveFor (s.allocatedUnits + n.units)) 8 then s.finish k (stat 1 0x15)
      else
        let n := { n with base := s.freeBase ((n.units + 1023) / 1024) }
        s.durably (fun s => s.nsCreated k i n) wait

/-- The map pages of a namespace, at a size in units, are its own. -/
def State.pagesFree (s : State) (k base units : Nat) : Bool :=
  s.ns.all fun (x : Nat × Namespace) => x.1 == k || decide (base + ceilDiv units 1024 ≤ x.2.base) ||
    decide (x.2.base + ceilDiv x.2.units 1024 ≤ base)

/-- A namespace takes its new size: what it loses is deallocated, its own range follows, and the command that asked for it ends. -/
def State.nsResized (s : State) (k i : Nat) (n m : Namespace) : State :=
  let s := if m.lbas < n.lbas then s.deallocRuns i [(m.lbas, n.lbas - m.lbas)] else s
  let s := ({ s with ns := tput s.ns i m } : State)
  let s := match tget s.sig.ranges i with
    | some r => s.withSig { s.sig with ranges := tput s.sig.ranges i { r with len := m.lbas } }
    | none => s
  ((s.journal (.nspace i false m.base m.units)).checkHealth.nsNotice [i + 1]).finish k 0

/-- A namespace takes another size, its dispatched commands ended: what it loses is deallocated, and its record is durable before
the command ends (R196, R247, R275; log entry 116). -/
def State.resizeNs (s wait : State) (k i : Nat) (n : Namespace) (l : List Byte) : State :=
  let nsze := leValue (l.take 8)
  let m := { n with lbas := nsze }
  if n.formatting then s.finish k (stat 0 0x84)
  else if n.leaving.isSome then s.finish k (stat 0 0x0B)
  else if nsze = 0 then s.finish k (stat 0 0x02)
  else if leValue ((l.drop 8).take 8) ≠ nsze then s.finish k (stat 1 0x1B)
  else if s.belowShare (s.reserveFor (s.allocatedUnits - n.units + m.units)) 8 || !s.pagesFree i n.base m.units then
    s.finish k (stat 1 0x15)
  else if s.nsBusy i then wait
  else s.durably (fun s => s.nsResized k i n m) wait

/-- NAMESPACE_MANAGEMENT (R171, R247, R449, R477): create, resize, or delete, which waits for commands already dispatched. -/
def execNamespaceManagement (slot : SlotId) (beads : List BeadId) (s : State) : Out :=
  .next (
    let k := slot.toNat
    s.adminPull k 0x0D beads fun t e l =>
      let wait := s
      let s := t
      let sel := e.cmd.dw10.toNat % 16
      let nsid := e.cmd.nsid.toNat
      if sel = 0 then s.createNs wait k l
      else if sel = 2 then
        (match (if nsid = 0 then none else tget s.ns (nsid - 1)) with
        | none => s.finish k (stat 0 0x0B)
        | some n => s.resizeNs wait k (nsid - 1) n l)
      else if sel = 1 then
        (if nsid = 0xFFFFFFFF then
          let s : State := { s with ns := s.ns.map fun (x : Nat × Namespace) =>
            (x.1, if x.2.leaving.isSome then x.2 else { x.2 with leaving := some (e.order, true) }) }
          (if s.ns.any fun (x : Nat × Namespace) => x.2.leaving == some (e.order, true) then s.fwAdvance else s.finish k 0)
        else if nsid = 0 then s.finish k (stat 0 0x0B)
        else match tget s.ns (nsid - 1) with
          | none => s.finish k (stat 0 0x0B)
          | some n =>
            if n.leaving.isSome then s.finish k (stat 0 0x0B)
            else State.fwAdvance { s with ns := tput s.ns (nsid - 1) { n with leaving := some (e.order, true) } })
      else s.finish k (stat 0 0x02))

/-- NAMESPACE_ATTACHMENT (R171): attach, or detach, which waits for commands already dispatched; the controller list must name
controller 1. -/
def execNamespaceAttachment (slot : SlotId) (beads : List BeadId) (s : State) : Out :=
  .next (
    let k := slot.toNat
    s.adminPull k 0x15 beads fun s e l =>
      let sel := e.cmd.dw10.toNat % 16
      let nsid := e.cmd.nsid.toNat
      let n := if nsid = 0 then none else tget s.ns (nsid - 1)
      if 1 < sel then s.finish k (stat 0 0x02)
      else match n with
      | none => s.finish k (stat 0 0x0B)
      | some n =>
        if leValue (l.take 2) ≠ 1 ∨ leValue ((l.drop 2).take 2) ≠ 1 then s.finish k (stat 1 0x1C)
        else if sel = 0 then
          (if n.attached then s.finish k (stat 1 0x18)
          else
            let s : State := { s with ns := tput s.ns (nsid - 1) { n with attached := true } }
            (s.nsNotice [nsid]).finish k 0)
        else if !n.attached then s.finish k (stat 1 0x1A)
        else if n.leaving.isSome then s.finish k (stat 0 0x0B)
        else State.fwAdvance { s with ns := tput s.ns (nsid - 1) { n with leaving := some (e.order, false) } })

/-! ### Format NVM (R170, R477) -/

/-- FORMAT_NVM (R129, R170, R248, R477): the namespaces that it names take the format once their dispatched commands have
completed; a namespace that is being formatted refuses another. -/
def execFormatNvm (slot : SlotId) (s : State) : Out :=
  .next (
    let k := slot.toNat
    s.adminCmd k 0x80 fun e =>
      let d := e.cmd.dw10.toNat
      let fmt := d % 16 + d / 2 ^ 12 % 4 * 16
      let pi := d / 32 % 8
      let ses := d / 512 % 8
      let nsid := e.cmd.nsid.toNat
      let all := nsid == 0xFFFFFFFF
      let f : FormatTo := ⟨fmt, pi, d.testBit 8, d.testBit 4, 1 ≤ ses, all, e.order⟩
      let mine := s.ns.filter fun (x : Nat × Namespace) => all || x.1 + 1 == nsid
      if 2 < ses then s.finish k (stat 0 0x02)
      else if 5 < fmt ∨ 3 < pi ∨ (pi ≠ 0 ∧ piBytes fmt = 0) then s.finish k (stat 1 0x0A)
      else if mine.isEmpty then s.finish k (if all then 0 else stat 0 0x0B)
      else if mine.any fun (x : Nat × Namespace) => (x.2.formatTo.map (·.order)) == some e.order then s.fwAdvance
      else if mine.any fun (x : Nat × Namespace) => x.2.formatting then s.finish k (stat 0 0x84)
      else
        State.fwAdvance { s with ns := s.ns.map fun (x : Nat × Namespace) =>
          (x.1, if all || x.1 + 1 == nsid then { x.2 with formatTo := some f } else x.2) })

end Sys2Proof.Machine
end

