-- ==== Sys2Proof/Machine/Sanitize.lean ====
section
/-! DEFINITION. Sanitize: its commands, and the steps that firmware and Signet carry out together (R169, R473 to R476). -/

namespace Sys2Proof.Machine

open Sys2Proof

/-! ### The commands (R169, R473, R475) -/

/-- A Sanitize command with this action; an action that `SANICAP` does not name is refused by whichever row meets it. -/
def State.sanCommand (s : State) (k act : Nat) (f : Slot → State) : State :=
  s.adminCmd k 0x84 fun e =>
    let a := e.cmd.dw10.toNat % 8
    if a = act then f e
    else if 1 ≤ a ∧ a ≤ 4 then s
    else s.finish k (stat 0 (if s.sig.sanState = 1 then 0x1D else if s.sig.sanState = 3 then 0x1C else 0x02))

/-- A sanitize operation is accepted: its state goes to Locket, I/O is no longer dispatched, and the command completes. -/
def State.sanAccept (s : State) (k act : Nat) (e : Slot) : State :=
  if s.sig.sanState = 1 then s.finish k (stat 0 0x1D)
  else
    let d := e.cmd.dw10.toNat
    let s := s.withSig { s.sig with
      sanAct := act, sanAuse := d.testBit 3, sanPasses := if act = 3 then (if d / 16 % 16 = 0 then 16 else d / 16 % 16) else 0
      sanInvert := d.testBit 8, sanNdas := d.testBit 9, sanPattern := e.cmd.dw11.toNat
      sanState := 1, sanProg := 0, sanPass := 0, sanKeysDone := false, sanCdw10 := d }
    (s.showSan.finish k 0).fwAdvance

/-- SANITIZE_BLOCK_ERASE (R169, R473). -/
def execSanitizeBlockErase (slot : SlotId) (s : State) : Out :=
  .next (s.sanCommand slot.toNat 2 fun e => s.sanAccept slot.toNat 2 e)

/-- SANITIZE_OVERWRITE (R169, R473). -/
def execSanitizeOverwrite (slot : SlotId) (s : State) : Out :=
  .next (s.sanCommand slot.toNat 3 fun e => s.sanAccept slot.toNat 3 e)

/-- SANITIZE_CRYPTO_ERASE (R169, R473). -/
def execSanitizeCryptoErase (slot : SlotId) (s : State) : Out :=
  .next (s.sanCommand slot.toNat 4 fun e => s.sanAccept slot.toNat 4 e)

/-- SANITIZE_EXIT_FAILURE_MODE (R475): leaves the failed state where the failed operation allowed it. With no failure it has
nothing to leave. -/
def execSanitizeExitFailureMode (slot : SlotId) (s : State) : Out :=
  .next (
    let k := slot.toNat
    s.sanCommand k 1 fun _ =>
      if s.sig.sanState ≠ 3 then s.finish k 0
      else if !s.sig.sanAuse then s.finish k (stat 0 0x1C)
      else
        let s := (s.withSig { s.sig with sanState := 0 }).showSan
        let s := if s.mode = 6 then s.modeRequest (s.fld fHQE_DCFG_AEP) 6 else s
        s.finish k 0)

/-! ### Flash work (R473) -/

/-- Every good block of every good die but the system area and the stripe journal. -/
def State.sanBlocks (s : State) : List Nat :=
  let all := s.goodDies.flatMap fun d =>
    (List.range s.fw.planes).flatMap fun p => (List.range s.fw.blocksPer).map fun b => d * 2 ^ 17 + p * 2 ^ 14 + b
  let keep := s.fw.copies.map fun c => c.1 * 2 ^ 17 + c.2
  all.filter fun b =>
    let r := s.blk b
    r.state != 6 && r.state != 7 && !(r.state != 0 && r.use == 6) && !keep.contains b

/-- Those blocks are erased, `bad` ones without success, which retires them; every band but those of the system area goes, and
with the journal's bands the journal. -/
def State.eraseFlash (s : State) (bad : List Nat) : State :=
  let s := (s.fw.bands.filter fun (e : Nat × Band) => e.2.state != 2 && e.2.use != 6).foldl
    (fun (t : State) e => t.releaseBand e.1) s
  let s := s.sanBlocks.foldl (fun (t : State) b =>
    let t := t.eraseBegins b
    if bad.contains b then t.retire b else t.blockErased b) s
  let kept (b : Nat) : Bool := (s.blk b).state == 2
  s.withFw { s.fw with
    frontier := s.fw.frontier.filter fun e => kept e.1
    durFrontier := s.fw.durFrontier.filter fun e => kept e.1
    direct := [], staging := [], placed := [], ranges := [], repairs := [], served := []
    journal := [], jUnits := [], jWait := [], jFlush := none, replayIndex := [] }

/-- Every page of those blocks is programmed with the pattern. -/
def State.patternPass (s : State) : State :=
  s.sanBlocks.foldl (fun (t : State) b => t.setBlk b { t.blk b with programmed := true, lastSlc := false }) s

/-- Every unit of every namespace with the pattern as host data under the new keys (R454, R473), and its sequence number. -/
def State.patternUnits (s : State) (pattern : Nat) : State × List UnitIn :=
  let word := BitVec.ofNat 64 (pattern + pattern * 2 ^ 32)
  let plain := List.replicate 512 word
  let all := s.ns.flatMap fun (n : Nat × Namespace) => (List.range n.2.units).map fun u => (n.1, n.2.format, u)
  let r := s.takeSeqs all.length
  (r.1, (all.zip r.2).map fun (x : (Nat × Nat × Nat) × Nat) =>
    let data := (s.cipherUnit true x.1.1 x.1.2.1 (unitLba x.1.2.1 x.1.2.2) 0xFF plain).getD plain
    ⟨data, List.replicate 8 0#64, x.2, x.1.2.2, x.1.1, 0⟩)

/-- The last pass of an overwrite that keeps the map writes every unit, to direct bands; none where the places do not suffice. -/
def State.writePattern (s : State) : List StripeAt → List UnitIn → Option State
  | _, [] => some s
  | [], _ => none
  | w :: ws, us =>
    let q := s.putUnits 1 [w] us
    let t := (us.zip q.2).foldl (fun (t : State) (x : UnitIn × Nat) =>
      t.updateUnit x.1.ns x.1.lba x.1.seq (mkEntry x.2 false false false true x.1.seq)) q.1
    (t.stripeSync.flushNow false).writePattern ws (us.drop q.2.length)

/-- The erases and the passes of an overwrite (R473): the blocks are erased before each pass, as a program needs (log entry 72), and
after the last where the map is not kept. The pass that writes the units is not among them. -/
def State.overwrite (s : State) (bad : List Nat) : Nat → State
  | 0 => s.eraseFlash bad
  | n + 1 => ((s.eraseFlash bad).patternPass).overwrite bad n

/-- The flash work of the operation in force: crypto erase unmaps, or writes the map back; block erase erases and unmaps; overwrite
erases between its passes and ends erased, or with every unit holding the pattern. None where the places do not suffice. -/
def State.sanFlash (s : State) (bad : List Nat) (ats : List StripeAt) : Option State :=
  let g := s.sig
  if g.sanAct = 4 then
    (if g.sanNdas then
      let t := s.movePages ats s.dirtyPages
      if t.dirtyPages.isEmpty then some t.clearFrames else none
    else some s.deallocEverything.clearMap)
  else if g.sanAct = 2 then some ((s.eraseFlash bad).clearMap.startBands [0, 1, 2, 3, 4, 3])
  else
    let s := (s.overwrite bad (if g.sanNdas then g.sanPasses - 1 else g.sanPasses)).clearMap.startBands [0, 1, 2, 3, 4, 3]
    let s := s.withSig { s.sig with sanPass := g.sanPasses }
    let last := if g.sanInvert && g.sanPasses % 2 == 0 then 0xFFFFFFFF - g.sanPattern % 2 ^ 32 else g.sanPattern % 2 ^ 32
    if g.sanNdas then
      let r := s.patternUnits last
      (r.1.writePattern ats r.2).bind fun t =>
        let u := t.movePages (ats.drop (ats.length - t.dirtyPages.length)) t.dirtyPages
        if u.dirtyPages.isEmpty then some u.clearFrames else none
    else some s

/-- The operation ends with success (R454, R473, R476). -/
def State.sanEnds (s : State) (bad : List Nat) : State :=
  let s := s.clearCopies
  let s := (s.withSig { s.sig with sanState := 2, sanProg := 65535 }).showSan
  let s := if bad.isEmpty ∧ s.fw.lostDies.isEmpty = true then s else s.tell 2 .sanitizeCount bad.length
  (s.loadUnlocked.modeRequest (s.fld fHQE_DCFG_AEP) 6).checkHealth

/-- SVC_SANSTEP (R449, R454, R473 to R475; log entry 72): the first step replaces all keys, locked ranges keep their lock state,
and every range's key is loaded; it fails where the replacement cannot commit. The second ends the operation, its flash work
done: `bad` blocks could not be erased, `ats` hold the units of an overwrite that keeps the map. -/
def execSvcSanstep (src : Endpoint) (ok : Bool) (bad : List BlockId) (ats : List StripeAt) (s : State) : Out :=
  .next (s.serve src.toNat 6 fun s _ =>
    let s := s.sanAdvance
    if s.sig.sanState ≠ 1 ∨ s.mode ≠ 6 then (s, 1, [])
    else if !s.sig.sanKeysDone then
      (if ok then
        let s := s.replaceAll
        let s := s.setLoaded (s.sig.ranges.foldl (fun (t : Tab Unit) (r : Nat × Range) => if r.2.valid then sAdd t r.1 else t) [])
        ((s.withSig { s.sig with sanKeysDone := true }).showSan, 0, [])
      else (s.sanFails, 1, []))
    else match s.sanFlash (bad.map (·.toNat)) ats with
    | some t => (t.sanEnds (bad.map (·.toNat)), 0, [])
    | none => (s, 3, []))

end Sys2Proof.Machine
end

