-- ==== Sys2Proof/Machine/Security.lean ====
section
/-! DEFINITION. Security Send and Receive, Signet's services, and its tests (R449, R454, R456, R457, R469, R470, R477, R490,
R491). -/

namespace Sys2Proof.Machine

open Sys2Proof

/-! ### Security Send and Receive (R457) -/

/-- The security protocols that are accepted (R457). -/
def secProtocols : List Nat := [0x00, 0x01, 0x02, 0xE8, 0xF0]

/-- What Security Receive of a protocol gives, at most `n` bytes: the list of protocols, Level 0 discovery, or the oldest response
that waits and fits (log entry 73). -/
def State.secReceive (s : State) (secp spsp n : Nat) : State × List Byte :=
  if secp = 0 then (s, (zeros 6 ++ beBytes 2 5 ++ secProtocols.map (BitVec.ofNat 8)).take n)
  else if secp = 1 ∧ spsp = 1 then
    (s, (Config.level0 s.sig.locking ((List.range 320).any fun r => s.rangeLocked r) s.sig.blockSid).take n)
  else match takeFirst (fun (x : Nat × List Byte) => x.1 == secp) s.sig.outbox with
  | some ((_, l), rest) => if l.length ≤ n then (s.withSig { s.sig with outbox := rest }, l) else (s, [])
  | none => (s, [])

/-- SECURITY_SEND (R449, R457, R470): the payload goes to Signet, whose Opal, SPDM and keyed-session rows are what it says
(log entry 73). -/
def execSecuritySend (slot : SlotId) (beads : List BeadId) (s : State) : Out :=
  .next (
    let k := slot.toNat
    s.adminPull k 0x81 beads fun s e _ =>
      if !secProtocols.contains (e.cmd.dw10.toNat / 2 ^ 24) then s.finish k (stat 0 0x02)
      else
        let s := s.incWrap fSIG_SVC_CALLS
        if s.flag fSIG_STAT_ERR then (s.incSat fSIG_SVC_REFUSED).finish k (stat 0 0x06) else s.finish k 0)

/-- SECURITY_RECEIVE (R449, R457, R470). -/
def execSecurityReceive (slot : SlotId) (s : State) : Out :=
  .next (
    let k := slot.toNat
    s.adminCmd k 0x82 fun e =>
      let d := e.cmd.dw10.toNat
      let n := adminBytes e.cmd
      if !secProtocols.contains (d / 2 ^ 24) then s.finish k (stat 0 0x02)
      else
        let t := s.incWrap fSIG_SVC_CALLS
        if t.flag fSIG_STAT_ERR then (t.incSat fSIG_SVC_REFUSED).finish k (stat 0 0x06)
        else
          let r := t.secReceive (d / 2 ^ 24) (d / 2 ^ 8 % 65536) n
          s.adminReturn r.1 k (padTo n r.2))

/-! ### Services with beads (R88, R449) -/

/-- The beads that a request names from byte 16 on, for its length. -/
def namedBeads (p : BitVec 512) : List Nat :=
  (List.range (min 24 ((pGet p 12 4 + 4095) / 4096))).map fun i => pGet p (16 + 2 * i) 2

/-- The grants of named beads return to the sender. -/
def State.returnBeads (s : State) (p : BitVec 512) (src : Nat) : State :=
  (namedBeads p).foldl (fun (t : State) b => if t.granted b 112 then t.giveBead b src else t) s

/-- Bytes are written to the named beads. -/
def State.fillBeads (s : State) (p : BitVec 512) (l : List Byte) : State :=
  ((namedBeads p).mapIdx fun i b => (i, b)).foldl (fun (t : State) (x : Nat × Nat) =>
    if t.granted x.2 112 then
      t.withMem (t.mem.writeDoubles (beadAddr x.2) (bytesWords (padTo 4096 (l.drop (4096 * x.1)))))
    else t) s

/-- SVC_RANDOM (R449): 48 random bytes, free values. -/
def execSvcRandom (src : Endpoint) (s : State) : Out :=
  .next (s.serve src.toNat 1 fun s _ =>
    (s.tickBy 6, 0, (List.range 6).map fun i => (8 + 8 * i, 8, (Config.freeWord (s.free + i)).toNat)))

/-- SVC_SECSEND (R449): a Security Send payload; a protocol that is not accepted is an invalid request. -/
def execSvcSecsend (src : Endpoint) (s : State) : Out :=
  .next (s.serve src.toNat 2 fun s p =>
    (s.returnBeads p src.toNat, if secProtocols.contains (pGet p 10 1) then 0 else 2, []))

/-- SVC_SECRECV (R449): a Security Receive into the named beads, with the length produced. -/
def execSvcSecrecv (src : Endpoint) (s : State) : Out :=
  .next (s.serve src.toNat 3 fun s p =>
    if !secProtocols.contains (pGet p 10 1) then (s.returnBeads p src.toNat, 2, [])
    else
      let r := s.secReceive (pGet p 10 1) (pGet p 8 2) (pGet p 12 4)
      ((r.1.fillBeads p r.2).returnBeads p src.toNat, 0, [(8, 4, r.2.length)]))

/-- The last SPDM or keyed-session response on the bus. -/
def State.lastAnswer (s : State) : List Byte :=
  (s.mgmt.out.reverse.findSome? fun (e : BusEvent) => match e with
    | .vendor code body => some (BitVec.ofNat 8 code :: body)
    | .spdm code body => some (BitVec.ofNat 8 code :: body)
    | _ => none).getD []

/-- SVC_MGMT (R449): an SPDM or keyed-session message, whose own row says what it does; the response is written to the named
beads. -/
def execSvcMgmt (src : Endpoint) (s : State) : Out :=
  .next (s.serve src.toNat 4 fun s p => ((s.fillBeads p s.lastAnswer).returnBeads p src.toNat, 0, []))

/-- SVC_NSKEY (R449, R477). -/
def execSvcNskey (src : Endpoint) (s : State) : Out :=
  .next (s.serve src.toNat 5 fun s p =>
    let op := pGet p 8 1
    if op = 0 ∨ 3 < op then (s, 2, []) else (s.nsKeys op (pGet p 9 1), 0, []))

/-- SVC_RELOAD (R420, R449): byte 8 names the core. -/
def execSvcReload (src : Endpoint) (s : State) : Out :=
  .next (s.serve src.toNat 7 fun s p =>
    let n := pGet p 8 1
    if 54 ≤ n then (s, 2, []) else (s.withSig { s.sig with reload := sAdd s.sig.reload n }, 0, []))

/-- A host command is being served with a key: one that moves data is dispatched and not answered. -/
def State.keyInUse (s : State) : Bool :=
  s.hqe.slots.any fun (e : Nat × Slot) => !e.2.admin && movesData (cmdOp e.2.cmd) && e.2.working

/-- SVC_SELFTEST (R449, R469, R470): refused while a host command is served with a key; `failed` is the first row whose test
fails, 0 none. -/
def execSvcSelftest (src : Endpoint) (failed : BitVec 8) (s : State) : Out :=
  .next (s.serve src.toNat 8 fun s _ =>
    if s.keyInUse then (s, 1, [])
    else if failed.toNat = 0 then (s, 0, [])
    else (s.signetError failed.toNat, 4, []))

/-- ENTROPY_HEALTH_FAIL (R469, R470): the sixth row of the tests. -/
def execEntropyHealthFail (s : State) : Out :=
  .next (if s.flag fSIG_STAT_ERR then s else s.signetError 6)

/-! ### READY (R449, R491) -/

/-- Floors rise to the lowest security version of each kind among the slots that hold a package that verifies (R491). -/
def State.raiseFloors (s : State) : State :=
  let good := [1, 2, 3].filterMap fun k => (s.slotPackage k).filter fun p => s.verifies true p && s.aboveFloors p
  if good.isEmpty then s
  else
    let low (i : Nat) : Nat := (good.map fun p => p.secVer.getD i 0).foldl min (2 ^ 32 - 1)
    s.withBoot { s.boot with floors := s.boot.floors.mapIdx fun i f => max f (low i) }

/-- SVC_READY (R41, R170, R449, R474, R491): accepted in Boot and once a start, with a health level. -/
def execSvcReady (src : Endpoint) (s : State) : Out :=
  .next (s.serve src.toNat 9 fun s p =>
    let level := pGet p 8 1
    if s.mode ≠ 1 ∨ s.sig.readyGiven = true then (s, 1, [])
    else if !isHealth level then (s, 2, [])
    else
      let s := s.withSig { s.sig with readyGiven := true }
      let t := s.bootEnds level
      if s.sig.sanState = 1 then (t, 0, []) else (t.raiseFloors.formatAdvance, 0, []))

end Sys2Proof.Machine
end

