-- ==== Sys2Proof/Machine/BootOps.lean ====
section
/-! DEFINITION. Device reset and the start through Boot: what survives, roles, loads, the Hallmark record, release (R25, R31, R47,
R114, R165, R239, R255, R290, R459, R492 to R497, R505, R518, R552 to R558, R570). -/

namespace Sys2Proof.Machine

open Sys2Proof

/-! ### Device reset -/

/-- What the firmware keeps in flash and in Locket; its tables in DRAM and SRAM are gone, and so are the records of journal and stripe
journal that were not durable (R255, R256, R389). -/
def Fw.afterReset (f : Fw) : Fw :=
  { f with
    entries := [], pageTab := [], dealloc := [], dirtySince := [], missNamed := [], seqC := 0, seqTop := 0
    jWait := [], jOldest := 0, jFlush := none, jEarly := false, snaps := f.snaps.filter (·.complete), frontier := []
    blocks := f.blocks.map fun (b : Nat × BlockRec) => (b.1, { b.2 with pooled := false }), released := []
    stripes := f.stripes.take f.stripesDone, hot := [], mirrors := [], sketch := [], evicted := []
    staging := [], direct := [], placed := [], foldRoom := 0, ranges := [], bandReleased := false
    slotFails := [], dieSlotFails := [], offlineAt := [], served := []
    repairs := f.repairs.map fun (r : Nat × Nat) => (r.1, 0), replayIndex := [], pfailLow := false, pfailStop := false
    pfailIgnore := false }

/-- What Signet keeps in Locket (R457, R458, R462, R464, R474). A bar lasts as long as it still had to. -/
def Sig.afterReset (g : Sig) (now : Nat) : Sig :=
  { g with
    loaded := [], opal := none, blockSid := false, ks := none, spdm := ⟨false, false, false, g.spdm.chains⟩
    readyGiven := false, reload := [], outbox := []
    keys := g.keys.map fun (k : Nat × KsKey) => (k.1, { k.2 with barredUntil := k.2.barredUntil - now }) }

/-- The boot store; the download buffer, an activation and a recovery transfer are discarded (R499, R503). -/
def Boot.afterReset (b : Boot) : Boot :=
  { b with pieces := [], act := none, sched := none, romState := 0, romFail := 0, romLen := 0, romTarget := 0, romPieces := []
           romPackage := none }

/-- The recorder keeps its pools, the mark, the counter codewords and the saved lifetime counts (R553 to R558). -/
def Evr.afterReset (e : Evr) : Evr :=
  { Evr.reset with
    poolErr := e.poolErr, poolCrit := e.poolCrit, poolFatal := e.poolFatal, poolSec := e.poolSec, mark := e.mark
    counterAt := e.counterAt
    counters := e.counters, lifetime := e.lifetimeSaved, lifetimeSaved := e.lifetimeSaved }

/-- An operational power state, else 0. -/
def operational (ps : Nat) : Nat := if ps ≤ 2 then ps else 0

/-- The controller's features take their saved values; what the host has been given stays given. A saved power state that is not
operational is not taken up. -/
def Hqe.afterReset (h : Hqe) : Hqe :=
  { Hqe.reset with
    features := (if 2 < tgetD h.saved 0x02 0 then tdel h.saved 0x02 else h.saved), saved := h.saved, hostOut := h.hostOut }

/-- The lock state after a power cycle or a hardware reset (R459): a range that lists it locks where its enables are set. -/
def Sig.lockBits (g : Sig) (rl wl : List Nat) : List Nat × List Nat :=
  let mk (old : List Nat) (on : Range → Bool) : List Nat := (List.range 5).map fun i =>
    sumOf (fun b => if old.getD i 0 / 2 ^ b % 2 = 1 ∨
      ((tget g.ranges (64 * i + b)).map fun x => x.valid && x.lockOnReset && on x) = some true then 2 ^ b else 0) (List.range 64)
  (mk rl (·.readEnabled), mk wl (·.writeEnabled))

/-- The lock state is written as a reset leaves it, without notices. -/
def State.putLocks (s : State) (l : List Nat × List Nat) : State :=
  (List.range 5).foldl (fun (t : State) i =>
    (t.setReg (rSIG_RLOCK i) (BitVec.ofNat 64 (l.1.getD i 0))).setReg (rSIG_WLOCK i) (BitVec.ofNat 64 (l.2.getD i 0))) s

/-- A format in progress starts again at the end of Boot (R170); no slot has its command any more, whose order number none takes. -/
def FormatTo.restarted (f : FormatTo) : FormatTo := { f with order := 2 ^ 64 }

/-- A device reset (R31, R41, R47, R114, R170): every unit at its reset state and the mode Boot; what is durable stays, programs and
erases of Locket under way are cut, an open Opal transaction is discarded, hold latches stay (R534). `p` is what stays of power
and pins. -/
def State.afterReset (s : State) (p : Pwr) : State :=
  let s := s.opalDiscard.lkInterrupted
  let locks := s.sig.lockBits s.readLocks s.writeLocks
  let t : State :=
    { State.reset with
      pending := s.pending, free := s.free, part := s.part, dramMiB := s.dramMiB
      regs := if (s.reg rPAD_HOLD) = 0#64 then [] else [(rPAD_HOLD, s.reg rPAD_HOLD)]
      clasps := Clasps.afterReset s.part.channels, evr := s.evr.afterReset, hqe := s.hqe.afterReset
      ns := s.ns.map fun (n : Nat × Namespace) => (n.1, { n.2 with formatTo := n.2.formatTo.map FormatTo.restarted, leaving := none })
      assay := ⟨[], [], [], 0, 0, s.assay.saved, s.assay.savedHours, 0, 0, 0, 0⟩
      fw := s.fw.afterReset, sig := s.sig.afterReset s.now, boot := s.boot.afterReset, lkt := s.lkt
      pwr := p, mgmt := { Mgmt.reset with out := s.mgmt.out } }
  t.putLocks locks

/-- Power and pins after a device reset with the supplies up: a trip and a limit are gone (R583). -/
def Pwr.afterReset (p : Pwr) (saved : Nat) : Pwr :=
  { Pwr.reset with
    vaon := p.vaon, porDone := p.porDone, perstLow := p.perstLow, recovLow := p.recovLow, crystal := p.crystal, addr := p.addr
    lastOp := operational saved, composite := p.composite, stampSaved := p.stampSaved }

/-- A device reset with the supplies up, with the cause of the start that follows (R495). -/
def State.deviceReset (s : State) (cause : Nat) : State :=
  let t := s.afterReset (s.pwr.afterReset (tgetD s.hqe.saved 0x02 0))
  t.withBoot { t.boot with startCause := cause }

/-! ### A start: counters, roles and loads -/

/-- The recorder and the operating counters at a start (R552, R554, R556): totals from the newest codeword, where a reset has
cleared them; the start counts, the mark rises. -/
def State.startCounters (s : State) (fresh : Bool) : State :=
  let w := s.evr.counters.headD (0, 0, 0, 0)
  let s := if fresh then (s.setFld fEVR_HOURS_ON w.1).setFld fEVR_HOURS_ACTIVE w.2.1 else s
  let s := s.setFld fEVR_STARTS_STARTS (w.2.2.1 + 1)
  let s := s.setFld fEVR_NEXT_SEQ (s.evr.mark + 1)
  let s : State := { s with evr := { s.evr with mark := s.evr.mark + 2 ^ 24 } }
  let s := (s.setFld fEVR_PPOOL_ERR s.evr.poolErr.recs.length).setFld fEVR_PPOOL_CRIT s.evr.poolCrit.recs.length
  ((s.setFld fEVR_PPOOL_FATAL s.evr.poolFatal.recs.length).setFld fEVR_PPOOL_SEC s.evr.poolSec.recs.length).counterWord

/-- The cores of a cluster that pass their self-test (R25). -/
def State.passing (s : State) (c : Nat) (failed : List Nat) : List Nat :=
  ((List.range s.part.coresPer).map (9 * c + ·)).filter fun n => !failed.contains n

/-- A core as a start leaves it: fenced, spare, or running at the entry of its image (R25, R47, R492). -/
def State.startCore (s : State) (n : Nat) (st : CoreStatus) (entry : Nat) : State :=
  s.setCore n { Core.fresh n with status := st, pc := entry, wdStart := s.now }

/-- The roles of one cluster (R25): with more passing cores than active ones, the highest passing is its spare. Signet releases
the cores, or keeps them where the start ends before it (R492). -/
def State.startCluster (s : State) (entry : Nat) (failed : List Nat) (release : Bool) (c : Nat) : State :=
  let good := s.passing c failed
  let spare := if s.part.coresPer - 1 < good.length then good.getLast? else none
  let s := (List.range s.part.coresPer).foldl (fun (t : State) i =>
    let n := 9 * c + i
    t.startCore n (if !good.contains n then .fenced else if !release then .unreleased else if spare = some n then .spare else .running)
      entry) s
  let w := s.reg rFCT_SPARE
  s.setReg rFCT_SPARE (match spare with
    | some n => setBits w (8 * c) 8 (n + 128)
    | none => setBits w (8 * c) 8 0)

/-- Every enabled core takes its role, and the cores that failed their self-test are fenced (R25). -/
def State.startCores (s : State) (entry : Nat) (failed : List Nat) (release : Bool) : State :=
  let bad := failed.eraseDups.filter s.part.coreOn
  let s := s.setFld fFCT_FENCE_FENCED (sumOf (fun n => 2 ^ n) bad)
  let s : State := { s with entries := ((List.range 54).filter s.part.coreOn).map fun n => (n, entry) }
  (List.range 6).foldl (fun (t : State) c => t.startCluster entry bad release c) s

/-- A sequencer that Signet has loaded and checked (R290). -/
def State.seqLoadGood (s : State) (q : Nat) : State :=
  let s := (s.setFld (fPSQ_SIG_LOADED q) 1).setFld (fPSQ_SIG_BAD q) 0
  if s.fld (fPSQ_STAT_STATE q) = 6 then s else s.setFld (fPSQ_STAT_STATE q) 2

/-- A sequencer whose load fails its check (R290): it is fenced, and a spare takes its channel (R304). -/
def State.seqLoadBad (s : State) (q : Nat) : State :=
  if !s.part.seqOn q ∨ s.fld (fPSQ_STAT_STATE q) = 6 then s
  else
    let s := (s.setFld (fPSQ_SIG_LOADED q) 0).setFld (fPSQ_SIG_BAD q) 1
    if s.fld (fPSQ_CTL_CHAN q) = 0x3F then (s.faultNow 0x05 (s.psqUnit q) false true).psqFenceOut q
    else match s.psqSpare with
      | some sp => if sp = q then s else s.psqSwitch q sp 0x05 false
      | none => ((s.faultNow 0x05 (s.psqUnit q) false true).psqFenceOut q).psqLost q

/-- Every enabled sequencer is loaded, spares included (R290): those that fail first, so that no channel goes to one of them. -/
def State.loadSeqs (s : State) (failed : List Nat) : State :=
  let s := ((List.range 34).filter fun q => s.part.seqOn q && !failed.contains q).foldl State.seqLoadGood s
  let spares := failed.filter fun q => 32 ≤ q
  (spares ++ failed.filter fun q => q < 32).foldl State.seqLoadBad s

/-- The flags of a Hallmark record (R495). -/
def State.hallFlags (s : State) (fallback seqBad : Bool) : Nat :=
  b2n fallback + 2 * b2n s.sig.approved + 4 * b2n s.pwr.recovLow + 8 * b2n s.sig.imageKey.isSome + 16 * b2n seqBad

/-! ### ROM Recovery (R493, R505) -/

/-- The device enters ROM Recovery: a record with source 0, and identifiers zero at once. -/
def State.romRecovery (s : State) (cause : Nat) : State :=
  let s := (s.hallmark 1 cause 0 (s.hallFlags false false) none).modeRequest epSignet 0
  (s.setReg rHQE_PCID 0#64).setFld fHQE_PCID_LOCK 1

/-! ### The start (R492) -/

/-- The slots in the order in which they are tried (R493). -/
def Directory.order (d : Directory) : List Nat := ([d.next, d.previous, 1].filter (· != 0)).eraseDups

/-- The package that a slot starts with, if it can be read and verifies (R488, R493). -/
def State.startPackage (s : State) (r : BootReport) (k : Nat) : Option Package :=
  if r.unreadable.any (fun u => u.toNat == k) then none
  else (s.slotPackage k).filter fun p => s.verifies true p && s.aboveFloors p

/-- Signet offers its services: its state, the approved mode, sanitize and key slots are published (R455, R461, R469, R472). -/
def State.signetReady (s : State) : State :=
  ((s.setFld fSIG_STAT_READY 1).setFld fSIG_STAT_APPROVED (b2n s.sig.approved)).showSan.loadUnlocked

/-- Sectors of Locket that are erase-indeterminate are reported (R518). -/
def State.warnIndet (s : State) : State :=
  (s.lkt.sectors.filter fun (k : Nat × LkSector) => k.2.indet).foldl (fun (t : State) k => t.tell 3 .locketIndet k.1) s

/-- Steps 6 to 8 of R492 with the slot that is started: loads, the start record, and the release of the cores. A record that
cannot be made durable stops the start before the release (R497). -/
def State.startSlot (s : State) (cause : Nat) (r : BootReport) (k : Nat) (p : Package) (fallback : Bool) : State :=
  let failed := r.seqFailed.map (·.val)
  let s := s.signetReady.loadSeqs failed
  if !r.recordOk then s.fatalStop 2 k
  else
    let seq := s.boot.nextSeq
    let s := s.hallmark 1 cause k (s.hallFlags fallback (failed.any s.part.seqOn)) (some p)
    let s := s.log 1 112 0x0007 (bodyOf [(0, 8, seq), (8, 1, k), (9, 1, cause)])
    let s := s.startCores (p.entry.toNat / 4 * 4) (r.failedCores.map (·.val)) true
    let d := s.boot.dir
    (s.withBoot { s.boot with dir := { d with
      generation := d.generation + 1, running := k, previous := if d.running = k then d.previous else d.running } }).warnIndet

/-- A start through Boot (R492, R493, R505), once its counters are set. -/
def State.bootFrom (s : State) (r : BootReport) : State :=
  let cause := s.boot.startCause
  let s := s.withPwr { s.pwr with recovLow := r.recovLow, crystal := r.crystal }
  let s := (s.setFld fPWR_XTAL_OK (b2n r.crystal)).setFld fTMR_STAT_XTAL (b2n r.crystal)
  let s := s.startCores 0 (r.failedCores.map (·.val)) false
  if r.recovLow || !r.crystal then s.romRecovery cause
  else
    let order := s.boot.dir.order
    let bad := order.takeWhile fun k => (s.startPackage r k).isNone
    match order.find? fun k => (s.startPackage r k).isSome with
    | none => s.romRecovery cause
    | some k =>
      match s.startPackage r k with
      | none => s.romRecovery cause
      | some p =>
        let s := bad.foldl (fun (t : State) b => t.tell 3 .slotFallback b) s
        if r.signetTest ≠ 0#8 then s.signetError r.signetTest.toNat
        else s.startSlot cause r k p (!bad.isEmpty)

/-- The start after a device reset. What reached the device while it was held in reset is gone. -/
def State.bootStart (s : State) (r : BootReport) : State :=
  let t := (s.deviceReset s.boot.startCause).startCounters true
  t.bootFrom r

/-- A wake from Deep Sleep (R530, R531, R533, R537): a start through Boot with cause 4, from a reset that the time, power and pad
blocks do not take part in, nor what the banks retain: the controller with its features, and the queues. -/
def State.deepWake (s : State) (r : BootReport) : State :=
  let keep (o : Nat) : Bool := (0x560000 ≤ o && o < 0x570000) || (0x580000 ≤ o && o < 0x5A0000) || o == rEVR_HOURS ||
    (s.pwr.banks.testBit 14 && 0x30000 ≤ o && o < 0x40000)
  let old := s
  let t := s.afterReset { s.pwr with coreEn := true, thermal := 0, tripped := false, off := [] }
  let t : State := { t with
    now := old.now, mem := old.mem
    regs := (old.regs.filter fun (x : Nat × Word) => keep x.1).foldl (fun (u : Tab Word) x => tput u x.1 x.2) t.regs
    hqe := if old.pwr.banks.testBit 14 then { old.hqe with fetching := [], shutdown := false } else t.hqe
    assay := { t.assay with applied := if old.pwr.banks.testBit 12 then old.assay.applied else [] }
    map := old.map }
  let t : State := { t with hqe := { t.hqe with sqs := old.hqe.sqs, cqs := old.hqe.cqs, coalesced := old.hqe.coalesced } }
  let t := t.setReg rARC_MODE (old.reg rARC_MODE)
  let t := t.withBoot { t.boot with startCause := 4 }
  let t := (t.startCounters false).modeTo 1 (t.fld fARC_MODE_HEALTH) 0xF
  t.bootFrom r

end Sys2Proof.Machine
end

