-- ==== Sys2Proof/Machine/Opal.lean ====
section
/-! DEFINITION. TCG Opal: sessions, authentication and methods (R455 to R461, R470, R471). -/

namespace Sys2Proof.Machine

open Sys2Proof

/-! ### Answers (status codes as TCG defines them, log entry 74) -/

/-- A method's status, for Security Receive with protocol 0x01. -/
def State.opalSays (s : State) (st : Nat) : State :=
  s.withSig { s.sig with outbox := s.sig.outbox ++ [(0x01, [BitVec.ofNat 8 st])] }

def opalOk : Nat := 0x00
def opalDenied : Nat := 0x01
def opalBusy : Nat := 0x03
def opalBad : Nat := 0x0C
def opalLockedOut : Nat := 0x12
def opalFail : Nat := 0x3F

/-! ### Authorities (R457, R458; log entry 73) -/

def isAdmin (a : Nat) : Bool := 2 ≤ a && a ≤ 5
def isUser (a : Nat) : Bool := 6 ≤ a && a ≤ 70

/-- An authority whose tries have reached its limit (R458). -/
def Authority.barred (x : Authority) : Bool := x.limit != 0 && decide (x.limit ≤ x.tries)

/-- Block SID Authentication refuses SID while its PIN is as manufactured (R457). -/
def State.sidBlocked (s : State) (a : Nat) : Bool := a == 0 && s.sig.blockSid && (s.auth 0).pin == Config.madePin 0

/-- OPAL_START_SESSION (R458, R470): one session at a time; an authority is refused when it is disabled, barred or blocked, or
when its PIN is wrong, which counts; a right one clears its tries. Each failure is a Security record. -/
def execOpalStartSession (authority : BitVec 7) (pin : BitVec 256) (write : Bool) (s : State) : Out :=
  .next (
    let a := authority.toNat
    let x := s.auth a
    if s.flag fSIG_STAT_ERR then s.opalSays opalFail
    else if s.sig.opal.isSome then s.opalSays opalBusy
    else if 70 < a ∨ (2 ≤ a ∧ s.sig.locking = false) then s.opalSays opalBad
    else if x.barred then (s.secRecord 2 a).opalSays opalLockedOut
    else if !x.enabled || s.sidBlocked a then (s.secRecord 2 a).opalSays opalDenied
    else if Config.pinDigest a pin ≠ x.pin then
      ((s.setAuth a { x with tries := min 255 (x.tries + 1) }).secRecord 2 a).opalSays opalDenied
    else
      let s := s.setAuth a { x with tries := 0 }
      let s := s.withSig { s.sig with opal := some ⟨a, write, s.now, false, [], [], [], [], [], []⟩ }
      (s.setFld fSIG_SESS_OPAL 1).opalSays opalOk)

/-! ### Methods on ranges (R455, R456, R459, R460) -/

def State.range (s : State) (r : Nat) : Option Range := (tget s.sig.ranges r).filter (·.valid)
def State.setRange (s : State) (r : Nat) (x : Range) : State := s.withSig { s.sig with ranges := tput s.sig.ranges r x }

/-- The authority may lock and unlock the range. -/
def mayLock (a : Nat) (x : Range) : Bool := isAdmin a || x.users.contains a

/-- Lock bits count where their enable is set; an unlock loads the range's key, a lock keeps it (R455, R456). -/
def State.opalLocks (s : State) (r : Nat) (x : Range) (rl wl : Option Bool) : State :=
  let s := s.setLock r (x.readEnabled && rl.getD (s.readLocked r)) (x.writeEnabled && wl.getD (s.writeLocked r))
  if s.rangeLocked r then s else s.setLoaded (sAdd s.sig.loaded r)

/-- A locking range fits: within its namespace, on whole units, over no other locking range (R455, R457). -/
def State.rangeFits (s : State) (r k start len : Nat) : Bool :=
  match tget s.ns k with
  | none => false
  | some n =>
    let g := if n.format = 5 then 8 else 1
    decide (start + len ≤ n.lbas) && start % g == 0 && len % g == 0 &&
      s.sig.ranges.all fun (y : Nat × Range) =>
        y.1 == r || y.1 < 256 || !y.2.valid || y.2.nsx != k || decide (start + len ≤ y.2.start) || decide (y.2.start + y.2.len ≤ start)

/-- Define a locking range, or remove it with length 0. -/
def State.opalSetRange (s : State) (r k start len : Nat) : Option State :=
  if r < 256 ∨ 319 < r then none
  else if len = 0 then some (s.dropRange r)
  else if !s.rangeFits r k start len then none
  else
    let old := (tget s.sig.ranges r).getD ⟨true, k, start, len, false, false, false, []⟩
    let s := s.setRange r { old with valid := true, nsx := k, start := start, len := len }
    some (if s.rangeLocked r then s else s.setLoaded (sAdd s.sig.loaded r))

/-- A range's key is replaced: at once, or when the open transaction commits. -/
def State.opalGenKey (s : State) (o : OpalSession) (r : Nat) : State :=
  if o.inTx then s.withSig { s.sig with opal := some { o with erasing := o.erasing ++ [r] } } else s.eraseRange r

/-! ### Methods (R457 to R460, R471) -/

/-- The Locking SP goes back to its manufactured state: keys are replaced, PINs of its authorities go (R460). -/
def State.opalRevertSp (s : State) : State := ((s.opalClose.opalMade false).replaceAll).deallocEverything.loadUnlocked

/-- What a method of an open session does, as the state and its status. -/
def State.opalRun (s : State) (o : OpalSession) (m : OpalMethod) : State × Nat :=
  let a := o.authority
  let admin := isAdmin a
  let only (ok : Bool) (t : State) : State × Nat := if !o.writable then (s, opalDenied) else if ok then (t, opalOk) else (s, opalDenied)
  let onRange (r : Nat) (f : Range → State × Nat) : State × Nat := match s.range r with
    | some x => f x
    | none => (s, opalBad)
  match m with
  | .setLocks r rl wl => onRange r.toNat fun x => only (mayLock a x) (s.opalLocks r.toNat x rl wl)
  | .setEnables r re we lor => onRange r.toNat fun x =>
      let y := { x with readEnabled := re, writeEnabled := we, lockOnReset := lor }
      only admin ((s.setRange r.toNat y).opalLocks r.toNat y none none)
  | .setRange r k st ln => match s.opalSetRange r.toNat k.toNat st.toNat ln.toNat with
      | some t => only admin t
      | none => (s, if admin then opalBad else opalDenied)
  | .setUsers r us => onRange r.toNat fun x => only admin (s.setRange r.toNat { x with users := us.map (·.toNat) })
  | .genKey r => onRange r.toNat fun _ => only admin (s.opalGenKey o r.toNat)
  | .setPin b p => only (b.toNat == a || (admin && 2 ≤ b.toNat && b.toNat ≤ 70))
      (s.setAuth b.toNat { s.auth b.toNat with pin := Config.pinDigest b.toNat p })
  | .setTryLimit b l => only (admin || (a == 0 && b.toNat ≤ 1)) (s.setAuth b.toNat { s.auth b.toNat with limit := l.toNat })
  | .resetTries b => only (a == 2) (s.setAuth b.toNat { s.auth b.toNat with tries := 0 })
  | .enable b on => only (admin && 3 ≤ b.toNat && b.toNat ≤ 70) (s.setAuth b.toNat { s.auth b.toNat with enabled := on })
  | .activate => only (a == 0) (s.withSig { s.sig with
      locking := true, auths := tput s.sig.auths 2 { s.auth 2 with pin := (s.auth 0).pin } })
  | .startTransaction => if o.inTx then (s, opalBad) else
      (s.withSig { s.sig with opal := some { o with
        inTx := true, savedRanges := s.sig.ranges, savedAuth := s.sig.auths, savedRl := s.readLocks, savedWl := s.writeLocks
        savedData := s.sig.dataStore, erasing := [] } }, opalOk)
  | .endTransaction commit =>
      if !o.inTx then (s, opalBad)
      else if commit then
        (o.erasing.foldl (fun (t : State) r => t.eraseRange r) (s.withSig { s.sig with opal := some { o with inTx := false, erasing := [] } }),
          opalOk)
      else (s.opalDiscard, opalOk)
  | .endSession => (s.opalClose, opalOk)
  | .revert => if a = 0 then (s.zeroise true, opalOk) else (s, opalDenied)
  | .revertSp => if admin then (s.opalRevertSp, opalOk) else (s, opalDenied)
  | .psidRevert => if a = 1 then (s.zeroise false, opalOk) else (s, opalDenied)
  | .blockSid => (s.withSig { s.sig with blockSid := true }, opalOk)
  | .readData off n => if !admin then (s, opalDenied) else
      (s.withSig { s.sig with outbox := s.sig.outbox ++
        [(0x01, (List.range (min n.toNat (2 ^ 20 - off.toNat))).map fun i => tgetD s.sig.dataStore (off.toNat + i) 0#8)] }, opalOk)
  | .writeData off l => if 2 ^ 20 < off.toNat + l.length then (s, opalBad) else only admin (s.withSig { s.sig with
      dataStore := (l.zipIdx).foldl (fun (t : Tab Byte) (x : Byte × Nat) =>
        if x.1 = 0#8 then tdel t (off.toNat + x.2) else tput t (off.toNat + x.2) x.1) s.sig.dataStore })

/-- OPAL_METHOD (R457 to R461, R470, R471): Block SID needs no session; every other method runs in the one that is open. -/
def execOpalMethod (m : OpalMethod) (s : State) : Out :=
  .next (
    if s.flag fSIG_STAT_ERR then s.opalSays opalFail
    else match s.sig.opal with
    | none =>
      (match m with
      | .blockSid => (s.withSig { s.sig with blockSid := true }).opalSays opalOk
      | _ => s.opalSays opalDenied)
    | some o =>
      let o := { o with lastAt := s.now }
      let r := (s.withSig { s.sig with opal := some o }).opalRun o m
      r.1.opalSays r.2)

/-- OPAL_SESSION_TIMEOUT (R458; log entry 49): 30 s without a method close the session, its transaction discarded. -/
def execOpalSessionTimeout (s : State) : Out := .next s.opalClose

end Sys2Proof.Machine
end

