-- ==== Sys2Proof/Machine/Sessions.lean ====
section
/-! DEFINITION. Keyed management sessions and SPDM (R462 to R468, R470 to R472, R489). -/

namespace Sys2Proof.Machine

open Sys2Proof

/-! ### Carriers (R462, R467, R536, R539, R559) -/

def State.busSays (s : State) (e : BusEvent) : State := { s with mgmt := { s.mgmt with out := s.mgmt.out ++ [e] } }

/-- A message on the management bus is served, unless the device sleeps or wakes, which does not acknowledge it, or a wake has
failed, which it answers with the failing step and the attempts (R536, R539; log entry 77). -/
def State.onBus (s : State) (f : State → State) : State :=
  let st := s.fld fPWR_STAT_STATE
  if st = 2 ∨ st = 3 then s.busSays .nack
  else if st = 4 then s.busSays (.vendor 0x30 [BitVec.ofNat 8 (s.fld fPWR_STAT_FSTEP), BitVec.ofNat 8 (s.fld fPWR_STAT_TRIES)])
  else f s

/-- A message by its carrier; Security Send and Receive need the firmware, which no ROM Recovery runs. -/
def State.carried (s : State) (via : Carrier) (f : State → State) : State :=
  match via with
  | .bus => s.onBus f
  | .host => if s.mode = 0 then s else f s

/-- A keyed-session message of Signet: code and body. -/
def State.ksSays (s : State) (via : Carrier) (code : Nat) (body : List Byte) : State :=
  match via with
  | .bus => s.busSays (.vendor code body)
  | .host => s.withSig { s.sig with outbox := s.sig.outbox ++ [(0xF0, BitVec.ofNat 8 code :: body)] }

/-- A failure is answered with code 0xFF and a reason (log entry 74): 1 failure, 2 busy, 3 barred, 4 no such key, 5 proof, 6 not
granted, 7 refused. -/
def State.ksFails (s : State) (via : Carrier) (reason : Nat) : State := s.ksSays via 0xFF [BitVec.ofNat 8 reason]

/-! ### Opening (R462 to R464, R466) -/

/-- KS_OPEN (R463, R464, R470): one session at a time, and no key that is barred; the challenge carries a fresh nonce and the
identity. A session is open from its grant; an exchange without one gives way to a new OPEN (log entry 174). -/
def execKsOpen (via : Carrier) (keyId : BitVec 3) (privs : BitVec 5) (nr : BitVec 256) (s : State) : Out :=
  .next (s.carried via fun s =>
    if s.flag fSIG_STAT_ERR then s.ksFails via 1
    else if s.sig.ks.any (·.proved) then s.ksFails via 2
    else match tget s.sig.keys keyId.toNat with
    | none => s.ksFails via 4
    | some k =>
      if s.now < k.barredUntil then s.ksFails via 3
      else
        let nd : BitVec 256 := BitVec.ofNat 256 ((List.range 4).foldl (fun n i => n + (Config.freeWord (s.free + i)).toNat * 2 ^ (64 * i)) 0)
        let s := (s.tickBy 4).withSig { s.sig with ks := some ⟨keyId.toNat, privs.toNat, nr, nd, 0, false, 0, 0, s.now⟩ }
        s.ksSays via 0x81 (bytesOf nd.toNat 32 ++ s.identity))

/-- The bar after consecutive failed proofs, ns: 60 s at the fifth, doubled by each further one, at most 24 h (R464). -/
def barTime (fails : Nat) : Nat := if fails < 5 then 0 else min (60000000000 * 2 ^ (fails - 5)) 86400000000000

/-- What a proof is computed over (R463). -/
def State.proofText (s : State) (k : KSession) : List Byte :=
  ascii "AHNOT-KS1" ++ bytesOf k.keyId 1 ++ bytesOf k.requested 1 ++ bytesOf k.nr.toNat 32 ++ bytesOf k.nd.toNat 32 ++ s.idBytes

/-- Privilege [2] comes with Diagnostic, from a health mode; [4] with Manufacturing, from a health mode or ROM Recovery and not
in approved mode; a request that is refused withholds it (R466). -/
def State.ksPrivileges (s : State) (asked : Nat) : State × Nat :=
  let base := asked % 4 + asked / 8 % 2 * 8
  let r := if asked.testBit 2 && isHealth s.mode then
      (let t := s.modeRequest epSignet 0xA
       (t, if t.mode = 0xA then base + 4 else base))
    else (s, base)
  if asked.testBit 4 && !r.1.sig.approved && (isHealth r.1.mode || r.1.mode == 0) then
    let t := r.1.modeRequest epSignet 0xB
    (t, if t.mode = 0xB then r.2 + 16 else r.2)
  else r

/-- KS_PROVE (R463, R464, R466): a right proof opens the session with the privileges that key and mode allow; a wrong one counts
against the key. Both are Security records. -/
def execKsProve (via : Carrier) (proof : BitVec 384) (s : State) : Out :=
  .next (s.carried via fun s =>
    if s.flag fSIG_STAT_ERR then s.ksFails via 1
    else match s.sig.ks with
    | none => s.ksFails via 1
    | some k =>
      match tget s.sig.keys k.keyId with
      | none => s.ksFails via 4
      | some key =>
        if k.proved then s.ksFails via 1
        else if proof = Config.hmac384 (bytesOf key.key.toNat 32) (s.proofText k) then
          let r := s.ksPrivileges (k.requested &&& key.mask)
          let g := r.1.sig
          let t := r.1.withSig { g with
            keys := tput g.keys k.keyId { key with fails := 0, barredUntil := 0 }
            ks := some { k with granted := r.2, proved := true, lastAt := s.now } }
          ((t.showKs).secRecord 3 k.keyId).ksSays via 0x82 (bytesOf r.2 1 ++ bytesOf 300 4)
        else
          let fails := key.fails + 1
          let s := s.withSig { s.sig with
            keys := tput s.sig.keys k.keyId { key with fails := fails, barredUntil := if fails < 5 then 0 else s.now + barTime fails }
            ks := none }
          (((s.showKs).incSat fSIG_SESS_FAILS).secRecord 4 k.keyId).ksFails via 5)

/-! ### Messages of an open session (R463 to R465) -/

/-- A message of the session: a bad MAC or sequence number ends it; one that needs a privilege not granted is refused. What the
command answers is a status and bytes, under code 0x83. -/
def State.ksMessage (s : State) (via : Carrier) (seq : BitVec 32) (macOk : Bool) (priv : Option Nat)
    (f : State → KSession → State × Nat × List Byte) : State :=
  s.carried via fun s =>
    if s.flag fSIG_STAT_ERR then s.ksFails via 1
    else match s.sig.ks with
    | none => s.ksFails via 1
    | some k =>
      if !k.proved then s.ksFails via 1
      else if !macOk || decide (seq.toNat ≠ k.inSeq + 1) then s.ksEnd.ksFails via 1
      else
        let k := { k with inSeq := seq.toNat, outSeq := k.outSeq + 1, lastAt := s.now }
        let s := s.withSig { s.sig with ks := some k }
        if (priv.map fun b => !k.granted.testBit b).getD false then s.ksFails via 6
        else
          let r := f s k
          if r.2.1 = 0 then r.1.ksSays via 0x83 (bytesOf k.outSeq 4 ++ r.2.2) else r.1.ksFails via r.2.1

/-- KS_CLOSE (R464). -/
def execKsClose (via : Carrier) (seq : BitVec 32) (macOk : Bool) (s : State) : Out :=
  .next (s.ksMessage via seq macOk none fun s _ => (s.ksEnd, 0, []))

/-- KS_IDLE_TIMEOUT (R464; log entry 49). -/
def execKsIdleTimeout (s : State) : Out := .next s.ksEnd

/-- KS_LIFETIME_EXPIRY (R464; log entry 49). -/
def execKsLifetimeExpiry (s : State) : Out := .next s.ksEnd

/-- KS_LOG_READ (R465, R498, R557): event records and vendor log pages, with the management cursor and snapshot. -/
def execKsLogRead (via : Carrier) (seq : BitVec 32) (macOk : Bool) (lid lsp : BitVec 8) (rae : Bool) (off len : BitVec 32)
    (s : State) : Out :=
  .next (s.ksMessage via seq macOk (some 0) fun s _ =>
    if lid.toNat < 0xC0 then (s, 7, [])
    else match s.readPage true lid.toNat lsp.toNat rae off.toNat len.toNat with
    | some r => (r.1, 0, r.2)
    | none => (s, 7, []))

/-- KS_DRAIN (R168, R465): Quiesce by queue drain. -/
def execKsDrain (via : Carrier) (seq : BitVec 32) (macOk : Bool) (s : State) : Out :=
  .next (s.ksMessage via seq macOk (some 1) fun s _ =>
    if isHealth s.mode || s.mode == 0xA then
      let t := s.modeRequest epSignet 7 true
      (t, if t.mode = 7 then 0 else 7, [])
    else (s, 7, []))

/-- KS_RELEASE (R168, R465): ends a queue drain, not the Quiesce of an activation. -/
def execKsRelease (via : Carrier) (seq : BitVec 32) (macOk : Bool) (s : State) : Out :=
  .next (s.ksMessage via seq macOk (some 1) fun s _ =>
    if s.mode = 7 ∧ s.boot.act.isNone = true then (s.modeRequest epSignet 7, 0, []) else (s, 7, []))

/-- KS_INJECT (R439, R465): the setting goes to the firmware. -/
def execKsInject (via : Carrier) (seq : BitVec 32) (macOk : Bool) (setting : BitVec 512) (s : State) : Out :=
  .next (s.ksMessage via seq macOk (some 2) fun s _ =>
    if s.mode = 0xA then (s.hwSend 112 (s.fld fSIG_NOTE_DST) (s.fld fSIG_NOTE_MBX) 0x1A2 setting, 0, []) else (s, 7, []))

/-- KS_ENROL (R462, R465, R489): an owner key, whose mask never holds [4] nor a privilege that the session has not; or the owner
image keys, with a proof by the key enrolled before. -/
def execKsEnrol (via : Carrier) (seq : BitVec 32) (macOk : Bool) (what : Enrolment) (s : State) : Out :=
  .next (s.ksMessage via seq macOk (some 3) fun s k =>
    match what with
    | .key id v mask it =>
      if id.toNat < 2 ∨ 16 ≤ mask.toNat ∨ mask.toNat &&& k.granted ≠ mask.toNat then (s, 7, [])
      else ((s.withSig { s.sig with keys := tput s.sig.keys id.toNat ⟨v, mask.toNat, it.toNat, 0, 0⟩ }).secRecord 5 id.toNat, 0, [])
    | .image pub proved =>
      if s.sig.imageKey.isSome && !proved then (s, 7, [])
      else ((s.withSig { s.sig with imageKeyOld := s.sig.imageKey, imageKey := some pub }).secRecord 5 8, 0, []))

/-- KS_REVOKE (R465): an owner key, not the session's own. -/
def execKsRevoke (via : Carrier) (seq : BitVec 32) (macOk : Bool) (id : BitVec 3) (s : State) : Out :=
  .next (s.ksMessage via seq macOk (some 3) fun s k =>
    if id.toNat < 2 ∨ id.toNat = k.keyId ∨ (tget s.sig.keys id.toNat).isNone = true then (s, 7, [])
    else ((s.withSig { s.sig with keys := tdel s.sig.keys id.toNat }).secRecord 6 id.toNat, 0, []))

/-- KS_APPROVED_MODE (R465, R472): a change zeroises first. -/
def execKsApprovedMode (via : Carrier) (seq : BitVec 32) (macOk : Bool) (on : Bool) (s : State) : Out :=
  .next (s.ksMessage via seq macOk (some 3) fun s _ =>
    if s.sig.approved = on then (s, 0, [])
    else
      let s := s.zeroise true
      ((s.withSig { s.sig with approved := on }).setFld fSIG_STAT_APPROVED (b2n on), 0, []))

/-- KS_ZEROISE (R465, R471). -/
def execKsZeroise (via : Carrier) (seq : BitVec 32) (macOk : Bool) (s : State) : Out :=
  .next (s.ksMessage via seq macOk (some 3) fun s _ => (s.zeroise true, 0, []))

/-- KS_PSID_READ (R465). -/
def execKsPsidRead (via : Carrier) (seq : BitVec 32) (macOk : Bool) (s : State) : Out :=
  .next (s.ksMessage via seq macOk (some 4) fun s _ => (s, 0, Config.psid))

/-! ### SPDM (R467, R468; codes as SPDM 1.2 defines them, log entry 74) -/

/-- An SPDM response. -/
def State.spdmSays (s : State) (via : Carrier) (code : Nat) (body : List Byte) : State :=
  match via with
  | .bus => s.busSays (.spdm code body)
  | .host => s.withSig { s.sig with outbox := s.sig.outbox ++ [(0xE8, BitVec.ofNat 8 code :: body)] }

/-- An error response with its code: 1 invalid request, 4 unexpected request, 5 unspecified, 0x41 version mismatch. -/
def State.spdmFails (s : State) (via : Carrier) (code : Nat) : State := s.spdmSays via 0x7F [BitVec.ofNat 8 code]

/-- A request of the responder, which ROM Recovery does not serve and the error state answers with a failure (R470, R559);
`ready` is what must have been negotiated. -/
def State.spdmRequest (s : State) (via : Carrier) (ready : Spdm → Bool) (f : State → State) : State :=
  s.carried via fun s =>
    if s.mode = 0 then s
    else if s.flag fSIG_STAT_ERR then s.spdmFails via 5
    else if !ready s.sig.spdm then s.spdmFails via 4
    else f s

def State.setSpdm (s : State) (v c a : Bool) : State :=
  s.withSig { s.sig with spdm := { s.sig.spdm with version := v, capabilities := c, algorithms := a } }

/-- SPDM_GET_VERSION: version 1.2 only; what was negotiated is dropped. -/
def execSpdmGetVersion (via : Carrier) (s : State) : Out :=
  .next (s.spdmRequest via (fun _ => true) fun s => (s.setSpdm true false false).spdmSays via 0x04 [0#8, 1#8, 0x00#8, 0x12#8])

/-- SPDM_GET_CAPABILITIES: `CTExponent` 16; CERT_CAP, CHAL_CAP, MEAS_CAP = 2. -/
def execSpdmGetCapabilities (via : Carrier) (version : BitVec 8) (s : State) : Out :=
  .next (s.spdmRequest via (·.version) fun s =>
    if version.toNat ≠ 0x12 then s.spdmFails via 0x41
    else (s.setSpdm true true false).spdmSays via 0x61 (bytesOf 16 1 ++ bytesOf 0x16 4))

/-- SPDM_NEGOTIATE_ALGORITHMS: ECDSA P-384 and SHA-384 only. -/
def execSpdmNegotiateAlgorithms (via : Carrier) (asym hash : BitVec 32) (s : State) : Out :=
  .next (s.spdmRequest via (·.capabilities) fun s =>
    if asym.getLsbD 7 && hash.getLsbD 1 then
      (s.setSpdm true true true).spdmSays via 0x63 (bytesOf 1 1 ++ bytesOf 0x04 4 ++ bytesOf 0x80 4 ++ bytesOf 0x02 4)
    else s.spdmFails via 1)

/-- A certificate chain: slot 0 holds Ahnot's, slots 1 to 3 the owner's (R467). -/
def State.spdmChain (s : State) (slot : Nat) : Option (List Byte) :=
  if slot = 0 then
    let certs := Config.caCert ++ Config.deviceCert
    some (bytesOf (52 + certs.length) 2 ++ zeros 2 ++ digestBytes Config.rootHash ++ certs)
  else tget s.sig.spdm.chains slot

/-- SPDM_GET_DIGESTS: the slots that hold a chain, and their digests. -/
def execSpdmGetDigests (via : Carrier) (s : State) : Out :=
  .next (s.spdmRequest via (·.algorithms) fun s =>
    let l := (List.range 4).filterMap fun i => (s.spdmChain i).map fun c => (i, c)
    s.spdmSays via 0x01 (bytesOf (sumOf (fun (x : Nat × List Byte) => 2 ^ x.1) l) 1 ++
      l.flatMap fun (x : Nat × List Byte) => digestBytes (Config.sha384 x.2)))

/-- SPDM_GET_CERTIFICATE: a portion of a chain, and what remains. -/
def execSpdmGetCertificate (via : Carrier) (slot : BitVec 2) (off len : BitVec 16) (s : State) : Out :=
  .next (s.spdmRequest via (·.algorithms) fun s =>
    match s.spdmChain slot.toNat with
    | none => s.spdmFails via 1
    | some c =>
      let part := (c.drop off.toNat).take len.toNat
      if c.length < off.toNat then s.spdmFails via 1
      else s.spdmSays via 0x02 (bytesOf part.length 2 ++ bytesOf (c.length - off.toNat - part.length) 2 ++ part))

/-- The measurement blocks of R468 by index: 2 to 7 as the present boot's Hallmark record holds them. -/
def State.measurements (s : State) : List (Nat × BitVec 384) :=
  let rec_ := s.boot.records.getLast?.map (·.measures)
  let m (i : Nat) : BitVec 384 := (rec_.getD []).getD (i - 1) 0#384
  [(1, Config.romDigest)] ++ ((List.range 6).map fun i => (i + 2, m (i + 2))) ++ [(8, s.securityDigest), (9, s.boot.prevHash)]

def measureBlock (x : Nat × BitVec 384) : List Byte :=
  bytesOf x.1 1 ++ bytesOf 1 1 ++ bytesOf 51 2 ++ bytesOf 1 1 ++ bytesOf 48 2 ++ digestBytes x.2

/-- A response signed with the identity key, over its bytes and the requester's nonce. -/
def State.spdmSigned (s : State) (via : Carrier) (code : Nat) (nonce : BitVec 256) (body : List Byte) : State :=
  let own := s.freeBytes 32
  let l := body ++ own ++ bytesOf 0 2
  (s.tickBy 4).spdmSays via code (l ++ beBytes 96 (Config.identitySign (bytesOf nonce.toNat 32 ++ l)).toNat)

/-- SPDM_CHALLENGE: `summary` 0 none, else a summary of every measurement. -/
def execSpdmChallenge (via : Carrier) (slot : BitVec 2) (nonce : BitVec 256) (summary : BitVec 8) (s : State) : Out :=
  .next (s.spdmRequest via (·.algorithms) fun s =>
    match s.spdmChain slot.toNat with
    | none => s.spdmFails via 1
    | some c =>
      s.spdmSigned via 0x03 nonce (digestBytes (Config.sha384 c) ++
        if summary.toNat = 0 then [] else digestBytes (Config.sha384 (s.measurements.flatMap measureBlock))))

/-- SPDM_GET_MEASUREMENTS: their number, one, or all; signed where it is asked. -/
def execSpdmGetMeasurements (via : Carrier) (index : BitVec 8) (signed : Bool) (nonce : BitVec 256) (s : State) : Out :=
  .next (s.spdmRequest via (·.algorithms) fun s =>
    let i := index.toNat
    let l := if i = 0 then [] else if i = 0xFF then s.measurements else s.measurements.filter fun x => x.1 == i
    if i ≠ 0 ∧ l.isEmpty = true then s.spdmFails via 1
    else
      let blocks := l.flatMap measureBlock
      let body := bytesOf (if i = 0 then 9 else 0) 1 ++ bytesOf l.length 1 ++ bytesOf blocks.length 3 ++ blocks
      if signed then s.spdmSigned via 0x60 nonce body else s.spdmSays via 0x60 body)

/-- SPDM_SET_CERTIFICATE (R467): slots 1 to 3, while a keyed session with privilege [3] is open, and for a chain whose leaf
certifies the identity key. -/
def execSpdmSetCertificate (via : Carrier) (slot : BitVec 2) (chain : List (BitVec 8)) (leafOk : Bool) (s : State) : Out :=
  .next (s.spdmRequest via (·.algorithms) fun s =>
    let may := match s.sig.ks with
      | some k => k.proved && k.granted.testBit 3
      | none => false
    if may && leafOk && slot.toNat != 0 then
      (s.withSig { s.sig with spdm := { s.sig.spdm with chains := tput s.sig.spdm.chains slot.toNat chain } }).spdmSays via 0x6E
        [BitVec.ofNat 8 slot.toNat]
    else s.spdmFails via 1)

end Sys2Proof.Machine
end

