-- ==== Sys2Proof/Machine/Boot.lean ====
section
/-! DEFINITION. Power-up, resets and ROM Recovery (R41, R125, R492, R505 to R507, R570, R571). -/

namespace Sys2Proof.Machine

open Sys2Proof

/-! ### Supplies and reset pins (R570, R571) -/

/-- VAON is up and power-on reset has ended: the device is in reset only while PERST_N is low. -/
def State.powered (s : State) : Bool := s.pwr.vaon && s.pwr.porDone

/-- POWER_ON (R534, R570): VAON rises; MB_ADDR is sampled, CORE_EN is driven high, hold latches are clear, and power-on reset
begins. -/
def execPowerOn (addr : BitVec 2) (perstLow : Bool) (s : State) : Out :=
  .next (
    if s.pwr.vaon then s
    else
      let t := s.deviceReset 1
      let t := t.withPwr { t.pwr with vaon := true, porDone := false, perstLow := perstLow, addr := addr.toNat, crystal := false }
      { t with regs := tdel t.regs rPAD_HOLD })

/-- POWER_ON_RESET_END (R570): power-on reset ends with the crystal or, after 4 ms, without it; the start begins unless PERST_N is
still low. -/
def execPowerOnResetEnd (report : BootReport) (s : State) : Out :=
  .next (
    if s.pwr.vaon = false ∨ s.pwr.porDone = true then s
    else
      let s := s.withPwr { s.pwr with porDone := true, crystal := report.crystal }
      if s.pwr.perstLow then s else s.bootStart report)

/-- PERST_N_ASSERT (R41, R535, R542): a device reset, asleep or awake; during power-on reset only the pin changes. -/
def execPerstNAssert (s : State) : Out :=
  .next (
    if s.pwr.vaon = false ∨ s.pwr.perstLow = true then s
    else
      let s := s.withPwr { s.pwr with perstLow := true }
      if s.pwr.porDone then s.deviceReset 2 else s)

/-- PERST_N_RELEASE (R492, R570, R589): the start begins, or waits for the end of power-on reset. -/
def execPerstNRelease (report : BootReport) (s : State) : Out :=
  .next (
    if s.pwr.vaon = false ∨ s.pwr.perstLow = false then s
    else
      let s := s.withPwr { s.pwr with perstLow := false }
      if s.pwr.porDone then s.bootStart report else s)

/-- RAIL_BELOW_MINIMUM (R255, R571): internal reset as a power loss, until power-on reset ends again; `vaon` when the rail is
VAON. -/
def execRailBelowMinimum (vaon : Bool) (s : State) : Out :=
  .next (
    if !s.pwr.vaon then s
    else
      let t := s.deviceReset 1
      t.withPwr { t.pwr with vaon := !vaon, porDone := false, crystal := false, coreEn := !vaon })

/-- NVM_SUBSYSTEM_RESET (R125, R430): a device reset and a start with cause 3; `CSTS.NSSRO` is then set. -/
def execNvmSubsystemReset (report : BootReport) (s : State) : Out :=
  .next (
    if !s.powered || s.pwr.perstLow || s.fld fPWR_STAT_STATE != 0 then s
    else
      let t := (s.withBoot { s.boot with startCause := 3 }).bootStart report
      { t with hqe := { t.hqe with nssro := true } })

/-! ### ROM Recovery (R506, R507) -/

/-- The ROM serves the operations: over PCIe in ROM Recovery, over the bus also in the Manufacturing that follows it. -/
def State.romServes (s : State) (via : Carrier) : Bool := s.mode == 0 || (via == .bus && s.mode == 0xB)

/-- The status word (R507). -/
def State.romWord (s : State) : Nat :=
  let b := s.boot
  b.romState + 16 * b2n (b.romState == 2 || b.romState == 3) + b.romFail * 2 ^ 8 +
    (sumOf (fun (p : Nat × Nat) => p.2) b.romPieces) * 2 ^ 32

/-- Every response on the bus carries the status word; over PCIe the host reads it. -/
def State.romSays (s : State) (via : Carrier) (code : Nat) : State :=
  match via with
  | .bus => s.busSays (.vendor code (bytesOf s.romWord 8))
  | .host => s

/-- An operation of ROM Recovery, on the bus as `onBus` says. -/
def State.romOp (s : State) (via : Carrier) (code : Nat) (f : State → State) : State :=
  if !s.romServes via then s
  else match via with
  | .bus => s.onBus fun s => (f s).romSays via code
  | .host => f s

/-- The transfer fails (R507): 1 length, 2 overlap, 3 signature or measurement, 4 part, 5 security version, 6 flash write, 7 slot
not permitted. -/
def State.romFails (s : State) (why : Nat) : State :=
  s.withBoot { s.boot with romState := 5, romFail := why, romPackage := none }

/-- ROM_BEGIN (R506, R507): total length and target slot; slot 1 only in Manufacturing. -/
def execRomBegin (via : Carrier) (len : BitVec 32) (target : BitVec 4) (s : State) : Out :=
  .next (s.romOp via 0x20 fun s =>
    if s.boot.romState = 3 then s
    else
      let s := s.withBoot { s.boot with
        romState := 1, romFail := 0, romLen := len.toNat, romTarget := target.toNat, romPieces := [], romPackage := none }
      if !(target == 2#4 || (target == 1#4 && s.mode == 0xB)) then s.romFails 7
      else if len.toNat = 0 ∨ 2 ^ 24 < len.toNat then s.romFails 1
      else s)

/-- ROM_DATA (R499, R506, R507): a piece within the length, over no other; at most 32,768 bytes over PCIe and 1,024 over the
bus. -/
def execRomData (via : Carrier) (off len : BitVec 32) (s : State) : Out :=
  .next (s.romOp via 0x21 fun s =>
    let b := s.boot
    let a := off.toNat
    let n := len.toNat
    if b.romState ≠ 1 then s
    else if b.romLen < a + n ∨ (match via with | .host => 32768 | .bus => 1024) < n then s.romFails 1
    else if b.romPieces.any (fun (p : Nat × Nat) => decide (a < p.1 + p.2) && decide (p.1 < a + n)) then s.romFails 2
    else s.withBoot { b with romPieces := b.romPieces ++ [(a, n)] })

/-- ROM_END (R488, R506, R507): the package is verified, and its writing starts. -/
def execRomEnd (via : Carrier) (package : Option Package) (s : State) : Out :=
  .next (s.romOp via 0x22 fun s =>
    let b := s.boot
    if b.romState ≠ 1 then s
    else if (sumOf (fun (p : Nat × Nat) => p.2) b.romPieces) ≠ b.romLen then s.romFails 1
    else match package with
    | none => s.romFails 3
    | some p =>
      if !(p.signed && s.ownerGood false p) then s.romFails 3
      else if !p.fits then s.romFails 4
      else if !s.aboveFloors p then s.romFails 5
      else s.withBoot { b with romState := 3, romPackage := some p })

/-- ROM_STATUS (R507). -/
def execRomStatus (via : Carrier) (s : State) : Out :=
  .next (match via with
    | .bus => s.romOp via 0x23 id
    | .host => if s.romServes via then { s with hqe := { s.hqe with hostOut := s.hqe.hostOut ++ [HostEvent.romStatus s.romWord] } }
        else s)

/-- ROM_RESET (R506): a device reset and a start; the record's cause is that of a subsystem reset. -/
def execRomReset (via : Carrier) (report : BootReport) (s : State) : Out :=
  .next (
    if !s.romServes via then s
    else
      let s := s.romOp via 0x24 id
      (s.withBoot { s.boot with startCause := 3 }).bootStart report)

/-- Eight copies lie on eight dies in eight different channels, each in two blocks (R485). -/
def goodCopies (channels : Nat) (l : List CopyAt) : Bool :=
  let chans := l.map fun c => c.die.toNat / 16
  l.length == 8 && chans.eraseDups.length == 8 && chans.all (fun c => decide (c < channels)) && l.all fun c => c.first != c.second

/-- A directory with the copies of a primary slot in it (R484). -/
def Directory.withCopies (d : Directory) (slot : Nat) (l : List CopyAt) : Directory :=
  let copies := (l.zipIdx).foldl (fun (t : Tab CopyAt) (x : CopyAt × Nat) => tput t (8 * slot + x.2) x.1) d.copies
  { d with copies := copies, valid2 := d.valid2 || slot == 2, valid3 := d.valid3 || slot == 3 }

/-- ROM_PACKAGE_WRITTEN (R506): the copies and the directory are written, with slot 2 valid, running and next-start; or the golden
region; or the flash write failed. -/
def execRomPackageWritten (good : Bool) (copies : List CopyAt) (s : State) : Out :=
  .next (
    let b := s.boot
    match b.romPackage with
    | none => s
    | some p =>
      if b.romState ≠ 3 then s
      else if !good then s.romFails 6
      else if b.romTarget = 1 then
        s.withBoot { b with romState := 4, romPackage := none, slots := tput b.slots 1 p }
      else if !goodCopies s.part.channels copies then s
      else
        let d := b.dir.withCopies 2 copies
        s.withBoot { b with
          romState := 4, romPackage := none, slots := tput b.slots 2 p
          dir := { d with generation := d.generation + 1, running := 2, next := 2 } })

end Sys2Proof.Machine
end

