-- ==== Sys2Proof/Machine/FacetAlu.lean ====
section
/-! DEFINITION. Major 0x00: register ALU, indirect jump and call (R55, R56, R73, R75). -/

namespace Sys2Proof.Machine

open Sys2Proof

/-! ### The functions of R55 and R56 -/

/-- The shift count, `b[5:0]`. -/
def shamt (b : Word) : Nat := bits b 0 6

def opSlt (a b : Word) : Word := boolWord (a.slt b)
def opSltu (a b : Word) : Word := boolWord (a.ult b)

/-- High 64 bits of the product, signed and unsigned (R55). -/
def opMulh (a b : Word) : Word := BitVec.ofInt 64 ((a.toInt * b.toInt) / 2 ^ 64)
def opMulhu (a b : Word) : Word := BitVec.ofNat 64 ((a.toNat * b.toNat) / 2 ^ 64)

/-- The one signed overflow of division (R56). -/
def divOver (a b : Word) : Bool := a == 0x8000000000000000#64 && b == BitVec.allOnes 64

def opDiv (a b : Word) : Word :=
  if b = 0#64 then 0#64
  else if divOver a b then 0x7FFFFFFFFFFFFFFF#64
  else BitVec.ofInt 64 (a.toInt.tdiv b.toInt)
def opRem (a b : Word) : Word :=
  if b = 0#64 then a
  else if divOver a b then BitVec.allOnes 64
  else BitVec.ofInt 64 (a.toInt - a.toInt.tdiv b.toInt * b.toInt)
def opDivu (a b : Word) : Word := if b = 0#64 then 0#64 else BitVec.ofNat 64 (a.toNat / b.toNat)
def opRemu (a b : Word) : Word := if b = 0#64 then a else BitVec.ofNat 64 (a.toNat % b.toNat)

def opMin (a b : Word) : Word := if a.slt b then a else b
def opMax (a b : Word) : Word := if a.slt b then b else a
def opMinu (a b : Word) : Word := if a.ult b then a else b
def opMaxu (a b : Word) : Word := if a.ult b then b else a

/-- Leading zeros, trailing zeros and ones of a double (R55). -/
def opClz (a : Word) : Word := BitVec.ofNat 64 (((List.range 64).find? fun i => bit a (63 - i)).getD 64)
def opCtz (a : Word) : Word := BitVec.ofNat 64 (((List.range 64).find? fun i => bit a i).getD 64)
def opPopc (a : Word) : Word := BitVec.ofNat 64 (countIf (fun i => bit a i) (List.range 64))

/-- The eight bytes reversed (R55). -/
def opBswap (a : Word) : Word :=
  BitVec.ofNat 64 (sumOf (fun i => bits a (8 * i) 8 * 2 ^ (8 * (7 - i))) (List.range 8))

/-! ### The instructions -/

/-- ADD (R55): a + b, modulo 2^64. -/
def execAdd (core : CoreId) (f : Ecc) (gd ga gb : RegIdx) (s : State) : Out :=
  .next (s.facet core f fun s => s.alu2 core gd ga gb (· + ·))

/-- SUB (R55): a − b, modulo 2^64. -/
def execSub (core : CoreId) (f : Ecc) (gd ga gb : RegIdx) (s : State) : Out :=
  .next (s.facet core f fun s => s.alu2 core gd ga gb (· - ·))

/-- AND (R55): a AND b. -/
def execAnd (core : CoreId) (f : Ecc) (gd ga gb : RegIdx) (s : State) : Out :=
  .next (s.facet core f fun s => s.alu2 core gd ga gb (· &&& ·))

/-- OR (R55): a OR b. -/
def execOr (core : CoreId) (f : Ecc) (gd ga gb : RegIdx) (s : State) : Out :=
  .next (s.facet core f fun s => s.alu2 core gd ga gb (· ||| ·))

/-- XOR (R55): a XOR b. -/
def execXor (core : CoreId) (f : Ecc) (gd ga gb : RegIdx) (s : State) : Out :=
  .next (s.facet core f fun s => s.alu2 core gd ga gb (· ^^^ ·))

/-- NOR (R55): NOT (a OR b). -/
def execNor (core : CoreId) (f : Ecc) (gd ga gb : RegIdx) (s : State) : Out :=
  .next (s.facet core f fun s => s.alu2 core gd ga gb (fun a b => ~~~(a ||| b)))

/-- SLL (R55): a shifted left by b[5:0]. -/
def execSll (core : CoreId) (f : Ecc) (gd ga gb : RegIdx) (s : State) : Out :=
  .next (s.facet core f fun s => s.alu2 core gd ga gb (fun a b => a <<< shamt b))

/-- SRL (R55): a shifted right by b[5:0], zero fill. -/
def execSrl (core : CoreId) (f : Ecc) (gd ga gb : RegIdx) (s : State) : Out :=
  .next (s.facet core f fun s => s.alu2 core gd ga gb (fun a b => a >>> shamt b))

/-- SRA (R55): a shifted right by b[5:0], sign fill. -/
def execSra (core : CoreId) (f : Ecc) (gd ga gb : RegIdx) (s : State) : Out :=
  .next (s.facet core f fun s => s.alu2 core gd ga gb (fun a b => a.sshiftRight (shamt b)))

/-- ROL (R55): a rotated left by b[5:0]. -/
def execRol (core : CoreId) (f : Ecc) (gd ga gb : RegIdx) (s : State) : Out :=
  .next (s.facet core f fun s => s.alu2 core gd ga gb (fun a b => a.rotateLeft (shamt b)))

/-- SLT (R55): 1 if a < b signed, else 0. -/
def execSlt (core : CoreId) (f : Ecc) (gd ga gb : RegIdx) (s : State) : Out :=
  .next (s.facet core f fun s => s.alu2 core gd ga gb opSlt)

/-- SLTU (R55): 1 if a < b unsigned, else 0. -/
def execSltu (core : CoreId) (f : Ecc) (gd ga gb : RegIdx) (s : State) : Out :=
  .next (s.facet core f fun s => s.alu2 core gd ga gb opSltu)

/-- MUL (R55): low 64 bits of a × b. -/
def execMul (core : CoreId) (f : Ecc) (gd ga gb : RegIdx) (s : State) : Out :=
  .next (s.facet core f fun s => s.alu2 core gd ga gb (· * ·))

/-- MULH (R55): high 64 bits of a × b, signed. -/
def execMulh (core : CoreId) (f : Ecc) (gd ga gb : RegIdx) (s : State) : Out :=
  .next (s.facet core f fun s => s.alu2 core gd ga gb opMulh)

/-- MULHU (R55): high 64 bits of a × b, unsigned. -/
def execMulhu (core : CoreId) (f : Ecc) (gd ga gb : RegIdx) (s : State) : Out :=
  .next (s.facet core f fun s => s.alu2 core gd ga gb opMulhu)

/-- DIV (R55): a ÷ b signed, as R56 states. -/
def execDiv (core : CoreId) (f : Ecc) (gd ga gb : RegIdx) (s : State) : Out :=
  .next (s.facet core f fun s => s.alu2 core gd ga gb opDiv)

/-- REM (R55): remainder of `div`, as R56 states. -/
def execRem (core : CoreId) (f : Ecc) (gd ga gb : RegIdx) (s : State) : Out :=
  .next (s.facet core f fun s => s.alu2 core gd ga gb opRem)

/-- DIVU (R55): a ÷ b unsigned, as R56 states. -/
def execDivu (core : CoreId) (f : Ecc) (gd ga gb : RegIdx) (s : State) : Out :=
  .next (s.facet core f fun s => s.alu2 core gd ga gb opDivu)

/-- REMU (R55): remainder of `divu`, as R56 states. -/
def execRemu (core : CoreId) (f : Ecc) (gd ga gb : RegIdx) (s : State) : Out :=
  .next (s.facet core f fun s => s.alu2 core gd ga gb opRemu)

/-- MIN (R55): smaller of a and b, signed. -/
def execMin (core : CoreId) (f : Ecc) (gd ga gb : RegIdx) (s : State) : Out :=
  .next (s.facet core f fun s => s.alu2 core gd ga gb opMin)

/-- MAX (R55): larger of a and b, signed. -/
def execMax (core : CoreId) (f : Ecc) (gd ga gb : RegIdx) (s : State) : Out :=
  .next (s.facet core f fun s => s.alu2 core gd ga gb opMax)

/-- MINU (R55): smaller, unsigned. -/
def execMinu (core : CoreId) (f : Ecc) (gd ga gb : RegIdx) (s : State) : Out :=
  .next (s.facet core f fun s => s.alu2 core gd ga gb opMinu)

/-- MAXU (R55): larger, unsigned. -/
def execMaxu (core : CoreId) (f : Ecc) (gd ga gb : RegIdx) (s : State) : Out :=
  .next (s.facet core f fun s => s.alu2 core gd ga gb opMaxu)

/-- CLZ (R55): count of leading zeros of a. -/
def execClz (core : CoreId) (f : Ecc) (gd ga : RegIdx) (s : State) : Out :=
  .next (s.facet core f fun s => s.alu1 core gd ga opClz)

/-- CTZ (R55): count of trailing zeros of a. -/
def execCtz (core : CoreId) (f : Ecc) (gd ga : RegIdx) (s : State) : Out :=
  .next (s.facet core f fun s => s.alu1 core gd ga opCtz)

/-- POPC (R55): count of ones in a. -/
def execPopc (core : CoreId) (f : Ecc) (gd ga : RegIdx) (s : State) : Out :=
  .next (s.facet core f fun s => s.alu1 core gd ga opPopc)

/-- BSWAP (R55): a with its eight bytes reversed. -/
def execBswap (core : CoreId) (f : Ecc) (gd ga : RegIdx) (s : State) : Out :=
  .next (s.facet core f fun s => s.alu1 core gd ga opBswap)

/-- PTEST (R55, R73): 1 if `ga` is poisoned; the result is never poisoned. -/
def execPtest (core : CoreId) (f : Ecc) (gd ga : RegIdx) (s : State) : Out :=
  .next (s.facet core f fun s => s.result core gd (boolWord (s.gp core ga)) false)

/-- PCLR (R55, R73): a with poison clear. -/
def execPclr (core : CoreId) (f : Ecc) (gd ga : RegIdx) (s : State) : Out :=
  .next (s.facet core f fun s => s.result core gd (s.gv core ga) false)

/-- JR (R55, R75): jump to address a; a poisoned target bites (log entry 20). -/
def execJr (core : CoreId) (f : Ecc) (ga : RegIdx) (s : State) : Out :=
  .next (s.facet core f fun s => s.bite core 2 ga fun s => s.jumpTo core (s.gv core ga))

/-- CALLR (R55, R73, R75): the link into `gd`, then jump to address a as it was. -/
def execCallr (core : CoreId) (f : Ecc) (gd ga : RegIdx) (s : State) : Out :=
  .next (s.facet core f fun s => s.bite core 2 ga fun s =>
    (s.setG core gd ⟨BitVec.ofNat 64 ((s.core core).pc + 4), false⟩).jumpTo core (s.gv core ga))

end Sys2Proof.Machine
end

