-- ==== Sys2Proof/Machine/FacetAssist.lean ====
section
/-! DEFINITION. Major 0x34: storage assists (R92 to R98). An operand with a reserved bit set is illegal before its poison
bites (R72, R98; log entry 27). -/

namespace Sys2Proof.Machine

open Sys2Proof

/-- The word of an assist (R53, R92). -/
def assistWord (func gd ga gb : Nat) : Nat := wordA 0x34 gd ga gb func

/-- The illegal trap of R98 where an operand has a reserved bit set, else go on. -/
def State.legal (s : State) (n : Nat) (bad : Bool) (w : Nat) (k : State → State) : State :=
  if bad then s.illegal n 2 w else k s

/-- MLOOK (R93): look up, pin, unpin or mark dirty a map page; operands with other bits set, and a disabled assist, are
REFUSED. -/
def execMlook (core : CoreId) (f : Ecc) (gd ga gb : RegIdx) (dir : Ecc) (s : State) : Out :=
  .next (s.facet core f fun s =>
    s.bite core 6 ga fun s => s.bite core 6 gb fun s =>
      let a := s.gv core ga
      let b := s.gv core gb
      if bits a 32 32 != 0 || bits b 2 62 != 0 || !s.flag fMAP_CTL_EN then s.result core gd mlookRefused false
      else s.mlookOp core gd (bits a 0 32) (bits b 0 2) dir)

/-- BALLOC (R86, R94, R98): allocate a bead for class a[3:0]; tracked within a transaction. -/
def execBalloc (core : CoreId) (f : Ecc) (gd ga : RegIdx) (s : State) : Out :=
  .next (s.facet core f fun s =>
    let a := s.gv core ga
    s.legal core (bits a 4 60 != 0) (assistWord 1 gd ga 0) fun s => s.bite core 6 ga fun s =>
      let r := s.balloc (bits a 0 4) (s.mailEp core)
      match r.2.2 with
      | none => r.1.result core gd r.2.1 false
      | some b =>
        if s.fullEffects core then s.trap core 0x07 4 16
        else (r.1.track core (.allocBead b)).result core gd r.2.1 false)

/-- BFREE (R86, R92, R94, R98): release bead a[14:0]; deferred within a transaction. A bead that the core does not hold is an
access fault at its address (log entry 58). -/
def execBfree (core : CoreId) (f : Ecc) (ga : RegIdx) (s : State) : Out :=
  .next (s.facet core f fun s =>
    let a := s.gv core ga
    let b := bits a 0 15
    s.legal core (bits a 15 49 != 0) (assistWord 2 0 ga 0) fun s => s.bite core 6 ga fun s =>
      if !s.holdsBead core b then s.trap core 0x05 7 (beadAddr b)
      else if s.fullEffects core then s.trap core 0x07 4 16
      else if s.inTx core then (s.track core (.freeBead b)).advance core
      else (s.releaseBead b).advance core)

/-- BGIVE (R86, R94, R98): transfer the grant of bead a[14:0] to endpoint b[6:0]: 0, or 1 where the endpoint takes no
beads. -/
def execBgive (core : CoreId) (f : Ecc) (gd ga gb : RegIdx) (s : State) : Out :=
  .next (s.facet core f fun s =>
    let a := s.gv core ga
    let b := bits a 0 15
    let ep := bits (s.gv core gb) 0 7
    s.legal core (bits a 15 49 != 0 || bits (s.gv core gb) 7 57 != 0) (assistWord 3 gd ga gb) fun s =>
      s.bite core 6 ga fun s => s.bite core 6 gb fun s =>
        if !s.holdsBead core b then s.trap core 0x05 7 (beadAddr b)
        else if !takesBeads ep then s.result core gd 1#64 false
        else if s.fullEffects core then s.trap core 0x07 4 16
        else if s.inTx core then (s.track core (.giveBead b (s.mailEp ep))).result core gd 0#64 false
        else (s.giveBead b (s.mailEp ep)).result core gd 0#64 false)

/-- CRCL (R95): CRC-32C update over the 64 bytes at address b; control space is refused. -/
def execCrcl (core : CoreId) (f : Ecc) (gd ga gb : RegIdx) (ecc : Ecc) (s : State) : Out :=
  .next (s.facet core f fun s =>
    s.bite core 6 ga fun s => s.bite core 6 gb fun s =>
      let a := (s.gv core gb).toNat
      match regionAt a with
      | .control _ => s.trap core 0x05 2 a
      | _ =>
        s.checked core a 64 .load fun s =>
          let r := s.blockAt core a ecc
          r.1.result core gd (crcWord (s.gv core ga) r.2.1) r.2.2)

/-- CRCBD (R95, R98): CRC-32C update over the 4,096 data bytes of bead b[14:0], which the core must hold. -/
def execCrcbd (core : CoreId) (f : Ecc) (gd ga gb : RegIdx) (ecc : Ecc) (s : State) : Out :=
  .next (s.facet core f fun s =>
    let b := bits (s.gv core gb) 0 15
    s.legal core (bits (s.gv core gb) 15 49 != 0) (assistWord 5 gd ga gb) fun s =>
      s.bite core 6 ga fun s => s.bite core 6 gb fun s =>
        s.checked core (beadAddr b) 64 .load fun s =>
          let r := s.readOutcome core (beadAddr b) ecc .load core
          r.1.result core gd (crcWord (s.gv core ga) (r.1.mem.bytes (beadAddr b) 4096))
            (r.2 || (r.1.mem.firstPoison (beadAddr b) 512).isSome))

/-- CRCD (R95): CRC-32C update over the 8 bytes of b, lowest first. -/
def execCrcd (core : CoreId) (f : Ecc) (gd ga gb : RegIdx) (s : State) : Out :=
  .next (s.facet core f fun s => s.bite core 6 ga fun s => s.bite core 6 gb fun s =>
    s.result core gd (crcWord (s.gv core ga) (bytesOf (s.gv core gb).toNat 8)) false)

/-- CRCW (R95): CRC-32C update over the 4 bytes of b[31:0], lowest first. -/
def execCrcw (core : CoreId) (f : Ecc) (gd ga gb : RegIdx) (s : State) : Out :=
  .next (s.facet core f fun s => s.bite core 6 ga fun s => s.bite core 6 gb fun s =>
    s.result core gd (crcWord (s.gv core ga) (bytesOf (s.gv core gb).toNat 4)) false)

/-- KHASH (R96, R98): SipHash-2-4 of a under key slot b[1:0]. -/
def execKhash (core : CoreId) (f : Ecc) (gd ga gb : RegIdx) (s : State) : Out :=
  .next (s.facet core f fun s =>
    s.legal core (bits (s.gv core gb) 2 62 != 0) (assistWord 8 gd ga gb) fun s =>
      s.bite core 6 ga fun s => s.bite core 6 gb fun s =>
        s.result core gd (sipHash (s.hashKey (bits (s.gv core gb) 0 2)) (s.gv core ga)) false)

/-- GFMUL (R92, R97): each byte of a times b[7:0] in GF(2^8). -/
def execGfmul (core : CoreId) (f : Ecc) (gd ga gb : RegIdx) (s : State) : Out :=
  .next (s.facet core f fun s => s.bite core 6 ga fun s => s.bite core 6 gb fun s =>
    s.result core gd (gfBytes (s.gv core ga) (s.gv core gb) (fun _ => 0)) false)

/-- GFMULV (R92, R97): byte i of a times byte i of b in GF(2^8). -/
def execGfmulv (core : CoreId) (f : Ecc) (gd ga gb : RegIdx) (s : State) : Out :=
  .next (s.facet core f fun s => s.bite core 6 ga fun s => s.bite core 6 gb fun s =>
    s.result core gd (gfBytes (s.gv core ga) (s.gv core gb) (fun i => i)) false)

end Sys2Proof.Machine
end

