-- ==== Sys2Proof/Machine/FacetImm.lean ====
section
/-! DEFINITION. Majors 0x01 to 0x0F: immediate ALU (R57, R73). -/

namespace Sys2Proof.Machine

open Sys2Proof

/-- ADDI (R57): a + sext(imm). -/
def execAddi (core : CoreId) (f : Ecc) (gd ga : RegIdx) (imm : BitVec 16) (s : State) : Out :=
  .next (s.facet core f fun s => s.alu1 core gd ga (· + sext16 imm))

/-- ANDI (R57): a AND zext(imm). -/
def execAndi (core : CoreId) (f : Ecc) (gd ga : RegIdx) (imm : BitVec 16) (s : State) : Out :=
  .next (s.facet core f fun s => s.alu1 core gd ga (· &&& zext16 imm))

/-- ORI (R57): a OR zext(imm). -/
def execOri (core : CoreId) (f : Ecc) (gd ga : RegIdx) (imm : BitVec 16) (s : State) : Out :=
  .next (s.facet core f fun s => s.alu1 core gd ga (· ||| zext16 imm))

/-- XORI (R57): a XOR zext(imm). -/
def execXori (core : CoreId) (f : Ecc) (gd ga : RegIdx) (imm : BitVec 16) (s : State) : Out :=
  .next (s.facet core f fun s => s.alu1 core gd ga (· ^^^ zext16 imm))

/-- SLTI (R57): 1 if a < sext(imm) signed, else 0. -/
def execSlti (core : CoreId) (f : Ecc) (gd ga : RegIdx) (imm : BitVec 16) (s : State) : Out :=
  .next (s.facet core f fun s => s.alu1 core gd ga (fun a => opSlt a (sext16 imm)))

/-- SLTIU (R57): 1 if a < sext(imm) unsigned, else 0. -/
def execSltiu (core : CoreId) (f : Ecc) (gd ga : RegIdx) (imm : BitVec 16) (s : State) : Out :=
  .next (s.facet core f fun s => s.alu1 core gd ga (fun a => opSltu a (sext16 imm)))

/-- INS32 (R57): a with bits [47:32] replaced by imm. -/
def execIns32 (core : CoreId) (f : Ecc) (gd ga : RegIdx) (imm : BitVec 16) (s : State) : Out :=
  .next (s.facet core f fun s => s.alu1 core gd ga (fun a => setBits a 32 16 imm.toNat))

/-- INS48 (R57): a with bits [63:48] replaced by imm. -/
def execIns48 (core : CoreId) (f : Ecc) (gd ga : RegIdx) (imm : BitVec 16) (s : State) : Out :=
  .next (s.facet core f fun s => s.alu1 core gd ga (fun a => setBits a 48 16 imm.toNat))

/-- MULI (R57): low 64 bits of a × sext(imm). -/
def execMuli (core : CoreId) (f : Ecc) (gd ga : RegIdx) (imm : BitVec 16) (s : State) : Out :=
  .next (s.facet core f fun s => s.alu1 core gd ga (· * sext16 imm))

/-- CMPEQI (R57): 1 if a = sext(imm), else 0. -/
def execCmpeqi (core : CoreId) (f : Ecc) (gd ga : RegIdx) (imm : BitVec 16) (s : State) : Out :=
  .next (s.facet core f fun s => s.alu1 core gd ga (fun a => boolWord (a == sext16 imm)))

/-- SLLI (R57): a shifted left by imm[5:0]. -/
def execSlli (core : CoreId) (f : Ecc) (gd ga : RegIdx) (sh : BitVec 6) (s : State) : Out :=
  .next (s.facet core f fun s => s.alu1 core gd ga (· <<< sh.toNat))

/-- SRLI (R57): a shifted right by imm[5:0], zero fill. -/
def execSrli (core : CoreId) (f : Ecc) (gd ga : RegIdx) (sh : BitVec 6) (s : State) : Out :=
  .next (s.facet core f fun s => s.alu1 core gd ga (· >>> sh.toNat))

/-- SRAI (R57): a shifted right by imm[5:0], sign fill. -/
def execSrai (core : CoreId) (f : Ecc) (gd ga : RegIdx) (sh : BitVec 6) (s : State) : Out :=
  .next (s.facet core f fun s => s.alu1 core gd ga (·.sshiftRight sh.toNat))

/-- LUI (R57, R73): zext(imm) shifted left by 16, never poisoned. -/
def execLui (core : CoreId) (f : Ecc) (gd : RegIdx) (imm : BitVec 16) (s : State) : Out :=
  .next (s.facet core f fun s => s.result core gd (zext16 imm <<< 16) false)

/-- LPA (R57, R73): the address of this instruction plus sext(imm) × 4, never poisoned. -/
def execLpa (core : CoreId) (f : Ecc) (gd : RegIdx) (imm : BitVec 16) (s : State) : Out :=
  .next (s.facet core f fun s => 
    s.result core gd (BitVec.ofNat 64 (s.core core).pc + sext16 imm * 4#64) false)

end Sys2Proof.Machine
end

