-- ==== Sys2Proof/Machine/FacetBranch.lean ====
section
/-! DEFINITION. Branches, jump and call: majors 0x20 to 0x29 (R53, R61, R75). -/

namespace Sys2Proof.Machine

open Sys2Proof

/-- BEQ (R61): branch if a = b. -/
def execBeq (core : CoreId) (f : Ecc) (ga gb : RegIdx) (off : BitVec 16) (s : State) : Out :=
  .next (s.facet core f fun s => s.branch core ga gb off (· == ·))

/-- BNE (R61): branch if a ≠ b. -/
def execBne (core : CoreId) (f : Ecc) (ga gb : RegIdx) (off : BitVec 16) (s : State) : Out :=
  .next (s.facet core f fun s => s.branch core ga gb off (· != ·))

/-- BLT (R61): branch if a < b signed. -/
def execBlt (core : CoreId) (f : Ecc) (ga gb : RegIdx) (off : BitVec 16) (s : State) : Out :=
  .next (s.facet core f fun s => s.branch core ga gb off BitVec.slt)

/-- BGE (R61): branch if a ≥ b signed. -/
def execBge (core : CoreId) (f : Ecc) (ga gb : RegIdx) (off : BitVec 16) (s : State) : Out :=
  .next (s.facet core f fun s => s.branch core ga gb off (fun a b => !a.slt b))

/-- BLTU (R61): branch if a < b unsigned. -/
def execBltu (core : CoreId) (f : Ecc) (ga gb : RegIdx) (off : BitVec 16) (s : State) : Out :=
  .next (s.facet core f fun s => s.branch core ga gb off BitVec.ult)

/-- BGEU (R61): branch if a ≥ b unsigned. -/
def execBgeu (core : CoreId) (f : Ecc) (ga gb : RegIdx) (off : BitVec 16) (s : State) : Out :=
  .next (s.facet core f fun s => s.branch core ga gb off (fun a b => !a.ult b))

/-- BPO (R61): branch if `ga` is poisoned; the poison does not bite. -/
def execBpo (core : CoreId) (f : Ecc) (ga : RegIdx) (off : BitVec 16) (s : State) : Out :=
  .next (s.facet core f fun s => 
    if s.gp core ga then s.goto core (wordTarget (s.core core).pc off.toInt) else s.advance core)

/-- JUMP (R61): go to the target. -/
def execJump (core : CoreId) (f : Ecc) (off : BitVec 26) (s : State) : Out :=
  .next (s.facet core f fun s => s.goto core (wordTarget (s.core core).pc off.toInt))

/-- CALL (R61): the link into `g31`, then to the target. -/
def execCall (core : CoreId) (f : Ecc) (off : BitVec 26) (s : State) : Out :=
  .next (s.facet core f fun s => 
    (s.setG core 31 ⟨BitVec.ofNat 64 ((s.core core).pc + 4), false⟩).goto core (wordTarget (s.core core).pc off.toInt))

end Sys2Proof.Machine
end

