-- ==== Sys2Proof/Machine/FacetChain.lean ====
section
/-! DEFINITION. Major 0x3C: Chain send, receive and poll, and the limit of a held-back send (R78 to R84). -/

namespace Sys2Proof.Machine

open Sys2Proof

/-- CSEND (R80, R83, R86): send the 64 bytes at `gr` to the destination word `ge`; wait under back-pressure. -/
def execCsend (core : CoreId) (f : Ecc) (gr ge : RegIdx) (mbx : BitVec 4) (ecc : Ecc) (s : State) : Out :=
  .next (s.facet core f fun s => s.csend core gr ge mbx.toNat ecc)

/-- CSENDNB (R80): as CSEND, but never waits: `gr` = 0 if sent or held, 1 if it would wait. -/
def execCsendnb (core : CoreId) (f : Ecc) (gr ge : RegIdx) (mbx : BitVec 4) (ecc : Ecc) (s : State) : Out :=
  .next (s.facet core f fun s =>
    s.sendFrom core gr ge mbx.toNat ecc (fun s => s.result core gr 0#64 false) (fun s => s.result core gr 1#64 false))

/-- CRECV (R80, R82, R84): take a message from the own mailbox into the buffer at `gr`; wait while it is empty. A slot that
is freed lets a held-back sender go on. -/
def execCrecv (core : CoreId) (f : Ecc) (gr ge : RegIdx) (mbx : BitVec 4) (s : State) : Out :=
  .next (s.facet core f fun s => (s.crecv core gr ge mbx.toNat).settle)

/-- CRECVNB (R80, R82): as CRECV, but `ge` = 0 at once on an empty mailbox. -/
def execCrecvnb (core : CoreId) (f : Ecc) (gr ge : RegIdx) (mbx : BitVec 4) (s : State) : Out :=
  .next (s.facet core f fun s => (s.receive core gr ge mbx.toNat fun s => s.result core ge 0#64 false).settle)

/-- CPOLL (R80, R82): the poll word. -/
def execCpoll (core : CoreId) (f : Ecc) (gr : RegIdx) (s : State) : Out :=
  .next (s.facet core f fun s => s.result core gr (s.pollWord (s.core core).role) false)

/-- CWAIT (R80): wait until a mailbox in the mask `ge` holds a message; then the poll word. -/
def execCwait (core : CoreId) (f : Ecc) (gr ge : RegIdx) (s : State) : Out :=
  .next (s.facet core f fun s => s.cwait core gr ge)

/-- SEND_LIMIT_EXPIRY (R83, R84): a send still held back when `FCT_SENDLIM` expires raises Chain fault 0x02; 0 sets no
limit. -/
def execSendLimitExpiry (core : CoreId) (s : State) : Out :=
  .next (match (s.core core).status with
    | .waiting (.send _ ge _) =>
      if s.fld fFCT_SENDLIM_LIMIT = 0 then s else s.trap core 0x06 2 (s.gv core ge).toNat
    | _ => s)

end Sys2Proof.Machine
end

