-- ==== Sys2Proof/Machine/FacetMem.lean ====
section
/-! DEFINITION. Loads, stores and atomics: majors 0x10 to 0x1E and 0x30 (R48, R49, R58 to R60, R62, R72 to R75). -/

namespace Sys2Proof.Machine

open Sys2Proof

/-- LB (R58): load a sign-extended byte. -/
def execLb (core : CoreId) (f : Ecc) (gd ga : RegIdx) (imm : BitVec 16) (ecc : Ecc) (s : State) : Out :=
  .next (s.facet core f fun s => s.loadImm core gd ga imm 1 true ecc)

/-- LBU (R58): load a zero-extended byte. -/
def execLbu (core : CoreId) (f : Ecc) (gd ga : RegIdx) (imm : BitVec 16) (ecc : Ecc) (s : State) : Out :=
  .next (s.facet core f fun s => s.loadImm core gd ga imm 1 false ecc)

/-- LH (R58): load a sign-extended half. -/
def execLh (core : CoreId) (f : Ecc) (gd ga : RegIdx) (imm : BitVec 16) (ecc : Ecc) (s : State) : Out :=
  .next (s.facet core f fun s => s.loadImm core gd ga imm 2 true ecc)

/-- LHU (R58): load a zero-extended half. -/
def execLhu (core : CoreId) (f : Ecc) (gd ga : RegIdx) (imm : BitVec 16) (ecc : Ecc) (s : State) : Out :=
  .next (s.facet core f fun s => s.loadImm core gd ga imm 2 false ecc)

/-- LW (R58): load a sign-extended word. -/
def execLw (core : CoreId) (f : Ecc) (gd ga : RegIdx) (imm : BitVec 16) (ecc : Ecc) (s : State) : Out :=
  .next (s.facet core f fun s => s.loadImm core gd ga imm 4 true ecc)

/-- LWU (R58): load a zero-extended word. -/
def execLwu (core : CoreId) (f : Ecc) (gd ga : RegIdx) (imm : BitVec 16) (ecc : Ecc) (s : State) : Out :=
  .next (s.facet core f fun s => s.loadImm core gd ga imm 4 false ecc)

/-- LD (R58): load a double. -/
def execLd (core : CoreId) (f : Ecc) (gd ga : RegIdx) (imm : BitVec 16) (ecc : Ecc) (s : State) : Out :=
  .next (s.facet core f fun s => s.loadImm core gd ga imm 8 false ecc)

/-- LDR (R58): load the double at `ga` + `gb`. -/
def execLdr (core : CoreId) (f : Ecc) (gd ga gb : RegIdx) (ecc : Ecc) (s : State) : Out :=
  .next (s.facet core f fun s => s.bite core 1 ga fun s => s.bite core 1 gb fun s =>
    s.loadInto core gd (s.addrIdx core ga gb) 8 false ecc)

/-- SB (R58): store gs[7:0]. -/
def execSb (core : CoreId) (f : Ecc) (gs ga : RegIdx) (imm : BitVec 16) (ecc : Ecc) (s : State) : Out :=
  .next (s.facet core f fun s => s.storeImm core gs ga imm 1 .store ecc)

/-- SH (R58): store gs[15:0]. -/
def execSh (core : CoreId) (f : Ecc) (gs ga : RegIdx) (imm : BitVec 16) (ecc : Ecc) (s : State) : Out :=
  .next (s.facet core f fun s => s.storeImm core gs ga imm 2 .store ecc)

/-- SW (R58): store gs[31:0]. -/
def execSw (core : CoreId) (f : Ecc) (gs ga : RegIdx) (imm : BitVec 16) (ecc : Ecc) (s : State) : Out :=
  .next (s.facet core f fun s => s.storeImm core gs ga imm 4 .store ecc)

/-- SD (R58, R31): store `gs`; to control space, the block takes it, and cores that it lets go on do so. -/
def execSd (core : CoreId) (f : Ecc) (gs ga : RegIdx) (imm : BitVec 16) (ecc : Ecc) (s : State) : Out :=
  .next (s.facet core f fun s => (s.storeImm core gs ga imm 8 .store ecc).settle)

/-- SDR (R58, R31): store the `gd`-field register at `ga` + `gb`. -/
def execSdr (core : CoreId) (f : Ecc) (gs ga gb : RegIdx) (ecc : Ecc) (s : State) : Out :=
  .next (s.facet core f fun s => (s.bite core 1 ga fun s => s.bite core 1 gb fun s =>
    s.storeFrom core gs (s.addrIdx core ga gb) 8 .store ecc).settle)

/-- SDP (R58, R59, R74): store `gs` and mark the double poisoned. -/
def execSdp (core : CoreId) (f : Ecc) (gs ga : RegIdx) (imm : BitVec 16) (ecc : Ecc) (s : State) : Out :=
  .next (s.facet core f fun s => s.storeImm core gs ga imm 8 .sdp ecc)

/-- ZL (R59, R60): zeros with valid check bits over the aligned 64-byte block. -/
def execZl (core : CoreId) (f : Ecc) (ga : RegIdx) (imm : BitVec 16) (ecc : Ecc) (s : State) : Out :=
  .next (s.facet core f fun s => s.bite core 1 ga fun s =>
    let a := s.addrImm core ga imm
    s.checked core a 64 .zl fun s => (s.zeroBlock core a ecc).advance core)

/-- ASWAP (R62): the new value is b; `gd` takes the old value. -/
def execAswap (core : CoreId) (f : Ecc) (gd ga gb : RegIdx) (ecc : Ecc) (s : State) : Out :=
  .next (s.facet core f fun s => s.atomic core gd ga gb (fun _ b => b) ecc)

/-- AADD (R62): old + b; `gd` takes the old value. -/
def execAadd (core : CoreId) (f : Ecc) (gd ga gb : RegIdx) (ecc : Ecc) (s : State) : Out :=
  .next (s.facet core f fun s => s.atomic core gd ga gb (· + ·) ecc)

/-- AAND (R62): old AND b; `gd` takes the old value. -/
def execAand (core : CoreId) (f : Ecc) (gd ga gb : RegIdx) (ecc : Ecc) (s : State) : Out :=
  .next (s.facet core f fun s => s.atomic core gd ga gb (· &&& ·) ecc)

/-- AOR (R62): old OR b; `gd` takes the old value. -/
def execAor (core : CoreId) (f : Ecc) (gd ga gb : RegIdx) (ecc : Ecc) (s : State) : Out :=
  .next (s.facet core f fun s => s.atomic core gd ga gb (· ||| ·) ecc)

/-- AXOR (R62): old XOR b; `gd` takes the old value. -/
def execAxor (core : CoreId) (f : Ecc) (gd ga gb : RegIdx) (ecc : Ecc) (s : State) : Out :=
  .next (s.facet core f fun s => s.atomic core gd ga gb (· ^^^ ·) ecc)

/-- AMAXU (R62): the larger of old and b, unsigned; `gd` takes the old value. -/
def execAmaxu (core : CoreId) (f : Ecc) (gd ga gb : RegIdx) (ecc : Ecc) (s : State) : Out :=
  .next (s.facet core f fun s => s.atomic core gd ga gb opMaxu ecc)

/-- AMINU (R62): the smaller of old and b, unsigned; `gd` takes the old value. -/
def execAminu (core : CoreId) (f : Ecc) (gd ga gb : RegIdx) (ecc : Ecc) (s : State) : Out :=
  .next (s.facet core f fun s => s.atomic core gd ga gb opMinu ecc)

/-- CAS (R62, R75): `gb` is written if the old value is `gd`; `gd` takes the old value. Its three registers are operands. -/
def execCas (core : CoreId) (f : Ecc) (gd ga gb : RegIdx) (ecc : Ecc) (s : State) : Out :=
  .next (s.facet core f fun s => 
    s.bite core 1 ga fun s => s.bite core 7 gb fun s => s.bite core 7 gd fun s =>
      s.checked core (s.gv core ga).toNat 8 .atomic fun s =>
        let b := (s.gv core gb).toNat
        let e := (s.gv core gd).toNat
        s.atomicOn core gd (s.gv core ga).toNat (fun old => if old = e then some b else none) ecc)

end Sys2Proof.Machine
end

