-- ==== Sys2Proof/Machine/FacetSystem.lean ====
section
/-! DEFINITION. Major 0x3E and the traps that no other family raises: system instructions, control registers, illegal words
and the watchdog (R52 to R54, R57, R58, R61, R63 to R72, R80, R85, R92). -/

namespace Sys2Proof.Machine

open Sys2Proof

/-! ### Control registers (R64 to R66, R68) -/

/-- The value of control register `cr` of core `n`, if it is listed (R64). -/
def State.crValue (s : State) (n cr : Nat) : Option Word :=
  let c := s.core n
  if cr = 0 then some (BitVec.ofNat 64 (n + c.role * 2 ^ 8))
  else if cr = 1 then some c.cr.hbase
  else if cr = 2 then some c.cr.hstat
  else if cr = 3 then some c.cr.hcode
  else if cr = 4 then some c.cr.hresume
  else if cr = 5 then some c.cr.hinfo
  else if cr = 6 then some c.cr.hkeep0
  else if cr = 7 then some c.cr.hkeep1
  else if cr = 8 then some c.cr.wdog
  else if cr = 9 then some c.cr.bpa
  else if cr = 10 then some c.cr.icount
  else if cr = 11 then some (BitVec.ofNat 64 s.tnowRead)
  else none

/-- A control register with a writable field (R64). -/
def crWritable (cr : Nat) : Bool := cr == 1 || (3 ≤ cr && cr ≤ 9)

/-- Write `v` to a control register: reserved bits stay zero, `KICK` reads 0, and a write of `wdog` with `EN` or `KICK`
restarts the interval (R65, R66, R68). -/
def State.setCr (s : State) (n cr : Nat) (v : Word) : State :=
  let c := s.core n
  if cr = 1 then s.setCore n { c with cr := { c.cr with hbase := v &&& 0xFC00#64 } }
  else if cr = 3 then s.setCore n { c with cr := { c.cr with hcode := v &&& 0xFFFF01#64 } }
  else if cr = 4 then s.setCore n { c with cr := { c.cr with hresume := v &&& 0xFFFFFFFFFC#64 } }
  else if cr = 5 then s.setCore n { c with cr := { c.cr with hinfo := v } }
  else if cr = 6 then s.setCore n { c with cr := { c.cr with hkeep0 := v } }
  else if cr = 7 then s.setCore n { c with cr := { c.cr with hkeep1 := v } }
  else if cr = 8 then
    s.setCore n { c with
      wdStart := if bit v 32 || bit v 33 then s.now else c.wdStart
      cr := { c.cr with wdog := v &&& 0x1FFFFFFFF#64 } }
  else if cr = 9 then s.setCore n { c with cr := { c.cr with bpa := v &&& 0xFFFFFFFFFD#64 } }
  else s

/-- A control-register write by an instruction whose word is `w` (R63, R64, R75): a number or type that is illegal traps
before a poisoned source bites. -/
def State.ctlReg (s : State) (n cr ga w : Nat) (op : Word → Word → Word) : State :=
  if !crWritable cr then s.illegal n 6 w
  else s.bite n 4 ga fun s =>
    ((s.setCr n cr (op ((s.crValue n cr).getD 0#64) (s.gv n ga))).advance n)

/-! ### The instructions (R63) -/

/-- SVC (R63, R69): trap 0x0A, a service call to Signet; it resumes after itself. -/
def execSvc (core : CoreId) (f : Ecc) (s : State) : Out :=
  .next (s.facet core f fun s => (s.trap core 0x0A 0 0).settle)

/-- BRK (R63, R67): trap 0x09, DETAIL 0x01, with the address of the instruction. -/
def execBrk (core : CoreId) (f : Ecc) (s : State) : Out :=
  .next (s.facet core f fun s => s.trap core 0x09 1 (s.core core).pc)

/-- LEAVE (R70): return from a trap; outside one it is illegal. The breakpoint at the resume address is suppressed once, and
a pending watchdog expiry traps at once. -/
def execLeave (core : CoreId) (f : Ecc) (s : State) : Out :=
  .next (s.facet core f fun s =>
    let c := s.core core
    if !c.inTrap then s.illegal core 5 (systemWord 0 0 0 3)
    else
      let pc := bits c.cr.hresume 2 38 * 4
      let d := (c.done pc).setStat 0 false
      let d := if bit d.cr.bpa 0 && decide (bits d.cr.bpa 2 38 * 4 = pc) then d.setStat 1 true else d
      if d.wdPend then ((s.setCore core (d.setStat 2 false)).trap core 0x08 0 0 true).settle
      else s.setCore core d)

/-- FENCE (R52): earlier stores are visible at once in this model, so it only completes (log entry 25). -/
def execFence (core : CoreId) (f : Ecc) (s : State) : Out :=
  .next (s.facet core f fun s => s.advance core)

/-- CTLGET (R63, R64, R109): read a control register; `tnow` is read over a counter lane of clasp 7. -/
def execCtlget (core : CoreId) (f : Ecc) (gd : RegIdx) (cr : BitVec 5) (s : State) : Out :=
  .next (s.facet core f fun s =>
    match s.crValue core cr.toNat with
    | some v => (if cr.toNat = 11 then s.laneRead 7 else s).result core gd v false
    | none => s.illegal core 6 (systemWord gd 0 cr.toNat 0x10))

/-- CTLPUT (R63): write a control register. -/
def execCtlput (core : CoreId) (f : Ecc) (cr : BitVec 5) (ga : RegIdx) (s : State) : Out :=
  .next (s.facet core f fun s => s.ctlReg core cr.toNat ga (systemWord 0 ga cr.toNat 0x11) (fun _ a => a))

/-- CTLSET (R63): OR a value into a control register. -/
def execCtlset (core : CoreId) (f : Ecc) (cr : BitVec 5) (ga : RegIdx) (s : State) : Out :=
  .next (s.facet core f fun s => s.ctlReg core cr.toNat ga (systemWord 0 ga cr.toNat 0x12) (fun v a => v ||| a))

/-- CTLCLR (R63): clear bits of a control register. -/
def execCtlclr (core : CoreId) (f : Ecc) (cr : BitVec 5) (ga : RegIdx) (s : State) : Out :=
  .next (s.facet core f fun s => s.ctlReg core cr.toNat ga (systemWord 0 ga cr.toNat 0x13) (fun v a => v &&& ~~~a))

/-! ### The watchdog (R68, R71, R83) -/

/-- WATCHDOG_EXPIRY (R68, R83): trap 0x08 between instructions or during a wait; within a handler the expiry becomes
pending, and a second one is a double trap. -/
def execWatchdogExpiry (core : CoreId) (s : State) : Out :=
  .next (
    let c := s.core core
    let active := decide (c.status = .running) || c.status.isWait
    if !(active && bit c.cr.wdog 32 && bits c.cr.wdog 0 32 != 0) then s
    else if !c.inTrap then ((s.setCore core { c with wdStart := s.now }).trap core 0x08 0 0 true).settle
    else if c.wdPend then (s.coreFail core 0x02 false).settle
    else s.setCore core { c.setStat 2 true with wdStart := s.now })

/-! ### Illegal words (R53, R54, R67) -/

/-- ILLEGAL_OPCODE (R53, R54, R67): an unassigned major or function, a non-zero zero field, or major 0x3F takes trap 0x01
with the instruction word. A word that spells an instruction is no such event (WellFormed). -/
def execIllegalOpcode (core : CoreId) (f : Ecc) (word : BitVec 32) (s : State) : Out :=
  match illegalDetail word with
  | none => .fault (.malformed "ILLEGAL_OPCODE")
  | some d => .next (s.facet core f fun s => s.illegal core d word.toNat)

end Sys2Proof.Machine
end

