-- ==== Sys2Proof/Machine/FacetTx.lean ====
section
/-! DEFINITION. Major 0x38: transactions, and their time limit (R85 to R90). -/

namespace Sys2Proof.Machine

open Sys2Proof

/-- TBEGIN (R85, R87): open a transaction; with one open, it aborts. -/
def execTbegin (core : CoreId) (f : Ecc) (s : State) : Out :=
  .next (s.facet core f fun s =>
    let c := s.core core
    if c.tx.isOpen then s.trap core 0x07 7 0
    else (s.setCore core { c with tx := { Tx.none with isOpen := true, ended := c.tx.ended, since := s.now } }).advance core)

/-- TCOMMIT (R87, R88): commit the open transaction; without one, trap 0x07. -/
def execTcommit (core : CoreId) (f : Ecc) (s : State) : Out :=
  .next (s.facet core f fun s => if s.inTx core then (s.commit core).settle else s.trap core 0x07 7 0)

/-- TABORT (R75, R85, R87): abandon the transaction with trap 0x07, DETAIL 0x01 and `ga` (log entry 30). -/
def execTabort (core : CoreId) (f : Ecc) (ga : RegIdx) (s : State) : Out :=
  .next (s.facet core f fun s =>
    s.bite core 6 ga fun s => (s.trap core 0x07 1 (s.gv core ga).toNat).settle)

/-- TRESUME (R85, R90): the last valid checkpoint is loaded and the core continues at its resume address; an open
transaction is abandoned (log entry 30). -/
def execTresume (core : CoreId) (f : Ecc) (s : State) : Out :=
  .next (s.facet core f fun s =>
    let s := (s.endTx core false).resume core
    s.goto core (s.core core).pc)

/-- TSTATE (R85, R87): the transaction state word. -/
def execTstate (core : CoreId) (f : Ecc) (gd : RegIdx) (s : State) : Out :=
  .next (s.facet core f fun s => s.result core gd (s.core core).txWord false)

/-- TX_LIMIT_EXPIRY (R87): a transaction open longer than `FCT_TXLIM` aborts between instructions, or while the core waits
(R103; log entries 21 and 29). -/
def execTxLimitExpiry (core : CoreId) (s : State) : Out :=
  .next (
    let c := s.core core
    if c.tx.isOpen && (decide (c.status = .running) || c.status.isWait) then
      (s.trap core 0x07 8 (s.now - c.tx.since) true).settle
    else s)

end Sys2Proof.Machine
end

