-- ==== Sys2Proof/Machine/FlashFault.lean ====
section
/-! DEFINITION. Injected flash faults (R441, kinds 0x10 to 0x15): matched when a request is accepted, carried by
`flt.armed` as channel, kind, LUN * 2^16 + parameter and injector, and met by the capture or the die. -/

namespace Sys2Proof.Machine

open Sys2Proof

/-- The kinds that a request of an operation is an event of: slot faults for `READ`, transfer stalls for operations that move
beads, timeouts for every one, status failures for programs and erases (R441). -/
def flashKinds (op : Nat) : List Nat :=
  if op = 1 then [0x10, 0x11, 0x12, 0x13, 0x14]
  else if op = 2 then [0x13, 0x14, 0x15]
  else if op = 3 then [0x14, 0x15]
  else if op = 8 then [0x13, 0x14]
  else [0x14]

/-- An accepted request is an event for the injectors that match it (R440, R441). -/
def State.injectRequest (s : State) (q : Nat) (r : PsqReq) : State :=
  let chan := s.fld (fPSQ_CTL_CHAN q)
  let l := (List.range 8).filter fun i => (flashKinds r.op).any fun k => s.injMatchFlash i k chan r.lun r.op
  let e := s.injEvent l
  match e.2 with
  | none => e.1
  | some i =>
    let s := e.1
    let kind := s.fld (fFLT_INJA_KIND i)
    let par := s.fld (fFLT_INJC_PARAM i)
    if kind = 0x13 then s.blaming true fun s => ((s.claspBreak (psqClasp q) .islandStalled 0 true).claspBreak (psqClasp q + 1) .islandStalled 0 true).seqFail q true
    else { s with flt := { s.flt with armed := s.flt.armed ++ [(chan, kind, r.lun * 2 ^ 16 + par, i)] } }

/-- The request that the last acceptance put into the shadow table, if it grew. -/
def newRequest (before after : List PsqReq) : Option PsqReq :=
  if before.length < after.length then after.getLast? else none

/-- Take a request and let the injectors see it. -/
def State.psqTake (s : State) (q : Nat) (isOp : Nat → Bool) (lookup : Ecc := .clean) : State :=
  let before := (s.sq q).shadow
  let s := s.psqAccept q isOp lookup
  match newRequest before (s.sq q).shadow with
  | some r => s.injectRequest q r
  | none => s

/-- The armed faults of a kind on a channel's LUN: their parameters. -/
def State.armedPars (s : State) (chan kind lun : Nat) : List Nat :=
  (s.flt.armed.filter fun e => decide (e.1 = chan) && decide (e.2.1 = kind) && decide (e.2.2.1 / 2 ^ 16 = lun)).map
    fun e => e.2.2.1 % 2 ^ 16
/-- Remove the armed faults that satisfy `p`. -/
def State.disarmFlash (s : State) (p : Nat × Nat × Nat × Nat → Bool) : State :=
  { s with flt := { s.flt with armed := s.flt.armed.filter fun e => !p e } }

/-- Invert a bit of a list of bytes. -/
def flipBit (l : List Byte) (i : Nat) : List Byte := l.mapIdx fun j b => if j = i / 8 then b ^^^ (1#8 <<< (i % 8)) else b

/-- The place in the capture of bit `p` of the slot's payload and parity (R313, R317). -/
def bodyBit (p : Nat) : Nat :=
  let b := p % 37408 / 8
  8 * ((if b < 2096 then b + 8 else b + 12) + 6) + p % 8

/-- Invert a run of captured bytes. -/
def invertRun (l : List Byte) (lo n : Nat) : List Byte := l.mapIdx fun j b => if lo ≤ j ∧ j < lo + n then ~~~b else b

/-- Shift a capture by a signed number of UI; what is shifted in is free. -/
def slipBytes (seed : Nat) (d : Int) (l : List Byte) : List Byte :=
  l.mapIdx fun j _ =>
    let i := Int.ofNat j - d
    let open_ := BitVec.ofNat 8 (pGet (Config.flipMask seed 0) (j % 64) 1)
    if 0 ≤ i then l.getD i.toNat open_ else open_

/-- A signed parameter of 16 bits. -/
def signedPar (n : Nat) : Int := if n < 32768 then Int.ofNat n else Int.ofNat n - 65536

/-- The capture as the injected faults of its slot leave it (R441). -/
def State.faultyCapture (s : State) (chan : Nat) (bytes : List Byte) : State × List Byte :=
  match s.seqOf chan with
  | none => (s, bytes)
  | some q =>
    match s.transferring q with
    | none => (s, bytes)
    | some r =>
      match s.nextTransfer chan r with
      | none => (s, bytes)
      | some (w, _) =>
        let here (par : Nat) := decide (par / 4096 % 4 = w.slot)
        let bitsNow := if w.senses.isEmpty then (s.armedPars chan 0x10 r.lun).filter here else []
        let marks := (s.armedPars chan 0x11 r.lun).filter here
        let slips := (s.flt.armed.filter fun e => decide (e.1 = chan) && decide (e.2.1 = 0x12)).map fun e => signedPar (e.2.2.1 % 2 ^ 16)
        let b := bitsNow.foldl (fun b par => ((Config.flipSlot s.free (par % 4096)).take (par % 4096)).foldl
          (fun b p => flipBit b (bodyBit p)) b) bytes
        let b := marks.foldl (fun b par =>
          let b := if par % 2 = 1 then invertRun b 6 8 else b
          if par / 2 % 2 = 1 then invertRun b 2110 4 else b) b
        let b := slips.foldl (fun b d => slipBytes s.free d b) b
        (s.tick, b)

/-- Injected slot faults of a channel whose `READ` has ended go; a slip lasts until the next re-trim. -/
def State.slotFaultsEnd (s : State) (chan : Nat) : State :=
  match s.seqOf chan with
  | none => s
  | some q =>
    s.disarmFlash fun e => decide (e.1 = chan) && (decide (e.2.1 = 0x10) || decide (e.2.1 = 0x11)) &&
      !((s.sq q).shadow.any fun r => r.isRead && decide (r.lun = e.2.2.1 / 2 ^ 16))

end Sys2Proof.Machine
end

