-- ==== Sys2Proof/Machine/Flash.lean ====
section
/-! DEFINITION. The flash side's commands: sequencer registers, training, requests, dies, microwords, Loupe slots, Assay and
the parity engine (R281 to R306, R317 to R354, R370 to R374). -/

namespace Sys2Proof.Machine

open Sys2Proof

/-! ### Bring-up and training (R281 to R283) -/

/-- PSQ_BRING_UP (R281): a write that sets `PSQ_CTL.EN`. -/
def execPsqBringUp (who : Endpoint) (q : SeqId) (s : State) : Out :=
  .next (s.writeBy who.toNat (rPSQ_CTL q) (setBits (s.reg (rPSQ_CTL q)) 0 1 1))

/-- PSQ_APPLY_RATE (R281, R283, R310, R311): mode and rate with `APPLY`. -/
def execPsqApplyRate (who : Endpoint) (q : SeqId) (mode : BitVec 2) (mts : BitVec 12) (s : State) : Out :=
  .next (s.writeBy who.toNat (rPSQ_RATE q) (BitVec.ofNat 64 (mode.toNat + mts.toNat * 2 ^ 8 + 2 ^ 20)))

/-- PSQ_TRAIN_FULL (R283). -/
def execPsqTrainFull (who : Endpoint) (q : SeqId) (s : State) : Out := .next (s.writeBy who.toNat (rPSQ_TRAIN q) 1#64)
/-- PSQ_RETRIM (R282). -/
def execPsqRetrim (who : Endpoint) (q : SeqId) (s : State) : Out := .next (s.writeBy who.toNat (rPSQ_TRAIN q) 2#64)
/-- RETRIM_PERIODIC (R282): every 1 s. -/
def execRetrimPeriodic (q : SeqId) (s : State) : Out := .next (s.startRetrim q)
/-- RETRIM_TEMPERATURE (R282): after a change of 10 °C. -/
def execRetrimTemperature (q : SeqId) (s : State) : Out := .next (s.startRetrim q)

/-- TRAINING_DONE (R281 to R283, R305, R306, R380): the CEs that passed; LUNs that come or go are noted. -/
def execTrainingDone (q : SeqId) (good : Bool) (ceok : BitVec 4) (luns : BitVec 16) (s : State) : Out :=
  .next (
    let chan := s.fld (fPSQ_CTL_CHAN q)
    let s := s.disarmFlash fun e => decide (e.1 = chan) && decide (e.2.1 = 0x12)
    (List.range 16).foldl (fun (t : State) l => t.noteOffline q l) (s.trainingDone q good ceok.toNat luns.toNat))

/-! ### Requests (R292 to R300) -/

/-- PSQ_READ (R293, R297, R300, R342, R351): `lookup` is what the memory of Assay's applied table yields. -/
def execPsqRead (q : SeqId) (lookup : Ecc) (s : State) : Out := .next (s.psqTake q (· == 1) lookup)
/-- PSQ_PROG (R293, R298). -/
def execPsqProg (q : SeqId) (s : State) : Out := .next (s.psqTake q (· == 2))
/-- PSQ_ERASE (R293, R299). -/
def execPsqErase (q : SeqId) (s : State) : Out := .next (s.psqTake q (· == 3))
/-- PSQ_FEATS (R293). -/
def execPsqFeats (q : SeqId) (s : State) : Out := .next (s.psqTake q (· == 4))
/-- PSQ_FEATG (R293). -/
def execPsqFeatg (q : SeqId) (s : State) : Out := .next (s.psqTake q (· == 5))
/-- PSQ_STATUS (R293). -/
def execPsqStatus (q : SeqId) (s : State) : Out := .next (s.psqTake q (· == 6))
/-- PSQ_RESET_LUN (R293). -/
def execPsqResetLun (q : SeqId) (s : State) : Out := .next (s.psqTake q (· == 7))
/-- PSQ_PARAM (R293). -/
def execPsqParam (q : SeqId) (s : State) : Out := .next (s.psqTake q (· == 8))
/-- PSQ_CUSTOMER (R289, R293): operations 0x20 to 0x2F. -/
def execPsqCustomer (q : SeqId) (s : State) : Out := .next (s.psqTake q fun op => 0x20 ≤ op && op ≤ 0x2F)

/-! ### Dies and sequencers (R293, R295, R302 to R306) -/

/-- The blocks whose program or erase a die reports as failed. -/
def State.failedBlocks (s : State) (q l : Nat) (errors : List BeadError) : List Nat :=
  let rs := s.runningOn q l
  (rs.filter fun r => (r.op == 2 && rs.all fun x => s.badBeads x errors == 0) || r.op == 3).map fun r => blockOf r.ppa

/-- What a program or erase of the LUN does to the flash, where its status is then reported as FAIL (R441, kind 0x15). -/
def State.performed (s : State) (q l : Nat) : State :=
  (s.runningOn q l).foldl (fun (t : State) r =>
    if r.op = 2 then t.withFw { t.fw with
      flash := r.programUnits.foldl (fun (f : Tab (List Word)) u => tput f u.1 (t.mem.readUnit u.2)) t.fw.flash }
    else if r.op = 3 then t.withFw { t.fw with flash := t.fw.flash.filter fun u => blockOf u.1 != blockOf r.ppa }
    else t) s

/-- DIE_OPERATION_COMPLETE (R243, R295 to R300, R307): the running requests of the LUN end; a block that fails its program or
erase is retired at once. An injected timeout suppresses the event, an injected failure is reported after the operation is
performed (R441). -/
def execDieOperationComplete (q : SeqId) (lun : BitVec 4) (busyNs : BitVec 32) (pass : Bool) (data : List Byte)
    (errors : List BeadError) (s : State) : Out :=
  .next (
    let chan := s.fld (fPSQ_CTL_CHAN q)
    if s.armedPars chan 0x14 lun.toNat ≠ [] then s
    else
      let forced := s.armedPars chan 0x15 lun.toNat != [] && (s.runningOn q lun.toNat).any fun r => r.op == 2 || r.op == 3
      let ok := pass && !forced
      let l := if ok then [] else s.failedBlocks q lun.toNat errors
      let s := if forced && pass then s.performed q lun.toNat else s
      let s := if forced then s.disarmFlash fun e => decide (e.1 = chan) && decide (e.2.1 = 0x15) &&
          decide (e.2.2.1 / 2 ^ 16 = lun.toNat) else s
      s.blaming forced fun s =>
        let s := s.dieDone q lun.toNat busyNs.toNat ok data errors
        l.foldl (fun (t : State) b => t.retire b) s)

/-- PLANE_HOLD_TIMEOUT (R293). -/
def execPlaneHoldTimeout (q : SeqId) (lun : BitVec 4) (s : State) : Out := .next (s.planeHoldOver q lun.toNat)

/-- DIE_TIMEOUT (R302): `resetOk` says whether Reset LUN ends in time. -/
def execDieTimeout (q : SeqId) (lun : BitVec 4) (resetOk : Bool) (s : State) : Out :=
  .next (
    let chan := s.fld (fPSQ_CTL_CHAN q)
    let forced := s.armedPars chan 0x14 lun.toNat != []
    let s := s.disarmFlash fun e => decide (e.1 = chan) && decide (e.2.1 = 0x14) && decide (e.2.2.1 / 2 ^ 16 = lun.toNat)
    s.blaming forced fun s => (s.dieTimedOut q lun.toNat resetOk).noteOffline q lun.toNat)

/-- SEQUENCER_FAILURE (R177, R303, R304, R306). -/
def execSequencerFailure (q : SeqId) (s : State) : Out := .next (s.seqFail q false)

/-- SPARE_LOAD_DONE (R290, R304, R305). -/
def execSpareLoadDone (q : SeqId) (good : Bool) (s : State) : Out := .next (s.spareLoaded q good)

/-! ### Microwords (R285 to R289): `seen` is whether an outside condition holds, `expired` whether a `WAIT`'s timer expires
first, `status` the status byte that a status read returns. -/

/-- MICRO_NEXT (R285, R287). -/
def execMicroNext (q : SeqId) (seen expired : Bool) (status : BitVec 8) (s : State) : Out :=
  .next (s.microStep q 0 seen expired status.toNat)
/-- MICRO_BR (R285, R286). -/
def execMicroBr (q : SeqId) (seen expired : Bool) (status : BitVec 8) (s : State) : Out :=
  .next (s.microStep q 1 seen expired status.toNat)
/-- MICRO_WAIT (R285, R286). -/
def execMicroWait (q : SeqId) (seen expired : Bool) (status : BitVec 8) (s : State) : Out :=
  .next (s.microStep q 2 seen expired status.toNat)
/-- MICRO_LOOP (R285). -/
def execMicroLoop (q : SeqId) (seen expired : Bool) (status : BitVec 8) (s : State) : Out :=
  .next (s.microStep q 3 seen expired status.toNat)
/-- MICRO_FAR (R285, R288). -/
def execMicroFar (q : SeqId) (seen expired : Bool) (status : BitVec 8) (s : State) : Out :=
  .next (s.microStep q 4 seen expired status.toNat)
/-- MICRO_CALL (R285, R288). -/
def execMicroCall (q : SeqId) (seen expired : Bool) (status : BitVec 8) (s : State) : Out :=
  .next (s.microStep q 5 seen expired status.toNat)
/-- MICRO_RET (R285, R288). -/
def execMicroRet (q : SeqId) (seen expired : Bool) (status : BitVec 8) (s : State) : Out :=
  .next (s.microStep q 6 seen expired status.toNat)
/-- MICRO_END (R285). -/
def execMicroEnd (q : SeqId) (seen expired : Bool) (status : BitVec 8) (s : State) : Out :=
  .next (s.microStep q 7 seen expired status.toNat)

/-! ### Loupe (R317 to R334) -/

/-- SLOT_CAPTURE (R317 to R320): the captured bytes of one sense of a slot. -/
def execSlotCapture (chan : ChanId) (bytes : List Byte) (s : State) : Out :=
  .next (
    let r := s.faultyCapture chan bytes
    r.1.slotCapture chan r.2)

/-- SLOT_DECODE_DONE (R318, R319, R325 to R330, R334): `full` says that Assay's input has no room (R346; log entry 52). -/
def execSlotDecodeDone (chan : ChanId) (full : Bool) (s : State) : Out :=
  .next ((s.slotDecodeDone chan full).slotFaultsEnd chan)

/-! ### Assay (R341 to R354) -/

/-- ASY_RECORD (R344 to R346, R351, R353): `ecc` is what the table read yields. -/
def execAsyRecord (ecc : Ecc) (s : State) : Out := .next (s.asyNext ecc)
/-- ASY_LOAD (R348): a write of `LOAD`. -/
def execAsyLoad (who : Endpoint) (s : State) : Out :=
  .next (s.writeBy who.toNat rASY_CTL (setBits (setBits (s.reg rASY_CTL) 1 3 0) 1 1 1))
/-- ASY_LOAD_DONE (R348, R351). -/
def execAsyLoadDone (s : State) : Out := .next s.asyLoadDone
/-- ASY_SNAP (R349): a write of `SNAP`. -/
def execAsySnap (who : Endpoint) (s : State) : Out :=
  .next (s.writeBy who.toNat rASY_CTL (setBits (setBits (s.reg rASY_CTL) 1 3 0) 2 1 1))
/-- ASY_SNAP_DONE (R349). -/
def execAsySnapDone (s : State) : Out := .next s.asySnapDone
/-- ASY_ACQ (R350): a write of `ACQ`. -/
def execAsyAcq (who : Endpoint) (s : State) : Out :=
  .next (s.writeBy who.toNat rASY_CTL (setBits (setBits (s.reg rASY_CTL) 1 3 0) 3 1 1))
/-- ASY_FREEZE (R352): entry command 1. -/
def execAsyFreeze (who : Endpoint) (allg : Bool) (s : State) : Out :=
  .next (s.writeBy who.toNat rASY_ECMD (BitVec.ofNat 64 (1 + 8 * b2n allg)))
/-- ASY_THAW (R352): entry command 2. -/
def execAsyThaw (who : Endpoint) (allg : Bool) (s : State) : Out :=
  .next (s.writeBy who.toNat rASY_ECMD (BitVec.ofNat 64 (2 + 8 * b2n allg)))
/-- ASY_RESEED (R352): entry command 3. -/
def execAsyReseed (who : Endpoint) (allg : Bool) (s : State) : Out :=
  .next (s.writeBy who.toNat rASY_ECMD (BitVec.ofNat 64 (3 + 8 * b2n allg)))

/-! ### The parity engine (R370 to R374): `errors` are those that the code finds in the members' beads. -/

/-- PAR_ENC (R370, R373): P and Q of the data beads. -/
def execParEnc (errors : List BeadError) (s : State) : Out := .next (s.parTake 1 errors)
/-- PAR_REC1 (R371, R373): one position is rebuilt. -/
def execParRec1 (errors : List BeadError) (s : State) : Out := .next (s.parTake 2 errors)
/-- PAR_REC2 (R371, R373): two positions are rebuilt. -/
def execParRec2 (errors : List BeadError) (s : State) : Out := .next (s.parTake 3 errors)
/-- PAR_CHECK (R373, R374): mismatches are counted and located. -/
def execParCheck (errors : List BeadError) (s : State) : Out := .next (s.parTake 4 errors)
/-- PAR_JOB_DONE (R374): the oldest job is answered. -/
def execParJobDone (s : State) : Out := .next s.parDone

end Sys2Proof.Machine
end

