-- ==== Sys2Proof/WellFormed.lean ====
section
/-! DEFINITION. When a command's operands spell an event of its row. The types of the operands carry the widths; what is left
is checked here. A command that fails the check spells no event of the device. -/

namespace Sys2Proof

/-- A pulled unit: 512 doubles of data and up to 8 of host metadata (R139, R312). -/
def PulledUnit.wf (u : PulledUnit) : Bool := u.data.length == 512 && u.hostMeta.length ≤ 8

/-- A package names a security version of each kind 1 to 7 and the measurements of indexes 2 to 7 (R487, R490). -/
def Package.wf (p : Package) : Bool := p.secVer.length == 7 && p.measures.length == 6

/-- The failed cores and sequencers of a start are each named once (R25, R493). -/
def BootReport.wf (r : BootReport) : Bool :=
  decide r.failedCores.Nodup && decide r.seqFailed.Nodup && decide r.unreadable.Nodup

/-- A method of an Opal session names a locking range of R455 where it names one. -/
def OpalMethod.wf : OpalMethod → Bool
  | .setLocks r _ _ => r.toNat < 320
  | .setEnables r _ _ _ => r.toNat < 320
  | .setRange r _ _ _ => r.toNat < 320
  | .setUsers r _ => r.toNat < 320
  | .genKey r => r.toNat < 320
  | _ => true

/-- A width of R121. -/
def linkWidth (w : Nat) : Bool := w == 1 || w == 2 || w == 4 || w == 8 || w == 16

/-- A state of the link that R121 allows: down, or a rate and width of the table, FLIT mode always at 64.0 GT/s, and an L0p
width, in FLIT mode, below the trained one (R121, R147). -/
def linkOk (rate width : Nat) (flit : Bool) (l0pw : Nat) : Bool :=
  rate ≤ 6 && (width == 0 || linkWidth width) && (rate == 0 || width != 0) && (rate != 6 || flit) &&
    (l0pw == 0 || (linkWidth l0pw && l0pw ≤ width && (flit || l0pw == width)))

/-- The operands of a command spell an event of its row. -/
def Instr.wf : Instr → Bool
  | .illegalOpcode _ _ w => (illegalDetail w).isSome
  | .powerOnResetEnd r => r.wf
  | .perstNRelease r => r.wf
  | .nvmSubsystemReset r => r.wf
  | .romReset _ r => r.wf
  | .wakeCrystalStable _ r => r.wf
  | .wakeAttemptFail _ r => r.wf
  | .writeDataPullDone _ us => us.all PulledUnit.wf
  | .readData _ _ _ es => es.length ≤ 8
  | .firmwareCommitReplace _ p _ => p.all Package.wf
  | .firmwareCommitReplaceNext _ p _ => p.all Package.wf
  | .romEnd _ p => p.all Package.wf
  | .wakeManagementBus bs => bs.length ≤ 64
  | .linkStateChange rate width flit l0pw _ => linkOk rate.toNat width.toNat flit l0pw.toNat
  | .eventLaneToggle c _ _ => Machine.controlClasp c
  | .opalMethod m => m.wf
  | _ => true

end Sys2Proof
end

