-- ==== Sys2Proof/Machine/HqeQueue.lean ====
section
/-! DEFINITION. Queues of the host queue engine: doorbells, fetching, arrival and dispatch, queue commands, controller
enable and resets, host read errors, configuration requests and the link (R121 to R138, R142, R147, R163 to R166). -/

namespace Sys2Proof.Machine

open Sys2Proof

/-! ### Doorbells (R132) -/

/-- The device has queues: `CC.EN` = 1 and the admin queues are set up. -/
def State.hasQueues (s : State) : Bool := s.hqe.cc % 2 == 1 && (tget s.hqe.sqs 0).isSome

/-- An invalid doorbell write: counted, with a notice to the admin endpoint, whose firmware raises the NVMe error event: type 0,
information 0 for an invalid register and 1 for an invalid value, log page 0x01 (R132; log entry 18). -/
def State.badDoorbell (s : State) (code y : Nat) : State :=
  ((s.incSat fHQE_PERR_DOORBELL).hqeNotice code y).asyncEvent 0 (code - 1) 1

/-- SQ_TAIL_DOORBELL (R132): the last value counts. -/
def execSqTailDoorbell (y : BitVec 16) (value : BitVec 32) (s : State) : Out :=
  .next (
    if !s.hasQueues then s
    else match tget s.hqe.sqs y.toNat with
      | none => s.badDoorbell 1 y.toNat
      | some q =>
        if q.entries ≤ value.toNat then s.badDoorbell 2 y.toNat
        else { s with hqe := { s.hqe with sqs := tput s.hqe.sqs y.toNat { q with tail := value.toNat } } })

/-- CQ_HEAD_DOORBELL (R132, R142): a head that releases entries not yet posted is invalid; room lets completions be posted. -/
def execCqHeadDoorbell (y : BitVec 16) (value : BitVec 32) (s : State) : Out :=
  .next (
    if !s.hasQueues then s
    else match tget s.hqe.cqs y.toNat with
      | none => s.badDoorbell 1 y.toNat
      | some q =>
        let n := q.entries
        if n ≤ value.toNat ∨ (q.tail + n - q.head) % n < (value.toNat + n - q.head) % n then s.badDoorbell 2 y.toNat
        else
          State.shutdownStep <| State.postWaiting
            { s with hqe := { s.hqe with cqs := tput s.hqe.cqs y.toNat { q with head := value.toNat } } })

/-! ### Fetching (R133) -/

/-- New entries of a queue. -/
def SubQueue.fresh (q : SubQueue) : Nat := (q.tail + q.entries - q.head) % q.entries

/-- Host reads outstanding: those of fetching, two where the entries wrap, and at least one for each unit or list that is being
pulled (R121, R133). -/
def State.nonPosted (s : State) : Nat :=
  sumOf (fun (f : Nat × Nat × Nat) =>
      match tget s.hqe.sqs f.1 with | some q => if q.entries < f.2.1 + f.2.2 then 2 else 1 | none => 1) s.hqe.fetching +
    sumOf (fun (e : Nat × Slot) => sumOf (fun (g : PullGroup) => g.beads.length) e.2.pulls + b2n e.2.listPending) s.hqe.slots

/-- The largest number of non-posted requests outstanding (R121). -/
def State.nonPostedLimit (s : State) : Nat :=
  if 14 ≤ s.hqe.link.tags && s.flag fHQE_LINK_FLIT then 4096 else if 10 ≤ s.hqe.link.tags then 768 else 256

/-- Fetching goes on: enabled, no drain, no shutdown, not asleep, the link up, a slot free and a request left for two reads (R43,
R114, R121, R133, R166 to R168). -/
def State.mayFetch (s : State) : Bool :=
  s.flag fHQE_CTL_FETCH && s.hostLink && decide (s.nonPosted + 2 ≤ s.nonPostedLimit) && !s.hqe.drained && !s.hqe.shutdown && s.hasQueues && s.mode != 8 && s.mode != 9 &&
    decide (s.hqe.slots.length + sumOf (fun (f : Nat × Nat × Nat) => f.2.2) s.hqe.fetching < s.fld fHQE_SLOT_LIMIT)

/-- The I/O queues of a priority class that hold new entries, by number. -/
def State.withEntries (s : State) (p : SubQueue → Bool) : List Nat :=
  (s.hqe.sqs.filter fun (e : Nat × SubQueue) =>
    decide (e.1 ≠ 0) && !e.2.deleting && decide (0 < e.2.fresh) && p e.2).map (·.1)

/-- The next of some queues in the round: the first at or after the turn, else the first. -/
def nextIn (turn : Nat) (l : List Nat) : Option Nat :=
  match l.find? fun q => decide (turn ≤ q) with
  | some q => some q
  | none => l.head?

/-- Weighted round robin was selected in `CC.AMS` when the controller was enabled (R133, R136). -/
def State.weighted (s : State) : Bool := s.hqe.ams == 1

/-- The Arbitration feature: burst and weights (R127, R133). -/
def State.arbitration (s : State) : Nat := tgetD s.hqe.features 0x01 0
def State.burst (s : State) : Nat :=
  let b := s.arbitration % 8
  if b = 7 then 8 else min 8 (2 ^ b)
def State.weights (s : State) : Nat × Nat × Nat :=
  let a := s.arbitration
  (a / 2 ^ 24 % 256 + 1, a / 2 ^ 16 % 256 + 1, a / 2 ^ 8 % 256 + 1)

/-- The weighted classes in turn: the queue served, and the credits left (R133; log entry 60). -/
def pickWeighted (turn : Nat) (h m l : List Nat) (c : Nat × Nat × Nat) : Option (Nat × Nat) :=
  if 0 < c.1 ∧ h ≠ [] then (nextIn turn h).map (·, 1)
  else if 0 < c.2.1 ∧ m ≠ [] then (nextIn turn m).map (·, 2)
  else if 0 < c.2.2 ∧ l ≠ [] then (nextIn turn l).map (·, 3)
  else none

/-- The I/O queue that the next turn serves, with its class for the credits; none in a mode that serves no I/O (R43). -/
def State.pickIo (s : State) : Option (Nat × Nat) :=
  let turn := s.hqe.nextSq
  if !s.servesIo then none
  else if s.weighted then
    match nextIn turn (s.withEntries fun q => decide (q.prio = 0)) with
    | some q => some (q, 0)
    | none =>
      let h := s.withEntries fun q => decide (q.prio = 1)
      let m := s.withEntries fun q => decide (q.prio = 2)
      let l := s.withEntries fun q => decide (q.prio = 3)
      match pickWeighted turn h m l s.hqe.credit with
      | some r => some r
      | none => (pickWeighted turn h m l s.weights).map fun r => (r.1, r.2 + 4)
  else (nextIn turn (s.withEntries fun _ => true)).map (·, 0)

/-- The credits after a turn of `n` entries for a class code; 4 and above start a new round. -/
def State.creditsAfter (s : State) (cls n : Nat) : Nat × Nat × Nat :=
  let c := if 4 ≤ cls then s.weights else s.hqe.credit
  let k := cls % 4
  if k = 1 then (c.1 - n, c.2.1, c.2.2) else if k = 2 then (c.1, c.2.1 - n, c.2.2)
  else if k = 3 then (c.1, c.2.1, c.2.2 - n) else c

/-- One turn of a queue: up to the burst, with one read of host memory, or two where the entries wrap (R133). -/
def State.fetchFrom (s : State) (sq cls : Nat) (q : SubQueue) : State :=
  let room := s.fld fHQE_SLOT_LIMIT - s.hqe.slots.length - sumOf (fun (f : Nat × Nat × Nat) => f.2.2) s.hqe.fetching
  let n := min (min s.burst q.fresh) room
  let reads := if q.head + n ≤ q.entries then 1 else 2
  let q' := { q with head := (q.head + n) % q.entries }
  { s with hqe := { s.hqe with
    sqs := tput s.hqe.sqs sq q'
    fetching := s.hqe.fetching ++ [(sq, q.head, n)]
    nextSq := if sq = 0 then s.hqe.nextSq else sq + 1
    credit := s.creditsAfter cls n
    hostOut := s.hqe.hostOut ++ [HostEvent.fetch sq q.head n reads] } }

/-- FETCH_TURN (R133): the admin SQ first; then by class and weight, or round robin. -/
def execFetchTurn (s : State) : Out :=
  .next (
    if !s.mayFetch then s
    else
      let adminOne := match tget s.hqe.sqs 0 with
        | some q => if 0 < q.fresh then some q else none
        | none => none
      match adminOne with
      | some q => s.fetchFrom 0 0 q
      | none =>
        match s.pickIo with
        | some (sq, cls) =>
          match tget s.hqe.sqs sq with
          | some q => s.fetchFrom sq cls q
          | none => s
        | none => s)

/-! ### Arrival (R134 to R138) -/

/-- One entry of the oldest fetch read of a queue has arrived. -/
def takeFetched (sq : Nat) : List (Nat × Nat × Nat) → Option (List (Nat × Nat × Nat))
  | [] => none
  | (q, first, n) :: t =>
    if q = sq then some (if n ≤ 1 then t else (q, first + 1, n - 1) :: t)
    else (takeFetched sq t).map ((q, first, n) :: ·)

/-- An injector discards the completion of a host memory read: it never arrives, and the read waits for its timeout (R123). -/
def State.completionDropped (s : State) : Option State :=
  if s.hqe.link.dropNext = 0 then none
  else some { s with hqe := { s.hqe with link := { s.hqe.link with dropNext := s.hqe.link.dropNext - 1 } } }

/-- A failing command is completed by the engine (R134, R137). -/
def State.parseFails (s : State) (k st : Nat) : State :=
  match s.slot k with
  | none => s
  | some e =>
    let s := s.incSat fHQE_PERR_PARSE
    let s := s.setSlot k { e with kind := .none, listPending := false, held := false, completion := some ⟨st, 0, 0, false⟩ }
    (s.post k).shutdownStep

/-- SQ_ENTRY_ARRIVAL (R134 to R138): a slot is taken, the entry checked, entered in the hazard table and dispatched; a
Dataset Management command waits for its list, and later commands of its queue behind it. -/
def execSqEntryArrival (sq : BitVec 16) (cmd : NvmeCmd) (s : State) : Out :=
  .next (
    match takeFetched sq.toNat s.hqe.fetching, s.freeSlotNo with
    | some l, some k =>
     match s.completionDropped with
     | some t => t
     | none =>
      let bad := s.parse sq.toNat cmd
      let e := s.newSlot sq.toNat cmd
      let s := { s with hqe := { s.hqe with fetching := l, fetched := s.hqe.fetched + 1, nextOrder := s.hqe.nextOrder + 1 } }
      let s := s.setSlot k e
      let s := match bad with
        | some st =>
          (if st = stat 0 0x04 then s.incSat fHQE_PERR_HOSTDMA else s).parseFails k st
        | none => if e.admin then s.dispatchSlot k else s.enterReady sq.toNat
      s.slotCounts
    | _, _ => s)

/-- The doubles of a range list. -/
def rangeWords (l : List DsmRange) : List Word :=
  l.flatMap fun r => [BitVec.ofNat 64 (r.attrs.toNat + r.nlb.toNat * 2 ^ 32), r.slba]

/-- DSM_RANGE_LIST_ARRIVAL (R138): the list arrives in a bead of class `ACLASS`; the hazard entry is made of the entries with
a length, and later commands of the queue follow. While the class cannot supply a bead the command waits. -/
def execDsmRangeListArrival (slot : SlotId) (ranges : List DsmRange) (err : Bool) (s : State) : Out :=
  .next (
    let k := slot.toNat
    match s.slot k with
    | none => s
    | some e =>
      if !e.listPending then s
      else if err then
        let s := (s.incSat fHQE_PERR_HOSTDMA).parseFails k (stat 0 0x04)
        (s.enterReady e.sq).slotCounts
      else match s.completionDropped with
      | some t => t
      | none =>
       match s.decideBeads (s.fld fHQE_GRANT_ACLASS) 1 with
        | .grant =>
          let r := s.takeBead (s.fld fHQE_GRANT_ACLASS) 113
          let s := r.1.poolRefresh
          let b := r.2
          let list := ranges.take (e.cmd.dw10.toNat % 256 + 1)
          let s := s.withMem (s.mem.writeDoubles (beadAddr b) (rangeWords list))
          let live := list.filter fun d => d.nlb != 0#32
          let div := if s.fmtOf e.cmd = 5 then 8 else 1
          let lo := live.foldl (fun m d => min m (d.slba.toNat / div)) (2 ^ 64)
          let hi := live.foldl (fun m d => max m ((d.slba.toNat + d.nlb.toNat - 1) / div)) 0
          let e := { e with
            listPending := false
            listBead := some b
            kind := if live.isEmpty then .none else e.kind
            firstUnit := if live.isEmpty then 0 else lo
            lastUnit := if live.isEmpty then 0 else hi }
          let s := s.setSlot k e
          let s := if live.isEmpty then s.dispatchSlot k else s
          (s.enterReady e.sq).slotCounts
        | _ => s)

/-- HQE_DISP_WRITE (R135, R148): a table entry is written; commands that wait for it are dispatched. -/
def execHqeDispWrite (who : Endpoint) (entry : BitVec 8) (value : Word) (s : State) : Out :=
  .next (s.ctlStore who.toNat (rHQE_DISP entry.toNat) value)

/-! ### Queue commands (R131, R164) -/

/-- The queue command of a slot: what it carries, if the slot holds one that is not yet carried out. -/
def State.queueCmd (s : State) (k op : Nat) : Option Slot :=
  match s.slot k with
  | some e =>
    if e.admin && decide (cmdOp e.cmd = op) && e.completion.isNone && e.dispatched then some e else none
  | none => none

/-- The engine completes a queue command; one that succeeded sends its notice with the entry (R131, R136, R144). -/
def State.queueDone (s : State) (k st : Nat) (notice : Option (Nat × Nat)) : State :=
  match s.slot k with
  | none => s
  | some e => (s.setSlot k { e with completion := some ⟨st, 0, 0, false⟩, notice := notice }).post k

/-- CREATE_IO_CQ (R131, R169, R475). -/
def execCreateIoCq (slot : SlotId) (s : State) : Out :=
  .next (
    let k := slot.toNat
    match s.queueCmd k 0x05 with
    | none => s
    | some e =>
     match s.sanGate with
     | some st => s.queueDone k st none
     | none =>
      let qid := e.cmd.dw10.toNat % 65536
      let size := e.cmd.dw10.toNat / 65536
      let iv := e.cmd.dw11.toNat / 65536
      if qid = 0 ∨ (tget s.hqe.cqs qid).isSome = true then s.queueDone k (stat 1 0x01) none
      else if size = 0 then s.queueDone k (stat 1 0x02) none
      else if 2048 ≤ iv then s.queueDone k (stat 1 0x08) none
      else if e.cmd.dw11.getLsbD 0 = false then s.queueDone k (stat 0 0x02) none
      else
        let q : ComQueue := ⟨size + 1, 0, 0, iv, e.cmd.dw11.getLsbD 1, true⟩
        State.queueDone { s with hqe := { s.hqe with cqs := tput s.hqe.cqs qid q } } k 0 (some (3, qid)))

/-- CREATE_IO_SQ (R131, R169, R475). -/
def execCreateIoSq (slot : SlotId) (s : State) : Out :=
  .next (
    let k := slot.toNat
    match s.queueCmd k 0x01 with
    | none => s
    | some e =>
     match s.sanGate with
     | some st => s.queueDone k st none
     | none =>
      let qid := e.cmd.dw10.toNat % 65536
      let size := e.cmd.dw10.toNat / 65536
      let cqid := e.cmd.dw11.toNat / 65536
      if qid = 0 ∨ (tget s.hqe.sqs qid).isSome = true then s.queueDone k (stat 1 0x01) none
      else if size = 0 then s.queueDone k (stat 1 0x02) none
      else if cqid = 0 then s.queueDone k (stat 1 0x01) none
      else if (tget s.hqe.cqs cqid).isNone = true then s.queueDone k (stat 1 0x00) none
      else if e.cmd.dw11.getLsbD 0 = false then s.queueDone k (stat 0 0x02) none
      else
        let q : SubQueue := ⟨size + 1, 0, 0, cqid, e.cmd.dw11.toNat / 2 % 4, false, none⟩
        State.queueDone { s with hqe := { s.hqe with sqs := tput s.hqe.sqs qid q } } k 0 (some (3, qid)))

/-- DELETE_IO_CQ (R131, R142, R169, R475): refused while an SQ uses the CQ. -/
def execDeleteIoCq (slot : SlotId) (s : State) : Out :=
  .next (
    let k := slot.toNat
    match s.queueCmd k 0x04 with
    | none => s
    | some e =>
     match s.sanGate with
     | some st => s.queueDone k st none
     | none =>
      let qid := e.cmd.dw10.toNat % 65536
      if qid = 0 ∨ (tget s.hqe.cqs qid).isNone = true then s.queueDone k (stat 1 0x01) none
      else if s.hqe.sqs.any fun (q : Nat × SubQueue) => decide (q.2.cq = qid) then s.queueDone k (stat 1 0x0C) none
      else State.queueDone { s with hqe := { s.hqe with cqs := tdel s.hqe.cqs qid } } k 0 (some (4, qid)))

/-- The dispatch endpoint and mailbox of a slot: where it went, or its table entry (R164). -/
def State.cancelTo (s : State) (e : Slot) : Nat × Nat :=
  if e.dispatched then (e.ep, e.mbx)
  else (s.fld (fHQE_DISP_EP (s.dispIndex e)), s.fld (fHQE_DISP_MBX (s.dispIndex e)))

/-- Delete I/O SQ ends once every slot of the queue is free (R164). -/
def State.sqDeleted (s : State) (k qid : Nat) : State :=
  if s.hqe.slots.any fun (x : Nat × Slot) => decide (x.2.sq = qid) then s
  else State.queueDone { s with hqe := { s.hqe with sqs := tdel s.hqe.sqs qid } } k 0 (some (4, qid))

/-- Cancelled commands start no further portion: one that loses a portion ends with 0/0x08 as soon as nothing of it is on its way
(R164). -/
def State.cancelPortions (s : State) (orders : List Nat) : State :=
  let t := s.dropWaiting fun o => orders.contains o
  let cut := orders.filter fun o => decide (t.waitingOf o < s.waitingOf o)
  let t := cut.foldl (fun (t : State) o => t.orderEnds o (stat 0 0x08)) t
  (cut.foldl (fun (t : State) o => t.slotDone o) t).postWaiting

/-- DELETE_IO_SQ (R131, R164, R169, R475): no more is fetched, a cancel goes out for each slot, held commands are not dispatched. -/
def execDeleteIoSq (slot : SlotId) (s : State) : Out :=
  .next (
    let k := slot.toNat
    match s.queueCmd k 0x00 with
    | none => s
    | some e =>
     match s.sanGate with
     | some st => s.queueDone k st none
     | none =>
      let qid := e.cmd.dw10.toNat % 65536
      match tget s.hqe.sqs qid with
      | none => s.queueDone k (stat 1 0x01) none
      | some q =>
        if qid = 0 then s.queueDone k (stat 1 0x01) none
        else if q.deleting then s
        else
          let s := { s with hqe := { s.hqe with
            sqs := tput s.hqe.sqs qid { q with deleting := true, deleteSlot := some k, tail := q.head }
            fetching := s.hqe.fetching.filter fun (f : Nat × Nat × Nat) => decide (f.1 ≠ qid) } }
          let mine := sortSlots (s.hqe.slots.filter fun (x : Nat × Slot) => decide (x.2.sq = qid))
          let s := mine.foldl (fun (t : State) x =>
            let to_ := t.cancelTo x.2
            let v := if x.2.dispatched then x.2.verdict else t.verdictOf x.2
            (t.setSlot x.1 { x.2 with
              cancelled := true, held := false, dispatched := true, ep := to_.1, mbx := to_.2, verdict := v }).hwSend
              113 to_.1 to_.2 0x103 (payloadOf [(0, 2, x.1)])) s
          ((s.cancelPortions (mine.map fun x => x.2.order)).sqDeleted k qid).slotCounts)

/-- DELETE_IO_SQ_DONE (R164). -/
def execDeleteIoSqDone (slot : SlotId) (s : State) : Out :=
  .next (
    match s.hqe.sqs.find? fun (q : Nat × SubQueue) => q.2.deleting && decide (q.2.deleteSlot = some slot.toNat) with
    | some (qid, _) => s.sqDeleted slot.toNat qid
    | none => s)

/-! ### Enabling, shutdown and resets (R132, R136, R165, R166) -/

/-- The admin queues that `AQA` describes: 2 to 4,096 entries each; a size outside sets up none (R131; log entry 152). -/
def State.setUpAdmin (s : State) (aqa : Nat) : State :=
  let n := aqa % 4096
  let m := aqa / 2 ^ 16 % 4096
  if n = 0 ∨ m = 0 then s
  else { s with hqe := { s.hqe with
    sqs := tput s.hqe.sqs 0 ⟨n + 1, 0, 0, 0, 0, false, none⟩
    cqs := tput s.hqe.cqs 0 ⟨m + 1, 0, 0, 0, true, true⟩ } }

/-- CC_WRITE (R136, R165, R166): a write that changes `EN`, or `SHN` from 00b, sends notice 0x06; any other has no effect on the
engine. Setting `EN` sets up the admin queues and selects the arbitration; clearing it is a controller reset; `SHN` stops
fetching. -/
def execCcWrite (value : BitVec 32) (aqa : BitVec 32) (s : State) : Out :=
  .next (
    let old := s.hqe.cc
    let new := value.toNat
    let was := old % 2 == 1
    let now := new % 2 == 1
    let shn := old / 2 ^ 14 % 4 == 0 && new / 2 ^ 14 % 4 != 0
    let s := { s with hqe := { s.hqe with cc := new, aqa := aqa.toNat } }
    if was && !now then
      let s := s.controllerReset.hostGone.hqeNotice 6 new
      { s with hqe := { s.hqe with cc := new } }
    else
      let s := if !was && now then
          State.setUpAdmin { s with hqe := { s.hqe with ams := new / 2 ^ 11 % 8 } } aqa.toNat
        else s
      let s := if (!was && now) || shn then s.hqeNotice 6 new else s
      if shn then
        let s := ({ s with hqe := { s.hqe with shutdown := true, shn := new / 2 ^ 14 % 4 } } : State)
        (s.setFld fHQE_CTL_SHST 1).shutdownStep
      else s)

/-- The function's configuration goes back to its reset values (R121). -/
def State.functionReset (s : State) : State := { s with hqe := { s.hqe with link := Link.reset } }

/-- CONTROLLER_RESET (R165): every slot ends with a discard, the I/O queues go, and the engine sends notice 0x06. -/
def execControllerReset (cause : ControllerResetCause) (s : State) : Out :=
  .next (
    let s := s.controllerReset.hostGone.hqeNotice 6 0
    match cause with
    | .enableCleared => s
    | .functionLevel => s.functionReset
    | .hotReset => s.functionReset.setReg rHQE_LINK (setBits (s.reg rHQE_LINK) 0 20 0)
    | .linkDisable => s.setReg rHQE_LINK (setBits (s.reg rHQE_LINK) 0 20 0))

/-! ### Host read errors (R123, R134, R138, R139) -/

/-- A read of host memory fails: on an SQ entry the controller fails fatally; a range list completes its command; a data pull
stops the transfer. -/
def State.hostReadFails (s : State) (target : HostRead) : State :=
  let s := s.incSat fHQE_PERR_HOSTDMA
  match target with
  | .fetch sq =>
    State.setCfs { s with hqe := { s.hqe with
      fetching := s.hqe.fetching.filter fun (f : Nat × Nat × Nat) => decide (f.1 ≠ sq.toNat) } }
  | .rangeList slot =>
    match s.slot slot.toNat with
    | some e =>
      if e.listPending then ((s.parseFails slot.toNat (stat 0 0x04)).enterReady e.sq).slotCounts else s
    | none => s
  | .data slot =>
    match s.slot slot.toNat with
    | some e =>
      match e.pulls with
      | g :: _ => s.groupEnds slot.toNat e g 0 (some (true, stat 0 0x04))
      | [] => s
    | none => s

/-- The read that an error names is outstanding. -/
def State.reading (s : State) (target : HostRead) : Bool :=
  match target with
  | .fetch sq => s.hqe.fetching.any fun (f : Nat × Nat × Nat) => decide (f.1 = sq.toNat)
  | .rangeList slot => ((s.slot slot.toNat).map (·.listPending)).getD false
  | .data slot => ((s.slot slot.toNat).map (!·.pulls.isEmpty)).getD false

/-- How the link logs a read that ends with an error (R123, R145). -/
def State.readErrorLog (s : State) (err : ReadError) : State :=
  match err with
  | .poisoned => s.aerLog (some aerPoisoned) (some aerAdvisory)
  | .unsupportedRequest => { s with hqe := { s.hqe with link := { s.hqe.link with masterAbort := true } } }
  | .completerAbort => { s with hqe := { s.hqe with link := { s.hqe.link with targetAbort := true } } }

/-- HOST_READ_ERROR (R123, R134, R139, R145). -/
def execHostReadError (target : HostRead) (error : ReadError) (s : State) : Out :=
  .next (if s.reading target then (s.readErrorLog error).hostReadFails target else s)

/-- COMPLETION_TIMEOUT (R121, R123): as an error of the read; not while the timeout is disabled. -/
def execCompletionTimeout (target : HostRead) (s : State) : Out :=
  .next (if s.reading target && !s.hqe.link.timeoutOff then (s.aerLog (some aerTimeout) none).hostReadFails target else s)

/-! ### Interrupts, configuration and the link (R124, R136, R142, R147) -/

/-- INTERRUPT_COALESCING_TIME (R142): the pending interrupt of the vector is sent. -/
def execInterruptCoalescingTime (vector : BitVec 11) (s : State) : Out :=
  .next (
    if (tget s.hqe.coalesced vector.toNat).isSome then
      State.msixSend { s with hqe := { s.hqe with coalesced := tdel s.hqe.coalesced vector.toNat } } vector.toNat
    else s)

/-- `CAP`, `VS`, `CC`, `CSTS` and `AQA` as BAR0 shows them, by dword (R125; layouts as NVMe defines them, log entry 18). -/
def State.nvmeReg (s : State) (off : Nat) : Nat :=
  let cap := 0xFFFF + 1 * 2 ^ 16 + 1 * 2 ^ 17 + 16 * 2 ^ 24 + 0 * 2 ^ 32 + 1 * 2 ^ 36 + 1 * 2 ^ 37 + 0 * 2 ^ 48 + 4 * 2 ^ 52
  if off = 0x00 then cap % 2 ^ 32
  else if off = 0x04 then cap / 2 ^ 32
  else if off = 0x08 then 0x00020000
  else if off = 0x14 then s.hqe.cc
  else if off = 0x1C then
    s.fld fHQE_CTL_RDY + 2 * b2n s.hqe.cfs + 4 * s.fld fHQE_CTL_SHST + 16 * b2n s.hqe.nssro + 32 * b2n s.hqe.pp
  else if off = 0x24 then s.hqe.aqa
  else 0

/-- A dword of BAR0, by byte offset: controller registers, the MSI-X table and the pending bits; doorbells and reserved ranges
read zero (R125). -/
def State.barRead (s : State) (off : Nat) : Nat :=
  if off < 0x1000 then s.nvmeReg off
  else if 0xC0000 ≤ off ∧ off < 0xC8000 then
    (tgetD s.hqe.link.msix ((off - 0xC0000) / 4) (if off / 4 % 4 = 3 then 1#32 else 0#32)).toNat
  else if 0xC8000 ≤ off ∧ off < 0xC8100 then
    sumOf (fun i => if sHas s.hqe.link.pending (8 * (off - 0xC8000) + i) then 2 ^ i else 0) (List.range 32)
  else 0

/-- Pending interrupts whose mask has gone are sent (R121, R125). -/
def State.msixFlush (s : State) : State :=
  s.hqe.link.pending.foldl (fun (t : State) e =>
    State.msixSend { t with hqe := { t.hqe with link := { t.hqe.link with pending := sDel t.hqe.link.pending e.1 } } } e.1) s

def State.hostAnswer (s : State) (e : HostEvent) : State := { s with hqe := { s.hqe with hostOut := s.hqe.hostOut ++ [e] } }

def State.setLink (s : State) (l : Link) : State := { s with hqe := { s.hqe with link := l } }

/-- What an access to the configuration space or to BAR0 does, once it is answered (R121, R124, R125). BAR0 answers in D0. -/
def State.hostAccess (s : State) (a : HostAccess) : State :=
  let l := s.hqe.link
  let lock := s.flag fHQE_PCID_LOCK
  match a with
  | .identity =>
    s.hostAnswer (HostEvent.configAnswer Config.vendorId.toNat s.part.device (s.fld fARC_ID1_STEP) 0x010802
      (if lock then s.fld fHQE_PCID_SSVID else 0) (if lock then s.fld fHQE_PCID_SSID else 0))
  | .deviceControl mps mrrs tags timeout off =>
    (s.setLink { l with
      mps := if mps.toNat ≤ 2 then mps.toNat else l.mps
      mrrs := if mrrs.toNat ≤ 5 then mrrs.toNat else l.mrrs
      tags := if tags.toNat = 8 ∨ tags.toNat = 10 ∨ tags.toNat = 14 then tags.toNat else l.tags
      timeout := timeout.toNat, timeoutOff := off }).hostAnswer .configDone
  | .powerState d => (s.setLink { l with power := if d.toNat = 0 ∨ d.toNat = 3 then d.toNat else l.power }).hostAnswer .configDone
  | .msixControl on mask => ((s.setLink { l with msixOn := on, msixMask := mask }).msixFlush).hostAnswer .configDone
  | .clearAer u c => (s.setLink { l with uncor := l.uncor &&& ~~~u, cor := l.cor &&& ~~~c }).hostAnswer .configDone
  | .readBar off =>
    let o := 4 * off.toNat
    if l.power ≠ 0 then s.hostAnswer (.barUnsupported o)
    else if 0 < l.refuseNext then
      ((s.setLink { l with refuseNext := l.refuseNext - 1 }).aerLog (some aerUnsupported) (some aerAdvisory)).hostAnswer
        (.barUnsupported o)
    else s.hostAnswer (.barAnswer o (s.barRead o))
  | .writeMsix v d x =>
    if l.power ≠ 0 then s
    else (s.setLink { l with msix := tput l.msix (4 * v.toNat + d.toNat) (if d.toNat = 3 then x &&& 1#32 else x) }).msixFlush

/-- A configuration request, which the retry status of R124 may answer. -/
def isConfigAccess : HostAccess → Bool
  | .readBar _ => false
  | .writeMsix _ _ _ => false
  | _ => true

/-- CONFIG_REQUEST (R121, R124, R125): retry status until `LOCK`, or until 1.0 s has passed without it. -/
def execConfigRequest (access : HostAccess) (s : State) : Out :=
  .next (
    if isConfigAccess access && !s.flag fHQE_PCID_LOCK && !s.hqe.pcidLapsed then s.hostAnswer .configRetry
    else s.hostAccess access)

/-- PCID_LOCK_TIMEOUT (R124). -/
def execPcidLockTimeout (s : State) : Out :=
  .next (if s.flag fHQE_PCID_LOCK then s else { s with hqe := { s.hqe with pcidLapsed := true } })

/-- LINK_STATE_CHANGE (R121, R136, R147): the link state is shown and notice 0x05 sent; a state that R121 does not allow is none
of this link. -/
def execLinkStateChange (rate : BitVec 3) (width : BitVec 5) (flit : Bool) (l0pw : BitVec 5) (ltssm : BitVec 6)
    (s : State) : Out :=
  .next (
    if !linkOk rate.toNat width.toNat flit l0pw.toNat then s
    else
    let w := rate.toNat + width.toNat * 2 ^ 3 + b2n flit * 2 ^ 8 + l0pw.toNat * 2 ^ 9 + ltssm.toNat * 2 ^ 14
    (s.setReg rHQE_LINK (BitVec.ofNat 64 w)).hqeNotice 5 0)

end Sys2Proof.Machine
end

