-- ==== Sys2Proof/Machine/Locket.lean ====
section
/-! DEFINITION. Locket's commands: window loads, the stores that start programs, erases and checks, their ends, wait states,
the scan and the supply (R510 to R526). -/

namespace Sys2Proof.Machine

open Sys2Proof

/-! ### Reading (R513) -/

/-- An address lies in Locket's window (R48). -/
def inLocket (a : Nat) : Bool :=
  match regionAt a with
  | .locket _ => true
  | _ => false

/-- LOCKET_WINDOW_LOAD (R511, R513, R517, R520): a load by a core of the double at an address of the window; a load of any other
address is no window load and is left to its own row. -/
def execLocketWindowLoad (core : CoreId) (f : Ecc) (gd ga : RegIdx) (imm : BitVec 16) (ecc : Ecc) (s : State) : Out :=
  .next (if inLocket (s.addrImm core ga imm) then s.facet core f fun s => s.loadImm core gd ga imm 8 false ecc else s)

/-! ### The command sequence (R515) -/

/-- LKT_UNLOCK (R515): a store of `LKT_KEY` to the writer's port. -/
def execLktUnlock (who : Endpoint) (value : Word) (s : State) : Out :=
  .next (s.writeBy who.toNat (rLKT_KEY (lkPortOf who.toNat)) value)

/-- LKT_SEQUENCE_TIMEOUT (R515): 10 µs passed within a sequence that has not started its operation. -/
def execLktSequenceTimeout (signet : Bool) (s : State) : Out :=
  let port := b2n signet
  .next (if s.fld (fLKT_STAT_SEQ port) = 0 then s else s.lkSeqError port)

/-- LKT_PROGRAM (R511, R514 to R516, R518, R521): the store of `LKT_DATA1` that starts it. -/
def execLktProgram (who : Endpoint) (value : Word) (s : State) : Out :=
  .next (s.writeBy who.toNat (rLKT_DATA1 (lkPortOf who.toNat)) value)

/-- LKT_ERASE (R511, R514, R515, R517, R518, R521): the store of `LKT_ADDR` that starts it after `OP` ERASE. -/
def execLktErase (who : Endpoint) (value : Word) (s : State) : Out :=
  .next (s.writeBy who.toNat (rLKT_ADDR (lkPortOf who.toNat)) value)

/-- LKT_CHECK (R511, R515, R520): the store of `LKT_ADDR` that starts it after `OP` CHECK, with what the code yields. -/
def execLktCheck (who : Endpoint) (value : Word) (ecc : Ecc) (s : State) : Out :=
  .next (s.ctlStore who.toNat (rLKT_ADDR (lkPortOf who.toNat)) value ecc).settle

/-! ### Ends (R516 to R518) -/

/-- LKT_PROGRAM_DONE (R516, R523): a sleep entry that waits for it goes on. -/
def execLktProgramDone (verified : Bool) (s : State) : Out :=
  let t := s.lkProgramDone verified
  .next (if s.lkt.program.isSome && s.fld fPWR_STAT_STATE == 1 then t.sleepWhenQuiet else t)

/-- LKT_ERASE_DONE (R517, R518). -/
def execLktEraseDone (good : Bool) (s : State) : Out := .next (s.lkEraseDone good)

/-- LKT_ERASE_RESUME (R517, R523): not while the device sleeps. -/
def execLktEraseResume (s : State) : Out :=
  .next (if s.fld fPWR_STAT_STATE == 2 then s else s.lkEraseResume)

/-! ### Wait states (R519) -/

/-- LKT_WAIT_UPDATE (R519): the monitors report the reference period and VAON, and firmware sets `WS` by the rule. -/
def execLktWaitUpdate (who : Endpoint) (period : BitVec 16) (valid : Bool) (vaon : BitVec 10) (s : State) : Out :=
  let ok := valid && s.pwr.crystal
  let s := ((s.setFld fLKT_REF_PERIOD period.toNat).setFld fLKT_REF_VALID (b2n ok)).setFld fLKT_VMON_VAON vaon.toNat
  let s := s.lkMargin
  .next (s.writeBy who.toNat rLKT_WAIT (BitVec.ofNat 64 (lkWaitStates ok period.toNat vaon.toNat)))

/-! ### The scan (R522) -/

/-- A sector must be refreshed by its writer (R522): a notice where the writer is firmware or the event recorder, and a Notice
record. -/
def State.lkRefreshDue (s : State) (sector : Nat) : State :=
  let s := if lkWrites 0 sector || lkWrites 2 sector then s.lkNotice 4 sector else s
  s.tell 2 .locketRefresh sector

/-- LOCKET_SCAN (R520, R522): Signet CHECKs every written codeword; `found` gives those that are not clean. -/
def execLocketScan (found : List (BitVec 17 × Ecc)) (s : State) : Out :=
  let ecc (cw : Nat) : Ecc := ((found.find? fun (x : BitVec 17 × Ecc) => x.1.toNat == cw).map (·.2)).getD .clean
  let cws := (s.lkt.words.filter fun (w : Nat × LkWord) => w.2.begun).map (·.1)
  let t := cws.foldl (fun (t : State) cw => t.lkCheck 1 cw (ecc cw)) s
  let due := cws.filter fun cw => (lkBits (ecc cw)).2 || (s.fld fLKT_EW_THRESH ≤ (lkBits (ecc cw)).1 : Bool)
  .next ((due.map lkSectorOf).eraseDups.foldl State.lkRefreshDue t)

/-! ### The supply (R521) -/

/-- VLKT_LOW (R521): VLKT reads below 1.71 V. -/
def execVlktLow (mv : BitVec 11) (s : State) : Out :=
  .next (if mv.toNat < 1710 then (s.setFld fLKT_VMON_VLKT mv.toNat).setFld fLKT_VMON_VLKTLOW 1 else s)

/-- VLKT_RESTORED (R521): VLKT reads 1.71 V or more; the recorder goes on. -/
def execVlktRestored (mv : BitVec 11) (s : State) : Out :=
  .next (if 1710 ≤ mv.toNat then ((s.setFld fLKT_VMON_VLKT mv.toNat).setFld fLKT_VMON_VLKTLOW 0).recorderOp.lkRun else s)

end Sys2Proof.Machine
end

