-- ==== Sys2Proof/Machine/Mgmt.lean ====
section
/-! DEFINITION. The management bus: MCTP control and NVMe-MI, and NVMe-MI in band (R126, R559, R560; codes and layouts as MCTP and
NVMe-MI define them, log entry 18). -/

namespace Sys2Proof.Machine

open Sys2Proof

/-! ### MCTP control (R559) -/

/-- A response to a control command. -/
def State.mctpSays (s : State) (cmd code : Nat) (body : List Byte) : State :=
  s.onBus fun s => s.busSays (.control cmd code body)

/-- MCTP_SET_ENDPOINT_ID: operations 0 and 1 set the identifier; 2 and 3 have no static or discovered one to set. -/
def execMctpSetEndpointId (op : BitVec 2) (eid : BitVec 8) (s : State) : Out :=
  .next (s.onBus fun s =>
    if 2 ≤ op.toNat ∨ eid = 0#8 ∨ eid = 0xFF#8 then s.busSays (.control 1 2 [])
    else State.busSays { s with mgmt := { s.mgmt with eid := eid.toNat } } (.control 1 0 [0#8, eid, 0#8]))

/-- MCTP_GET_ENDPOINT_ID: a simple endpoint with a dynamic identifier. -/
def execMctpGetEndpointId (s : State) : Out := .next (s.mctpSays 2 0 [BitVec.ofNat 8 s.mgmt.eid, 0#8, 0#8])

/-- The message types accepted (R559). -/
def mctpTypes : List Byte := [0x00#8, 0x04#8, 0x05#8, 0x7E#8]

/-- MCTP_GET_VERSION_SUPPORT: 1.3 of the base and control, 1.2 of NVMe-MI; the spec states no version of the others, which is a free
value (log entry 76). -/
def execMctpGetVersionSupport (type : BitVec 8) (s : State) : Out :=
  .next (s.onBus fun s =>
    if type = 0xFF#8 ∨ type = 0#8 then s.busSays (.control 4 0 [1#8, 0xF1#8, 0xF3#8, 0xFF#8, 0#8])
    else if type = 4#8 then s.busSays (.control 4 0 [1#8, 0xF1#8, 0xF2#8, 0xFF#8, 0#8])
    else if mctpTypes.contains type then s.tick.busSays (.control 4 0 (1#8 :: s.freeBytes 4))
    else s.busSays (.control 4 0x80 []))

/-- MCTP_GET_MESSAGE_TYPE_SUPPORT. -/
def execMctpGetMessageTypeSupport (s : State) : Out := .next (s.mctpSays 5 0 (4#8 :: mctpTypes))

/-- MCTP_GET_VENDOR_MESSAGE_SUPPORT: one set, Ahnot's PCI vendor identifier. -/
def execMctpGetVendorMessageSupport (selector : BitVec 8) (s : State) : Out :=
  .next (if selector = 0#8 then s.mctpSays 6 0 ([0xFF#8, 0#8] ++ beBytes 2 Config.vendorId.toNat ++ [0#8, 0#8]) else s.mctpSays 6 2 [])

/-! ### NVMe-MI (R560) -/

/-- An answer of NVMe-MI: status, the 24-bit response, and data. -/
structure MiAnswer where
  status : Nat
  response : Nat
  data : List Byte
  deriving DecidableEq, Repr

def miOk (response : Nat) (data : List Byte) : MiAnswer := ⟨0, response, data⟩
def miInternal : MiAnswer := ⟨2, 0, []⟩
def miBadOpcode : MiAnswer := ⟨3, 0, []⟩
def miBadParameter : MiAnswer := ⟨4, 0, []⟩

/-- A message on the bus and its answer; in ROM Recovery every one is answered with Internal Error (R559). -/
def State.miBus (s : State) (op : Nat) (f : State → State × MiAnswer) : State :=
  s.onBus fun s =>
    let r := if s.mode = 0 then (s, miInternal) else f s
    r.1.busSays (.mi op r.2.status (bytesOf r.2.response 3 ++ r.2.data))

/-- The temperature in degrees Celsius as NVMe-MI codes it: 0 to 126, negatives from 0xC4. -/
def State.miTemp (s : State) : Nat :=
  if s.pwr.composite < 0 then (256 + s.pwr.composite).toNat % 256 else min 0x7F s.pwr.composite.toNat

/-- `CSTS` (R125, R166, R430, R502). -/
def State.csts (s : State) : Nat :=
  s.fld fHQE_CTL_RDY + 2 * b2n s.hqe.cfs + 4 * s.fld fHQE_CTL_SHST + 16 * b2n s.hqe.nssro + 32 * b2n s.hqe.pp

/-- Read NVMe-MI Data Structure: subsystem, ports 0 PCIe and 1 SMBus, the controller list and controller 1, optional commands. -/
def State.miRead (s : State) (nmd0 : Nat) : State × MiAnswer :=
  let dtyp := nmd0 / 2 ^ 24
  let port := nmd0 / 2 ^ 16 % 256
  let answer (l : List Byte) : State × MiAnswer := (s, miOk l.length l)
  if dtyp = 0 then answer (padTo 32 [1#8, 1#8, 2#8])
  else if dtyp = 1 then
    if port = 0 then (s.tickBy 4, miOk 32 (padTo 8 ([1#8, 0#8] ++ bytesOf s.mgmt.unit 2) ++ s.freeBytes 24))
    else if port = 1 then answer (padTo 32 (padTo 8 ([2#8, 0#8] ++ bytesOf s.mgmt.unit 2) ++ [0#8, 0#8, BitVec.ofNat 8 (0x1D + s.pwr.addr), 3#8]))
    else (s, miBadParameter)
  else if dtyp = 2 then answer [1#8, 0#8, 1#8, 0#8]
  else if dtyp = 3 then
    if nmd0 % 65536 = 1 then (s.tickBy 4, miOk 32 (s.freeBytes 32)) else (s, miBadParameter)
  else if dtyp = 4 then answer [0#8, 0#8]
  else (s, miBadParameter)

/-- NVM Subsystem Health Status Poll (R558, R560). -/
def State.miSubsystem (s : State) : MiAnswer :=
  miOk 0 ([BitVec.ofNat 8 (32 * b2n (!s.flag fFLT_STAT_FATAL) + 16 + 8 * b2n (s.fld fHQE_LINK_LTSSM != 0)),
    BitVec.ofNat 8 (255 - s.criticalWarning), BitVec.ofNat 8 s.miTemp] ++ bytesOf s.percentageUsed 1 ++ bytesOf s.csts 2 ++ zeros 2)

/-- Controller Health Status Poll (R558, R560): controller 1, unless the poll starts after it. -/
def State.miController (s : State) (nmd0 : Nat) : MiAnswer :=
  if 1 < nmd0 % 65536 then miOk 0 []
  else miOk (2 ^ 16) (padTo 16 ([1#8, 0#8] ++ bytesOf s.csts 2 ++ bytesOf s.kelvin 2 ++ bytesOf s.percentageUsed 1 ++
    bytesOf s.availableSpare 1 ++ [BitVec.ofNat 8 s.criticalWarning]))

/-- Configuration Get: the frequency and the transmission unit of the SMBus port. -/
def State.miGet (s : State) (nmd0 : Nat) : MiAnswer :=
  if nmd0 % 256 = 1 then miOk s.mgmt.freq []
  else if nmd0 % 256 = 3 then miOk s.mgmt.unit []
  else miBadParameter

/-- Configuration Set: a frequency of R559, and a transmission unit of 64 bytes only. -/
def State.miSet (s : State) (nmd0 nmd1 : Nat) : State × MiAnswer :=
  if nmd0 % 256 = 1 then
    let f := nmd0 / 256 % 16
    if 1 ≤ f ∧ f ≤ 3 then ({ s with mgmt := { s.mgmt with freq := f } }, miOk 0 []) else (s, miBadParameter)
  else if nmd0 % 256 = 3 then
    if nmd1 % 65536 = 64 then ({ s with mgmt := { s.mgmt with unit := 64 } }, miOk 0 []) else (s, miBadParameter)
  else (s, miBadParameter)

/-- MI_READ_DATA_STRUCTURE (R559, R560). -/
def execMiReadDataStructure (nmd0 : BitVec 32) (s : State) : Out := .next (s.miBus 0 fun s => s.miRead nmd0.toNat)

/-- MI_SUBSYSTEM_HEALTH_POLL (R558, R560). -/
def execMiSubsystemHealthPoll (s : State) : Out := .next (s.miBus 1 fun s => (s, s.miSubsystem))

/-- MI_CONTROLLER_HEALTH_POLL (R558, R560). -/
def execMiControllerHealthPoll (nmd0 : BitVec 32) (s : State) : Out := .next (s.miBus 2 fun s => (s, s.miController nmd0.toNat))

/-- MI_CONFIGURATION_GET (R560). -/
def execMiConfigurationGet (nmd0 : BitVec 32) (s : State) : Out := .next (s.miBus 4 fun s => (s, s.miGet nmd0.toNat))

/-- MI_CONFIGURATION_SET (R560). -/
def execMiConfigurationSet (nmd0 nmd1 : BitVec 32) (s : State) : Out :=
  .next (s.miBus 3 fun s => s.miSet nmd0.toNat nmd1.toNat)

/-- A tunnelled admin command: Identify, Get Features, Get Log Page; every other opcode is turned away (R560). The answer holds
dword 0, dword 1, the status and the data. -/
def State.miAdmin (s : State) (c : NvmeCmd) : State × MiAnswer :=
  let reply (st dw0 : Nat) (l : List Byte) : MiAnswer := miOk 0 (bytesOf dw0 4 ++ zeros 4 ++ bytesOf (st * 2 ^ 17) 4 ++ l)
  let op := cmdOp c
  if op = 0x06 then
    match s.identifyData (c.dw10.toNat % 256) c.nsid.toNat with
    | .error st => (s, reply st 0 [])
    | .ok l => (s.tickBy 512, reply 0 0 l)
  else if op = 0x0A then
    match s.featureAnswer c with
    | .error st => (s, reply st 0 [])
    | .ok r => (s, reply 0 r.2 r.1)
  else if op = 0x02 then
    let d := c.dw10.toNat
    let off := c.dw12.toNat + c.dw13.toNat * 2 ^ 32
    let n := adminBytes c
    if off % 4 ≠ 0 ∨ 0x200000 < n then (s, reply (stat 0 0x02) 0 [])
    else match s.readPage true (d % 256) (d / 256 % 128) (d.testBit 15) off n with
    | none => (s, reply (stat 1 0x09) 0 [])
    | some r => (r.1, reply 0 0 r.2)
  else (s, miBadOpcode)

/-- MI_TUNNELLED_ADMIN (R557, R560). -/
def execMiTunnelledAdmin (cmd : NvmeCmd) (s : State) : Out := .next (s.miBus (256 + cmdOp cmd) fun s => s.miAdmin cmd)

/-- The commands that NVMe-MI accepts, and the admin commands that it tunnels (R560). -/
def miAccepted (op : Nat) (tunnelled : Bool) : Bool := if tunnelled then [0x02, 0x06, 0x0A].contains op else op ≤ 4

/-- NVME_MI_INVALID_OPCODE (R560): VPD Read, VPD Write, Reset and every other command that is not accepted. -/
def execNvmeMiInvalidOpcode (op : BitVec 8) (tunnelled : Bool) (s : State) : Out :=
  .next (if miAccepted op.toNat tunnelled then s
    else s.miBus (op.toNat + 256 * b2n tunnelled) fun s => (s, miBadOpcode))

/-! ### In band (R126, R560) -/

/-- The completion dword that carries an answer. -/
def MiAnswer.dw0 (a : MiAnswer) : Nat := a.status + a.response * 2 ^ 8

/-- NVME_MI_SEND (R126, R560): Configuration Set; every other command that sends has an invalid opcode. -/
def execNvmeMiSend (slot : SlotId) (s : State) : Out :=
  .next (
    let k := slot.toNat
    s.adminCmd k 0x1D fun e =>
      let r := if e.cmd.dw10.toNat % 256 = 3 then s.miSet e.cmd.dw11.toNat e.cmd.dw12.toNat else (s, miBadOpcode)
      r.1.finish k 0 r.2.dw0)

/-- NVME_MI_RECEIVE (R126, R560): the commands that answer with data or a response. -/
def execNvmeMiReceive (slot : SlotId) (s : State) : Out :=
  .next (
    let k := slot.toNat
    s.adminCmd k 0x1E fun e =>
      let op := e.cmd.dw10.toNat % 256
      let r := if op = 0 then s.miRead e.cmd.dw11.toNat
        else (s, if op = 1 then s.miSubsystem else if op = 2 then s.miController e.cmd.dw11.toNat else if op = 4 then s.miGet e.cmd.dw11.toNat
          else miBadOpcode)
      if r.2.data.isEmpty then r.1.finish k 0 r.2.dw0 else s.adminReturn r.1 k (padTo 4096 r.2.data) r.2.dw0)

end Sys2Proof.Machine
end

