-- ==== Sys2Proof/Machine/Power.lean ====
section
/-! DEFINITION. The operating point, sleep entry and wake, pads, the Timestamp register and temperature (R27, R30, R529 to R546,
R572, R583, R589). -/

namespace Sys2Proof.Machine

open Sys2Proof

/-! ### The operating point (R27, R30, R37, R572) -/

/-- OPERATING_POINT_UPDATE (R30, R37): firmware requests the voltage that it finds; while the rate is not measured against the
crystal it holds the last one. -/
def execOperatingPointUpdate (who : Endpoint) (mv : BitVec 10) (s : State) : Out :=
  .next (if s.flag fARC_PACE_VALID then s.writeBy who.toNat rPWR_AVS (mv.zeroExtend 64) else s)

/-- AVS_VOLTAGE_WRITE (R27, R544, R572): a write of `PWR_AVS`. -/
def execAvsVoltageWrite (who : Endpoint) (value : Word) (s : State) : Out := .next (s.writeBy who.toNat rPWR_AVS value)

/-- AVS_TRANSACTION_DONE (R572, R589): the voltage and power good, or a failure; firmware warns of a voltage more than 3 % from
the request. -/
def execAvsTransactionDone (mv : BitVec 10) (good ok : Bool) (s : State) : Out :=
  .next (
    let t := s.avsDone mv.toNat good ok
    let req := t.fld fPWR_AVS_REQ
    let off := max mv.toNat req - min mv.toNat req
    if s.flag fPWR_AVS_BUSY && ok && decide (3 * req < 100 * off) then t.tell 3 .regulator mv.toNat else t)

/-! ### Sleep entry (R532, R533, R542) -/

/-- PWR_SLEEP_GO (R532, R533, R544): the entry steps before it are done where they can be, and a core writes `PWR_CTL`. -/
def execPwrSleepGo (who : Endpoint) (value : Word) (s : State) : Out :=
  .next (s.sleepAdvance.writeBy who.toNat rPWR_CTL value)

/-- The entry is abandoned (R532): fetching resumes, the power state goes back, and a Notice is logged. -/
def State.abandonEntry (s : State) : State :=
  if s.pwr.entry = 0 then s
  else
    let s : State := { s with hqe := { s.hqe with features := tput s.hqe.features 0x02 s.pwr.lastOp } }
    let s := (s.withPwr { s.pwr with entry := 0 }).setFld fHQE_CTL_FETCH 1
    s.tell 2 .sleepAbandoned s.pwr.lastOp

/-- SLEEP_ENTRY_OVERRUN (R532): step 2 or 3 exceeds its bound. -/
def execSleepEntryOverrun (s : State) : Out := .next s.abandonEntry

/-! ### Wake (R535 to R539) -/

/-- Solitaire requests the voltage of an attempt; from Deep Sleep it drives CORE_EN high first (R537 step 2, R539). -/
def State.wakeAttempt (s : State) : State :=
  let s := s.withPwr { s.pwr with wakeStep := 2, coreEn := true }
  (s.setFld fPWR_AVS_PG 0).avsRequest (if s.pwr.wakeTry ≤ 1 then s.fld fPWR_AVSW_WAKEMV else s.fld fPWR_AVSW_ALTMV)

/-- A wake starts (R537 step 1). -/
def State.wakeStart (s : State) (cause : Nat) : State :=
  let s := ((s.setFld fPWR_STAT_STATE 3).setFld fPWR_STAT_CAUSE cause).setFld fPWR_STAT_XTALFB 0
  let s := (s.setFld fPWR_STAT_FSTEP 0).setFld fPWR_STAT_TRIES 1
  (s.withPwr { s.pwr with wakeTry := 1, wakeRefused := false }).wakeAttempt

/-- A wake event (R542): in steps 1 to 3 of an entry it abandons the entry, in step 5 the entry completes first; asleep, the wake
starts. -/
def State.wakeEvent (s : State) (cause : Nat) : State :=
  if s.fld fPWR_STAT_STATE = 2 then s.wakeStart cause
  else if s.fld fPWR_STAT_STATE = 1 then (s.sleepStep5 (s.fld fPWR_CTL_TARGET == deepSleep)).wakeStart cause
  else s.abandonEntry

/-- The first bytes of the buffer as `PWR_MBUF` shows them. -/
def bufWord (l : List Byte) : Word := BitVec.ofNat 64 (leValue (l.take 8))

/-- WAKE_MANAGEMENT_BUS (R535, R536): the write is held, up to 64 bytes, and with `MBEN` the wake starts. -/
def execWakeManagementBus (bytes : List (BitVec 8)) (s : State) : Out :=
  .next (
    if s.fld fPWR_STAT_STATE = 3 ∨ s.fld fPWR_STAT_STATE = 4 ∨ s.flag fPWR_WAKE_MBEN = false then s
    else if s.fld fPWR_STAT_STATE = 0 then s.wakeEvent 1
    else
      let l := bytes.take 64
      let s := s.wakeEvent 1
      (s.withPwr { s.pwr with wakeBuf := l }).setReg rPWR_MBUF (bufWord l))

/-- WAKE_PCIE (R535): with `PCIEN`. -/
def execWakePcie (s : State) : Out :=
  .next (if s.flag fPWR_WAKE_PCIEN && s.fld fPWR_STAT_STATE != 3 && s.fld fPWR_STAT_STATE != 4 then s.wakeEvent 2 else s)

/-- WAKE_ALARM (R535, R538): with `ALMEN`; the alarm runs while the device sleeps. -/
def execWakeAlarm (s : State) : Out :=
  .next (if s.flag fPWR_WAKE_ALMEN && s.fld fPWR_STAT_STATE == 2 then s.wakeEvent 3 else s)

/-- WAKE_POWER_GOOD (R537 steps 2 and 3): the crystal is started. -/
def execWakePowerGood (mv : BitVec 10) (s : State) : Out :=
  .next (
    if s.fld fPWR_STAT_STATE ≠ 3 ∨ s.pwr.wakeStep ≠ 2 then s
    else
      let s := s.avsDone mv.toNat true true
      s.withPwr { s.pwr with wakeStep := 3 })

/-- The elapsed sleep is added to the time and reported (R540, R541): `count` periods of the ring. -/
def State.addSleep (s : State) (count : Nat) : State :=
  let ps := count * s.fld fTMR_RCAL_PERIOD
  let s := s.withPwr { s.pwr with sleptNs := s.pwr.sleptNs + ps / 1000 }
  let s : State := { s with now := s.now + ps / 1000 }
  let s := s.setFld fTMR_SLEPT_US (ps / 1000000 % 2 ^ 48)
  (s.setFld fTMR_STAT_EST 1).setFld fTMR_STAT_SYNCH 1

/-- The wake buffer goes to `PWR_NOTE` (R536): its length, whether later messages were refused, and bytes 8 to 63. -/
def State.sendBuffer (s : State) : State :=
  let l := s.pwr.wakeBuf
  if l.isEmpty && !s.pwr.wakeRefused then s
  else
    let s := s.hwSend epDevice (s.fld fPWR_NOTE_DST) (s.fld fPWR_NOTE_MBX) 0x1C0
      (payloadOf ([(0, 1, l.length), (1, 1, b2n s.pwr.wakeRefused)] ++
        ((l.drop 8).zipIdx).map fun (x : Byte × Nat) => (8 + x.2, 1, x.1.toNat)))
    s.withPwr { s.pwr with wakeBuf := [], wakeRefused := false }

/-- Step 4 of a wake from Idle-Retain (R537, R538): the mode goes back to health. But for the alarm, whose maintenance ends in a
new entry, the power state goes back to the last operational one. -/
def State.idleWake (s : State) : State :=
  let s := s.sendBuffer.modeRequest epDevice 8
  if s.fld fPWR_STAT_CAUSE = 3 then s.withPwr { s.pwr with entry := idleRetain }
  else { s with hqe := { s.hqe with features := tput s.hqe.features 0x02 s.pwr.lastOp } }

/-- Steps 4 and 5: the arrays are powered and the device goes on, with the crystal or without (R537, R539). -/
def State.wakeDone (s : State) (count : Nat) (crystal : Bool) (r : BootReport) : State :=
  let s := (s.addSleep count).setFld fPWR_STAT_STATE 0
  let s := s.withPwr { s.pwr with wakeStep := 0, wakeTry := 0, crystal := crystal }
  let s := (s.setFld fPWR_XTAL_OK (b2n crystal)).setFld fTMR_STAT_XTAL (b2n crystal)
  let s := s.setFld fPWR_STAT_XTALFB (b2n (!crystal))
  if s.pwr.deep then
    let s : State := { s with hqe := { s.hqe with features := tput s.hqe.features 0x02 s.pwr.lastOp } }
    (s.deepWake { r with crystal := r.crystal && crystal }).sendBuffer
  else
    let s := s.idleWake
    if crystal then s else (s.tell 5 .crystalLost 0).alert

/-- WAKE_CRYSTAL_STABLE (R537 to R541). -/
def execWakeCrystalStable (count : BitVec 48) (report : BootReport) (s : State) : Out :=
  .next (if s.fld fPWR_STAT_STATE = 3 ∧ s.pwr.wakeStep = 3 then (s.wakeDone count.toNat true report).settle else s)

/-- No attempt brought power good (R539, R589): state 4, reported, with MB_ALERT_N asserted. -/
def State.wakeFails (s : State) (tries : Nat) : State :=
  let s := ((s.setFld fPWR_STAT_STATE 4).setFld fPWR_STAT_FSTEP 2).setFld fPWR_STAT_TRIES tries
  (s.withPwr { s.pwr with wakeStep := 0 }).alert

/-- WAKE_ATTEMPT_FAIL (R539, R589): power good or the crystal is late. Up to three retries follow; after the fourth attempt a
missing regulator leaves the wake failed, and a missing crystal lets the core run without it. Before power-on reset has ended,
50 ms without power good end the same way. -/
def execWakeAttemptFail (count : BitVec 48) (report : BootReport) (s : State) : Out :=
  .next (
    if s.pwr.vaon = true ∧ s.pwr.porDone = false ∧ s.fld fPWR_STAT_STATE = 0 then s.wakeFails 1
    else if s.fld fPWR_STAT_STATE ≠ 3 then s
    else
      let s := s.setFld fPWR_STAT_FSTEP s.pwr.wakeStep
      if s.pwr.wakeTry < 4 then
        ((s.withPwr { s.pwr with wakeTry := s.pwr.wakeTry + 1 }).setFld fPWR_STAT_TRIES (s.pwr.wakeTry + 1)).wakeAttempt
      else if s.pwr.wakeStep = 2 then s.wakeFails 4
      else (s.wakeDone count.toNat false report).settle)

/-- MB_TRANSACTION_DURING_WAKE (R536): not acknowledged, and the loss is reported with the buffer. -/
def execMbTransactionDuringWake (s : State) : Out :=
  .next (
    if s.fld fPWR_STAT_STATE = 3 then (s.withPwr { s.pwr with wakeRefused := true }).busSays .nack else s)

/-! ### Pads and time (R534, R546) -/

/-- PAD_HOLD_RELEASE (R534, R545): a write of `PAD_HOLD`. -/
def execPadHoldRelease (who : Endpoint) (value : Word) (s : State) : Out := .next (s.writeBy who.toNat rPAD_HOLD value)

/-- TMR_STAMP_WRITE (R541, R546): a write of `TMR_STAMP`. -/
def execTmrStampWrite (who : Endpoint) (value : Word) (s : State) : Out := .next (s.writeBy who.toNat rTMR_STAMP value)

/-! ### Temperature (R583) -/

/-- The limit in force at a composite temperature: each is lifted 3 °C below its threshold. -/
def thermalLevel (old : Nat) (t : Int) : Nat :=
  if 124 ≤ t ∨ (old = 2 ∧ 121 < t) then 2
  else if 121 ≤ t ∨ (old ≠ 0 ∧ 118 < t) then 1
  else 0

/-- THERMAL_LIMIT (R583): firmware takes the limit that the composite temperature asks for; an entry is a Warning. -/
def execThermalLimit (composite : Int) (s : State) : Out :=
  .next (
    let old := s.pwr.thermal
    let new := thermalLevel old composite
    let s := s.withPwr { s.pwr with thermal := new, composite := composite }
    if old < new then s.tell 3 .thermal new else s)

/-- THERMAL_TRIP (R430, R583): a fatal fault that holds until device reset. -/
def execThermalTrip (s : State) : Out :=
  .next (if s.pwr.tripped then s else (s.withPwr { s.pwr with tripped := true }).fatalStop 3 0)

end Sys2Proof.Machine
end

