-- ==== Sys2Proof/Machine/Update.lean ====
section
/-! DEFINITION. Firmware download, commit and activation (R167, R497, R499 to R504, R509). -/

namespace Sys2Proof.Machine

open Sys2Proof

/-! ### Download (R499) -/

/-- FIRMWARE_IMAGE_DOWNLOAD (R499): a piece at a dword offset. -/
def execFirmwareImageDownload (slot : SlotId) (beads : List BeadId) (s : State) : Out :=
  .next (
    let k := slot.toNat
    s.adminPull k 0x11 beads fun s e _ =>
      let n := e.cmd.dw10.toNat + 1
      let a := e.cmd.dw11.toNat
      if 2 ^ 22 < a + n then s.finish k (stat 0 0x02)
      else if s.boot.pieces.any (fun (p : Nat × Nat) => decide (a < p.1 + p.2) && decide (p.1 < a + n)) then s.finish k (stat 1 0x14)
      else (s.withBoot { s.boot with pieces := s.boot.pieces ++ [(a, n)] }).finish k 0)

/-! ### Commit (R500, R501) -/

/-- The fields FS and CA of a Firmware Commit. -/
def commitSlot (c : NvmeCmd) : Nat := c.dw10.toNat % 8
def commitAction (c : NvmeCmd) : Nat := c.dw10.toNat / 8 % 8

/-- A Firmware Commit with the given action; the actions without effect are turned away by whichever row meets them. -/
def State.fwCommit (s : State) (k ca : Nat) (f : Slot → State) : State :=
  s.adminCmd k 0x10 fun e =>
    if 4 ≤ commitAction e.cmd then s.finish k (stat 0 0x02)
    else if commitAction e.cmd ≠ ca then s
    else f e

/-- The slot that FS names for writing. -/
def Directory.writeSlot (d : Directory) (fs : Nat) : Nat :=
  if fs ≠ 0 then fs
  else match [2, 3].filter fun x => x != d.running && x != d.next with
    | [x] => x
    | _ => 3

/-- A pending Scheduled Activation of a slot, or of any slot, ends (R504). -/
def State.dropScheduled (s : State) (slot : Option Nat) : State :=
  match s.boot.sched with
  | some p =>
    if slot = none ∨ slot = some p.slot then
      (s.withBoot { s.boot with sched := none }).finishOrder p.order (stat 0 0x07)
    else s
  | none => s

/-- The download is written to a slot, and becomes next-start where the action says so (R500, R501). -/
def State.commitWrite (s : State) (k fs : Nat) (next : Bool) (package : Option Package) (copies : List CopyAt) : State :=
  let b := s.boot
  let t := b.dir.writeSlot fs
  let used (st : Nat) : State := (s.withBoot { b with pieces := [] }).finish k st
  if 3 < fs ∨ t = 1 ∨ t = b.dir.running then s.finish k (stat 1 0x06)
  else if b.pieces.isEmpty then s.finish k (stat 1 0x07)
  else match package with
  | none => used (stat 1 0x07)
  | some p =>
    if !s.verifies false p then used (stat 1 0x07)
    else if !s.aboveFloors p then used (stat 1 0x13)
    else if !goodCopies s.part.channels copies then s
    else
      let d := b.dir.withCopies t copies
      let s := s.withBoot { b with
        pieces := [], slots := tput b.slots t p
        dir := { d with generation := d.generation + 2, next := if next then t else d.next } }
      (s.dropScheduled (some t)).finish k 0

/-- FIRMWARE_COMMIT_REPLACE (R500, R501): action 000b. -/
def execFirmwareCommitReplace (slot : SlotId) (package : Option Package) (copies : List CopyAt) (s : State) : Out :=
  .next (s.fwCommit slot.toNat 0 fun e => s.commitWrite slot.toNat (commitSlot e.cmd) false package copies)

/-- FIRMWARE_COMMIT_REPLACE_NEXT (R500, R501): action 001b. -/
def execFirmwareCommitReplaceNext (slot : SlotId) (package : Option Package) (copies : List CopyAt) (s : State) : Out :=
  .next (s.fwCommit slot.toNat 1 fun e => s.commitWrite slot.toNat (commitSlot e.cmd) true package copies)

/-- An existing slot is verified again: the status that refuses it, or the slot and its package (R500, R501). -/
def State.existing (s : State) (fs : Nat) (readable : Bool) : Nat ⊕ (Nat × Package) :=
  let t := if fs = 0 then s.boot.dir.next else fs
  if 3 < fs then .inl (stat 1 0x06)
  else match s.slotPackage t with
  | none => .inl (if t = 1 then stat 1 0x07 else stat 1 0x06)
  | some p =>
    if !readable || !s.verifies false p then .inl (stat 1 0x07)
    else if !s.aboveFloors p then .inl (stat 1 0x13)
    else .inr (t, p)

/-- A slot becomes next-start. -/
def State.nextStart (s : State) (t : Nat) : State :=
  s.withBoot { s.boot with dir := { s.boot.dir with generation := s.boot.dir.generation + 1, next := t } }

/-- FIRMWARE_COMMIT_NEXT_START (R500, R501): action 010b. -/
def execFirmwareCommitNextStart (slot : SlotId) (readable : Bool) (s : State) : Out :=
  .next (s.fwCommit slot.toNat 2 fun e =>
    match s.existing (commitSlot e.cmd) readable with
    | .inl st => s.finish slot.toNat st
    | .inr x => (s.nextStart x.1).finish slot.toNat 0)

/-! ### The start of an activation (R167, R502) -/

/-- An activation committed during Sanitize is a request that is refused (R40, R44). -/
def State.refusedBySanitize (s : State) : State := if s.sanGate = some (stat 0 0x1D) then s.modeRefused else s

/-- Step 1: Quiesce with cause 0x0B, `CSTS.PP`, and the event if it is enabled. A mode that takes no Quiesce ends the command. -/
def State.startActivation (s : State) (slot order : Nat) (scheduled : Bool) : State :=
  let t := s.modeRequest (s.fld fHQE_DCFG_AEP) 7
  if t.mode ≠ 7 then t.finishOrder order (stat 0 0x0C)
  else
    let t : State := { t with hqe := { t.hqe with pp := true } }
    let t := if t.noticeOn 9 then t.asyncEvent 2 1 3 else t
    t.withBoot { t.boot with act := some ⟨slot, order, t.now, scheduled⟩ }

/-- A slot that an activation names (R497, R500, R501): the status that refuses it, with the slot that becomes next-start, or the
slot. -/
def State.activatable (s : State) (fs : Nat) (readable : Bool) : (Nat × Option Nat) ⊕ Nat :=
  match s.existing fs readable with
  | .inl st => .inl (st, none)
  | .inr x =>
    if s.boot.logFull then .inl (stat 1 0x13, none)
    else if (s.slotPackage s.boot.dir.running).map (fun p => p.measures.getD 0 0#384) ≠ some (x.2.measures.getD 0 0#384) then
      .inl (stat 1 0x10, some x.1)
    else .inr x.1

/-- A refused activation ends its command, and its slot may become next-start. -/
def State.refuseActivation (s : State) (k : Nat) (x : Nat × Option Nat) : State :=
  (match x.2 with
   | some t => s.nextStart t
   | none => s).finish k x.1

/-- FIRMWARE_COMMIT_ACTIVATE (R44, R168, R500 to R502, R509): action 011b. In a queue drain the command waits for the release. -/
def execFirmwareCommitActivate (slot : SlotId) (readable : Bool) (s : State) : Out :=
  .next (
    let k := slot.toNat
    let s := if (s.adminSlot k 0x10).any (fun e => commitAction e.cmd == 3) then s.refusedBySanitize else s
    s.fwCommit k 3 fun e =>
      if s.boot.sched.isSome || s.boot.act.isSome then s.finish k (stat 0 0x0C)
      else if s.mode = 7 then s
      else match s.activatable (commitSlot e.cmd) readable with
      | .inl x => s.refuseActivation k x
      | .inr t => s.startActivation t e.order false)

/-! ### Scheduled Activation (R504) -/

/-- The reserved bits of a Scheduled Activation are zero. -/
def schedReserved (c : NvmeCmd) : Bool :=
  c.dw10.toNat / 8 % 32 == 0 && c.dw10.toNat / 2 ^ 9 == 0 && c.dw12.toNat / 2 ^ 16 == 0

/-- SCHEDULED_ACTIVATION (R504): the command waits until the Timestamp clock reaches T. -/
def execScheduledActivation (slot : SlotId) (readable : Bool) (s : State) : Out :=
  .next (
    let k := slot.toNat
    s.adminCmd k 0xC0 fun e =>
      let t := e.cmd.dw11.toNat + e.cmd.dw12.toNat % 2 ^ 16 * 2 ^ 32
      if e.cmd.dw10.getLsbD 8 || s.boot.sched.any (fun p => p.order == e.order) || s.boot.act.any (fun a => a.order == e.order) then s
      else if s.fld fTMR_STAMP_ORIGIN = 0 ∨ s.boot.sched.isSome = true then s.finish k (stat 0 0x0C)
      else if !schedReserved e.cmd || t < s.stampMs + 100 || s.stampMs + 2592000000 < t then s.finish k (stat 0 0x02)
      else match s.activatable (e.cmd.dw10.toNat % 8) readable with
      | .inl x => s.refuseActivation k x
      | .inr x => s.withBoot { s.boot with sched := some ⟨e.order, x, t⟩ })

/-- SCHEDULED_ACTIVATION_CANCEL (R504): the pending command ends with 0/0x07, then this one with success. -/
def execScheduledActivationCancel (slot : SlotId) (s : State) : Out :=
  .next (s.adminCmd slot.toNat 0xC0 fun e =>
    if !e.cmd.dw10.getLsbD 8 then s else (s.dropScheduled none).finish slot.toNat 0)

/-- SCHEDULED_ACTIVATION_TIME (R504): the Timestamp clock reaches T. -/
def execScheduledActivationTime (s : State) : Out :=
  .next (
    match s.boot.sched with
    | none => s
    | some p =>
      let s := { s with now := s.now + (p.t - s.stampMs) * 1000000 }
      if s.mode = 7 then s
      else
        let s := s.withBoot { s.boot with sched := none }
        if s.sig.sanState = 1 then s.refusedBySanitize.finishOrder p.order (stat 0 0x1D)
        else s.startActivation p.slot p.order true)

/-! ### Drain, park and release (R167, R502, R503) -/

/-- Every dispatched command has completed, but outstanding Asynchronous Event Requests, a pending Scheduled Activation and the
command that activates (R167, R502). -/
def State.activationDrained (s : State) (a : Activation) : Bool :=
  s.hqe.slots.all fun (e : Nat × Slot) =>
    !e.2.dispatched || e.2.completion.isSome || s.hqe.aers.contains e.1 || e.2.order == a.order ||
      s.boot.sched.any (fun p => p.order == e.2.order)

/-- The active cores: those that run or wait. -/
def State.activeCores (s : State) : List Nat :=
  (s.cores.filter fun (c : Nat × Core) => match c.2.status with
    | .running => true
    | .waiting _ => true
    | _ => false).map (·.1)

def State.allParked (s : State) : Bool := s.activeCores.all fun n => (s.core n).parked

/-- CORE_PARK (R502): Signet takes the core's message from its mailbox 1. -/
def execCorePark (core : CoreId) (s : State) : Out :=
  .next (
    if s.boot.act.isNone then s
    else match takeFirst (fun (m : Msg) => decide (m.src = (s.core core).role) && decide (m.sub = 0x1A3)) (s.box 112 1) with
    | some (_, rest) => (s.setBox 112 1 rest).setCore core { s.core core with parked := true }
    | none => s)

/-- Quiesce ends: held commands are dispatched, fetching resumes, and cores are parked no more (R167). -/
def State.activationOver (s : State) : State :=
  let s := if s.mode = 7 then s.modeRequest (s.fld fHQE_DCFG_AEP) 7 else s
  let s : State := { s with
    hqe := { s.hqe with pp := false }
    cores := s.cores.map fun (c : Nat × Core) => (c.1, { c.2 with parked := false }) }
  s.withBoot { s.boot with act := none }

/-- ACTIVATION_DRAIN_TIMEOUT (R167, R502): 4 ms after step 1 a drain or a park is missing, and the activation is abandoned. -/
def execActivationDrainTimeout (s : State) : Out :=
  .next (
    match s.boot.act with
    | none => s
    | some a => if s.activationDrained a && s.allParked then s else s.activationOver.finishOrder a.order (stat 1 0x12))

/-- Both checkpoint slots of every core become invalid, and the stores of the cores hold their new images (R89, R503; log entry
47). -/
def State.activationMem (s : State) : State :=
  let slots := ((List.range 54).filter s.part.coreOn).flatMap fun n => [s.ckAddr n 0, s.ckAddr n 1]
  s.withMem (s.mem.keep fun a => a < 2 ^ 40 && !slots.any fun b => decide (b ≤ a) && decide (a < b + 0x120))

/-- A core starts on its new image, every register zero; spare and fenced ones stay so (R503). -/
def State.activationCore (s : State) (entry n : Nat) : State :=
  let c := s.core n
  let z : Core := { Core.fresh n with role := c.role, status := c.status, pc := entry, wdStart := s.now, commits := c.commits }
  match c.status with
  | .running => s.setCore n z
  | .waiting _ => s.setCore n { z with status := .running }
  | _ => s

/-- A sequencer whose image changes is loaded and re-runs its shadow table (R305, R503). -/
def State.activationSeq (s : State) (q : Nat) : State :=
  let e := s.sq q
  (s.setSq q { e with stack := [], counters := [], timers := [], status := 0, rerun := true }).psqResume q

/-- The Prong images of two packages differ: indexes 4 and 5 (R468). -/
def prongDiffers (a b : Option Package) : Bool :=
  (a.map fun p => (p.measures.getD 2 0#384, p.measures.getD 3 0#384)) != (b.map fun p => (p.measures.getD 2 0#384, p.measures.getD 3 0#384))

/-- Step 3 of R167 with a package: loads, the directory, the record, and the release at step 1 + 36 ms. -/
def State.release (s : State) (a : Activation) (p : Package) (failed : List Nat) : State :=
  let d := s.boot.dir
  let old := s.slotPackage d.running
  let s := s.withBoot { s.boot with dir := { d with generation := d.generation + 1, running := a.slot, next := a.slot, previous := d.running } }
  let s := s.hallmark 2 5 a.slot (s.hallFlags false (failed.any s.part.seqOn)) (some p)
  let s : State := { s with now := max s.now (a.startedAt + 36000000) }
  let s := s.activationMem
  let s := (List.range 54).foldl (fun (t : State) n => if t.part.coreOn n then t.activationCore (p.actEntry.toNat / 4 * 4) n else t) s
  let s : State := { s with entries := s.entries.map fun (e : Nat × Nat) => (e.1, p.entry.toNat / 4 * 4) }
  let s := if prongDiffers old (some p) then
      (failed.foldl State.seqLoadBad (((List.range 34).filter fun q => s.part.seqOn q && !failed.contains q).foldl State.activationSeq s))
    else s
  let dw0 := if a.scheduled then (s.now - a.startedAt) / 1000 else 0
  s.activationOver.finishOrder a.order 0 dw0

/-- ACTIVATION_RELEASE (R167, R497, R503): once the drain has ended and every active core is parked. A record that cannot be made
durable ends the activation before the release. -/
def execActivationRelease (seqFailed : List SeqId) (recordOk : Bool) (s : State) : Out :=
  .next (
    match s.boot.act with
    | none => s
    | some a =>
      if !(s.activationDrained a && s.allParked) then s
      else if !recordOk then s.activationOver.fatalStop 2 a.slot
      else match s.slotPackage a.slot with
      | some p => s.release a p (seqFailed.map (·.val))
      | none => s.activationOver.finishOrder a.order (stat 1 0x07))

end Sys2Proof.Machine
end

