-- ==== Sys2Proof/Machine/Dispatch.lean ====
section
/-! DEFINITION. One arm for each command: a direct call of its meaning. -/

namespace Sys2Proof.Machine

open Sys2Proof

/-- The effect of a command on everything but the queue. -/
def exec (i : Instr) (s : State) : Host.Outcome State Fault Refusal :=
  match i with
  | .powerOn addr perstLow => Sys2Proof.Machine.execPowerOn addr perstLow s
  | .powerOnResetEnd report => Sys2Proof.Machine.execPowerOnResetEnd report s
  | .perstNAssert => Sys2Proof.Machine.execPerstNAssert s
  | .perstNRelease report => Sys2Proof.Machine.execPerstNRelease report s
  | .railBelowMinimum vaon => Sys2Proof.Machine.execRailBelowMinimum vaon s
  | .vlktLow mv => Sys2Proof.Machine.execVlktLow mv s
  | .modeRequest who req => Sys2Proof.Machine.execModeRequest who req s
  | .paceUpdate rate crystal => Sys2Proof.Machine.execPaceUpdate rate crystal s
  | .operatingPointUpdate who mv => Sys2Proof.Machine.execOperatingPointUpdate who mv s
  | .avsVoltageWrite who value => Sys2Proof.Machine.execAvsVoltageWrite who value s
  | .avsTransactionDone mv good ok => Sys2Proof.Machine.execAvsTransactionDone mv good ok s
  | .chainDelivery src dst => Sys2Proof.Machine.execChainDelivery src dst s
  | .sendLimitExpiry core => Sys2Proof.Machine.execSendLimitExpiry core s
  | .txLimitExpiry core => Sys2Proof.Machine.execTxLimitExpiry core s
  | .watchdogExpiry core => Sys2Proof.Machine.execWatchdogExpiry core s
  | .illegalOpcode core f word => Sys2Proof.Machine.execIllegalOpcode core f word s
  | .add core f gd ga gb => Sys2Proof.Machine.execAdd core f gd ga gb s
  | .sub core f gd ga gb => Sys2Proof.Machine.execSub core f gd ga gb s
  | .and core f gd ga gb => Sys2Proof.Machine.execAnd core f gd ga gb s
  | .or core f gd ga gb => Sys2Proof.Machine.execOr core f gd ga gb s
  | .xor core f gd ga gb => Sys2Proof.Machine.execXor core f gd ga gb s
  | .nor core f gd ga gb => Sys2Proof.Machine.execNor core f gd ga gb s
  | .sll core f gd ga gb => Sys2Proof.Machine.execSll core f gd ga gb s
  | .srl core f gd ga gb => Sys2Proof.Machine.execSrl core f gd ga gb s
  | .sra core f gd ga gb => Sys2Proof.Machine.execSra core f gd ga gb s
  | .rol core f gd ga gb => Sys2Proof.Machine.execRol core f gd ga gb s
  | .slt core f gd ga gb => Sys2Proof.Machine.execSlt core f gd ga gb s
  | .sltu core f gd ga gb => Sys2Proof.Machine.execSltu core f gd ga gb s
  | .mul core f gd ga gb => Sys2Proof.Machine.execMul core f gd ga gb s
  | .mulh core f gd ga gb => Sys2Proof.Machine.execMulh core f gd ga gb s
  | .mulhu core f gd ga gb => Sys2Proof.Machine.execMulhu core f gd ga gb s
  | .div core f gd ga gb => Sys2Proof.Machine.execDiv core f gd ga gb s
  | .rem core f gd ga gb => Sys2Proof.Machine.execRem core f gd ga gb s
  | .divu core f gd ga gb => Sys2Proof.Machine.execDivu core f gd ga gb s
  | .remu core f gd ga gb => Sys2Proof.Machine.execRemu core f gd ga gb s
  | .min core f gd ga gb => Sys2Proof.Machine.execMin core f gd ga gb s
  | .max core f gd ga gb => Sys2Proof.Machine.execMax core f gd ga gb s
  | .minu core f gd ga gb => Sys2Proof.Machine.execMinu core f gd ga gb s
  | .maxu core f gd ga gb => Sys2Proof.Machine.execMaxu core f gd ga gb s
  | .clz core f gd ga => Sys2Proof.Machine.execClz core f gd ga s
  | .ctz core f gd ga => Sys2Proof.Machine.execCtz core f gd ga s
  | .popc core f gd ga => Sys2Proof.Machine.execPopc core f gd ga s
  | .bswap core f gd ga => Sys2Proof.Machine.execBswap core f gd ga s
  | .ptest core f gd ga => Sys2Proof.Machine.execPtest core f gd ga s
  | .pclr core f gd ga => Sys2Proof.Machine.execPclr core f gd ga s
  | .jr core f ga => Sys2Proof.Machine.execJr core f ga s
  | .callr core f gd ga => Sys2Proof.Machine.execCallr core f gd ga s
  | .addi core f gd ga imm => Sys2Proof.Machine.execAddi core f gd ga imm s
  | .andi core f gd ga imm => Sys2Proof.Machine.execAndi core f gd ga imm s
  | .ori core f gd ga imm => Sys2Proof.Machine.execOri core f gd ga imm s
  | .xori core f gd ga imm => Sys2Proof.Machine.execXori core f gd ga imm s
  | .slti core f gd ga imm => Sys2Proof.Machine.execSlti core f gd ga imm s
  | .sltiu core f gd ga imm => Sys2Proof.Machine.execSltiu core f gd ga imm s
  | .slli core f gd ga sh => Sys2Proof.Machine.execSlli core f gd ga sh s
  | .srli core f gd ga sh => Sys2Proof.Machine.execSrli core f gd ga sh s
  | .srai core f gd ga sh => Sys2Proof.Machine.execSrai core f gd ga sh s
  | .lui core f gd imm => Sys2Proof.Machine.execLui core f gd imm s
  | .ins32 core f gd ga imm => Sys2Proof.Machine.execIns32 core f gd ga imm s
  | .ins48 core f gd ga imm => Sys2Proof.Machine.execIns48 core f gd ga imm s
  | .muli core f gd ga imm => Sys2Proof.Machine.execMuli core f gd ga imm s
  | .lpa core f gd imm => Sys2Proof.Machine.execLpa core f gd imm s
  | .cmpeqi core f gd ga imm => Sys2Proof.Machine.execCmpeqi core f gd ga imm s
  | .lb core f gd ga imm ecc => Sys2Proof.Machine.execLb core f gd ga imm ecc s
  | .lbu core f gd ga imm ecc => Sys2Proof.Machine.execLbu core f gd ga imm ecc s
  | .lh core f gd ga imm ecc => Sys2Proof.Machine.execLh core f gd ga imm ecc s
  | .lhu core f gd ga imm ecc => Sys2Proof.Machine.execLhu core f gd ga imm ecc s
  | .lw core f gd ga imm ecc => Sys2Proof.Machine.execLw core f gd ga imm ecc s
  | .lwu core f gd ga imm ecc => Sys2Proof.Machine.execLwu core f gd ga imm ecc s
  | .ld core f gd ga imm ecc => Sys2Proof.Machine.execLd core f gd ga imm ecc s
  | .ldr core f gd ga gb ecc => Sys2Proof.Machine.execLdr core f gd ga gb ecc s
  | .sb core f gs ga imm ecc => Sys2Proof.Machine.execSb core f gs ga imm ecc s
  | .sh core f gs ga imm ecc => Sys2Proof.Machine.execSh core f gs ga imm ecc s
  | .sw core f gs ga imm ecc => Sys2Proof.Machine.execSw core f gs ga imm ecc s
  | .sd core f gs ga imm ecc => Sys2Proof.Machine.execSd core f gs ga imm ecc s
  | .sdr core f gs ga gb ecc => Sys2Proof.Machine.execSdr core f gs ga gb ecc s
  | .sdp core f gs ga imm ecc => Sys2Proof.Machine.execSdp core f gs ga imm ecc s
  | .zl core f ga imm ecc => Sys2Proof.Machine.execZl core f ga imm ecc s
  | .beq core f ga gb off => Sys2Proof.Machine.execBeq core f ga gb off s
  | .bne core f ga gb off => Sys2Proof.Machine.execBne core f ga gb off s
  | .blt core f ga gb off => Sys2Proof.Machine.execBlt core f ga gb off s
  | .bge core f ga gb off => Sys2Proof.Machine.execBge core f ga gb off s
  | .bltu core f ga gb off => Sys2Proof.Machine.execBltu core f ga gb off s
  | .bgeu core f ga gb off => Sys2Proof.Machine.execBgeu core f ga gb off s
  | .bpo core f ga off => Sys2Proof.Machine.execBpo core f ga off s
  | .jump core f off => Sys2Proof.Machine.execJump core f off s
  | .call core f off => Sys2Proof.Machine.execCall core f off s
  | .aswap core f gd ga gb ecc => Sys2Proof.Machine.execAswap core f gd ga gb ecc s
  | .aadd core f gd ga gb ecc => Sys2Proof.Machine.execAadd core f gd ga gb ecc s
  | .aand core f gd ga gb ecc => Sys2Proof.Machine.execAand core f gd ga gb ecc s
  | .aor core f gd ga gb ecc => Sys2Proof.Machine.execAor core f gd ga gb ecc s
  | .axor core f gd ga gb ecc => Sys2Proof.Machine.execAxor core f gd ga gb ecc s
  | .amaxu core f gd ga gb ecc => Sys2Proof.Machine.execAmaxu core f gd ga gb ecc s
  | .aminu core f gd ga gb ecc => Sys2Proof.Machine.execAminu core f gd ga gb ecc s
  | .cas core f gd ga gb ecc => Sys2Proof.Machine.execCas core f gd ga gb ecc s
  | .svc core f => Sys2Proof.Machine.execSvc core f s
  | .brk core f => Sys2Proof.Machine.execBrk core f s
  | .leave core f => Sys2Proof.Machine.execLeave core f s
  | .fence core f => Sys2Proof.Machine.execFence core f s
  | .ctlget core f gd cr => Sys2Proof.Machine.execCtlget core f gd cr s
  | .ctlput core f cr ga => Sys2Proof.Machine.execCtlput core f cr ga s
  | .ctlset core f cr ga => Sys2Proof.Machine.execCtlset core f cr ga s
  | .ctlclr core f cr ga => Sys2Proof.Machine.execCtlclr core f cr ga s
  | .csend core f gr ge mbx ecc => Sys2Proof.Machine.execCsend core f gr ge mbx ecc s
  | .csendnb core f gr ge mbx ecc => Sys2Proof.Machine.execCsendnb core f gr ge mbx ecc s
  | .crecv core f gr ge mbx => Sys2Proof.Machine.execCrecv core f gr ge mbx s
  | .crecvnb core f gr ge mbx => Sys2Proof.Machine.execCrecvnb core f gr ge mbx s
  | .cpoll core f gr => Sys2Proof.Machine.execCpoll core f gr s
  | .cwait core f gr ge => Sys2Proof.Machine.execCwait core f gr ge s
  | .tbegin core f => Sys2Proof.Machine.execTbegin core f s
  | .tcommit core f => Sys2Proof.Machine.execTcommit core f s
  | .tabort core f ga => Sys2Proof.Machine.execTabort core f ga s
  | .tresume core f => Sys2Proof.Machine.execTresume core f s
  | .tstate core f gd => Sys2Proof.Machine.execTstate core f gd s
  | .mlook core f gd ga gb dir => Sys2Proof.Machine.execMlook core f gd ga gb dir s
  | .balloc core f gd ga => Sys2Proof.Machine.execBalloc core f gd ga s
  | .bfree core f ga => Sys2Proof.Machine.execBfree core f ga s
  | .bgive core f gd ga gb => Sys2Proof.Machine.execBgive core f gd ga gb s
  | .crcl core f gd ga gb ecc => Sys2Proof.Machine.execCrcl core f gd ga gb ecc s
  | .crcbd core f gd ga gb ecc => Sys2Proof.Machine.execCrcbd core f gd ga gb ecc s
  | .crcd core f gd ga gb => Sys2Proof.Machine.execCrcd core f gd ga gb s
  | .crcw core f gd ga gb => Sys2Proof.Machine.execCrcw core f gd ga gb s
  | .khash core f gd ga gb => Sys2Proof.Machine.execKhash core f gd ga gb s
  | .gfmul core f gd ga gb => Sys2Proof.Machine.execGfmul core f gd ga gb s
  | .gfmulv core f gd ga gb => Sys2Proof.Machine.execGfmulv core f gd ga gb s
  | .fctMbxWrite who core value => Sys2Proof.Machine.execFctMbxWrite who core value s
  | .fctHkeyWrite who slot high value => Sys2Proof.Machine.execFctHkeyWrite who slot high value s
  | .registerWrite who off value => Sys2Proof.Machine.execRegisterWrite who off value s
  | .claspBreak c cause lost => Sys2Proof.Machine.execClaspBreak c cause lost s
  | .clpClose who c => Sys2Proof.Machine.execClpClose who c s
  | .clpOpen who c => Sys2Proof.Machine.execClpOpen who c s
  | .islandLeavesReset c => Sys2Proof.Machine.execIslandLeavesReset c s
  | .closeHandshakeDone c agree => Sys2Proof.Machine.execCloseHandshakeDone c agree s
  | .eventLaneToggle c lane ackEnded => Sys2Proof.Machine.execEventLaneToggle c lane ackEnded s
  | .sqTailDoorbell y value => Sys2Proof.Machine.execSqTailDoorbell y value s
  | .cqHeadDoorbell y value => Sys2Proof.Machine.execCqHeadDoorbell y value s
  | .fetchTurn => Sys2Proof.Machine.execFetchTurn s
  | .sqEntryArrival sq cmd => Sys2Proof.Machine.execSqEntryArrival sq cmd s
  | .dsmRangeListArrival slot ranges err => Sys2Proof.Machine.execDsmRangeListArrival slot ranges err s
  | .hqeDispWrite who entry value => Sys2Proof.Machine.execHqeDispWrite who entry value s
  | .writeDataGrant slot => Sys2Proof.Machine.execWriteDataGrant slot s
  | .writeDataPullDone slot units => Sys2Proof.Machine.execWriteDataPullDone slot units s
  | .repull src slot unit bead => Sys2Proof.Machine.execRepull src slot unit bead s
  | .readData src slot count entries => Sys2Proof.Machine.execReadData src slot count entries s
  | .readTransferDone slot bead errors => Sys2Proof.Machine.execReadTransferDone slot bead errors s
  | .completion src slot status flags dw0 dw1 => Sys2Proof.Machine.execCompletion src slot status flags dw0 dw1 s
  | .completionPost slot => Sys2Proof.Machine.execCompletionPost slot s
  | .ccWrite value aqa => Sys2Proof.Machine.execCcWrite value aqa s
  | .controllerReset cause => Sys2Proof.Machine.execControllerReset cause s
  | .encryptRequest src req errors => Sys2Proof.Machine.execEncryptRequest src req errors s
  | .configRequest access => Sys2Proof.Machine.execConfigRequest access s
  | .pcidLockTimeout => Sys2Proof.Machine.execPcidLockTimeout s
  | .linkStateChange rate width flit l0pw ltssm => Sys2Proof.Machine.execLinkStateChange rate width flit l0pw ltssm s
  | .createIoSq slot => Sys2Proof.Machine.execCreateIoSq slot s
  | .createIoCq slot => Sys2Proof.Machine.execCreateIoCq slot s
  | .deleteIoSq slot => Sys2Proof.Machine.execDeleteIoSq slot s
  | .deleteIoSqDone slot => Sys2Proof.Machine.execDeleteIoSqDone slot s
  | .deleteIoCq slot => Sys2Proof.Machine.execDeleteIoCq slot s
  | .getLogPage slot => Sys2Proof.Machine.execGetLogPage slot s
  | .identify slot => Sys2Proof.Machine.execIdentify slot s
  | .abort slot => Sys2Proof.Machine.execAbort slot s
  | .setFeatures slot => Sys2Proof.Machine.execSetFeatures slot s
  | .powerManagementFeature slot l12 => Sys2Proof.Machine.execPowerManagementFeature slot l12 s
  | .timestampFeature slot beads => Sys2Proof.Machine.execTimestampFeature slot beads s
  | .getFeatures slot => Sys2Proof.Machine.execGetFeatures slot s
  | .asyncEventRequest slot => Sys2Proof.Machine.execAsyncEventRequest slot s
  | .namespaceManagement slot beads => Sys2Proof.Machine.execNamespaceManagement slot beads s
  | .namespaceAttachment slot beads => Sys2Proof.Machine.execNamespaceAttachment slot beads s
  | .firmwareImageDownload slot beads => Sys2Proof.Machine.execFirmwareImageDownload slot beads s
  | .firmwareCommitReplace slot package copies => Sys2Proof.Machine.execFirmwareCommitReplace slot package copies s
  | .firmwareCommitReplaceNext slot package copies => Sys2Proof.Machine.execFirmwareCommitReplaceNext slot package copies s
  | .firmwareCommitNextStart slot readable => Sys2Proof.Machine.execFirmwareCommitNextStart slot readable s
  | .firmwareCommitActivate slot readable => Sys2Proof.Machine.execFirmwareCommitActivate slot readable s
  | .deviceSelfTest slot => Sys2Proof.Machine.execDeviceSelfTest slot s
  | .nvmeMiSend slot => Sys2Proof.Machine.execNvmeMiSend slot s
  | .nvmeMiReceive slot => Sys2Proof.Machine.execNvmeMiReceive slot s
  | .formatNvm slot => Sys2Proof.Machine.execFormatNvm slot s
  | .securitySend slot beads => Sys2Proof.Machine.execSecuritySend slot beads s
  | .securityReceive slot => Sys2Proof.Machine.execSecurityReceive slot s
  | .sanitizeBlockErase slot => Sys2Proof.Machine.execSanitizeBlockErase slot s
  | .sanitizeOverwrite slot => Sys2Proof.Machine.execSanitizeOverwrite slot s
  | .sanitizeCryptoErase slot => Sys2Proof.Machine.execSanitizeCryptoErase slot s
  | .sanitizeExitFailureMode slot => Sys2Proof.Machine.execSanitizeExitFailureMode slot s
  | .scheduledActivation slot readable => Sys2Proof.Machine.execScheduledActivation slot readable s
  | .scheduledActivationCancel slot => Sys2Proof.Machine.execScheduledActivationCancel slot s
  | .nvmFlush slot => Sys2Proof.Machine.execNvmFlush slot s
  | .nvmWrite slot beads directAt stagingAt => Sys2Proof.Machine.execNvmWrite slot beads directAt stagingAt s
  | .nvmRead slot reads mirrorAt => Sys2Proof.Machine.execNvmRead slot reads mirrorAt s
  | .writeUncorrectable slot => Sys2Proof.Machine.execWriteUncorrectable slot s
  | .nvmCompare slot beads reads => Sys2Proof.Machine.execNvmCompare slot beads reads s
  | .writeZeroes slot => Sys2Proof.Machine.execWriteZeroes slot s
  | .datasetManagement slot => Sys2Proof.Machine.execDatasetManagement slot s
  | .nvmVerify slot reads => Sys2Proof.Machine.execNvmVerify slot reads s
  | .bpmEnable who => Sys2Proof.Machine.execBpmEnable who s
  | .freelistReady => Sys2Proof.Machine.execFreelistReady s
  | .bpmRetireWrite who bead => Sys2Proof.Machine.execBpmRetireWrite who bead s
  | .beadCopy src fromBead toBead mbx errors => Sys2Proof.Machine.execBeadCopy src fromBead toBead mbx errors s
  | .mapFilled who mpn => Sys2Proof.Machine.execMapFilled who mpn s
  | .mapBuilt who mpn => Sys2Proof.Machine.execMapBuilt who mpn s
  | .mapAbandon who mpn => Sys2Proof.Machine.execMapAbandon who mpn s
  | .mapSnap who mpn => Sys2Proof.Machine.execMapSnap who mpn s
  | .mapCopied who mpn => Sys2Proof.Machine.execMapCopied who mpn s
  | .mapWritten who mpn => Sys2Proof.Machine.execMapWritten who mpn s
  | .mapEvict who mpn => Sys2Proof.Machine.execMapEvict who mpn s
  | .mapPrefetch who mpn => Sys2Proof.Machine.execMapPrefetch who mpn s
  | .mapReinit who mpn => Sys2Proof.Machine.execMapReinit who mpn s
  | .mapWriteback mpn place => Sys2Proof.Machine.execMapWriteback mpn place s
  | .journalFlushStart => Sys2Proof.Machine.execJournalFlushStart s
  | .journalFlushDurable => Sys2Proof.Machine.execJournalFlushDurable s
  | .mapTableSnapshot => Sys2Proof.Machine.execMapTableSnapshot s
  | .fold place warned => Sys2Proof.Machine.execFold place warned s
  | .reclamation place warned => Sys2Proof.Machine.execReclamation place warned s
  | .bandRefreshDue band => Sys2Proof.Machine.execBandRefreshDue band s
  | .blockRelocation block place warned => Sys2Proof.Machine.execBlockRelocation block place warned s
  | .blockErase block good => Sys2Proof.Machine.execBlockErase block good s
  | .sketchClear => Sys2Proof.Machine.execSketchClear s
  | .hotCacheEvict ns unit => Sys2Proof.Machine.execHotCacheEvict ns unit s
  | .wearStageRise => Sys2Proof.Machine.execWearStageRise s
  | .wearSummary => Sys2Proof.Machine.execWearSummary s
  | .recovery bad warned failed rebuilt again => Sys2Proof.Machine.execRecovery bad warned failed rebuilt again s
  | .mapPageReplay mpn => Sys2Proof.Machine.execMapPageReplay mpn s
  | .pfailNAssert => Sys2Proof.Machine.execPfailNAssert s
  | .pfailNRelease => Sys2Proof.Machine.execPfailNRelease s
  | .pfailNStuck => Sys2Proof.Machine.execPfailNStuck s
  | .psqBringUp who q => Sys2Proof.Machine.execPsqBringUp who q s
  | .psqApplyRate who q mode mts => Sys2Proof.Machine.execPsqApplyRate who q mode mts s
  | .psqTrainFull who q => Sys2Proof.Machine.execPsqTrainFull who q s
  | .psqRetrim who q => Sys2Proof.Machine.execPsqRetrim who q s
  | .retrimPeriodic q => Sys2Proof.Machine.execRetrimPeriodic q s
  | .retrimTemperature q => Sys2Proof.Machine.execRetrimTemperature q s
  | .trainingDone q good ceok luns => Sys2Proof.Machine.execTrainingDone q good ceok luns s
  | .psqRead q lookup => Sys2Proof.Machine.execPsqRead q lookup s
  | .psqProg q => Sys2Proof.Machine.execPsqProg q s
  | .psqErase q => Sys2Proof.Machine.execPsqErase q s
  | .psqFeats q => Sys2Proof.Machine.execPsqFeats q s
  | .psqFeatg q => Sys2Proof.Machine.execPsqFeatg q s
  | .psqStatus q => Sys2Proof.Machine.execPsqStatus q s
  | .psqResetLun q => Sys2Proof.Machine.execPsqResetLun q s
  | .psqParam q => Sys2Proof.Machine.execPsqParam q s
  | .psqCustomer q => Sys2Proof.Machine.execPsqCustomer q s
  | .dieOperationComplete q lun busyNs pass data errors => Sys2Proof.Machine.execDieOperationComplete q lun busyNs pass data errors s
  | .planeHoldTimeout q lun => Sys2Proof.Machine.execPlaneHoldTimeout q lun s
  | .dieTimeout q lun resetOk => Sys2Proof.Machine.execDieTimeout q lun resetOk s
  | .sequencerFailure q => Sys2Proof.Machine.execSequencerFailure q s
  | .spareLoadDone q good => Sys2Proof.Machine.execSpareLoadDone q good s
  | .microNext q seen expired status => Sys2Proof.Machine.execMicroNext q seen expired status s
  | .microBr q seen expired status => Sys2Proof.Machine.execMicroBr q seen expired status s
  | .microWait q seen expired status => Sys2Proof.Machine.execMicroWait q seen expired status s
  | .microLoop q seen expired status => Sys2Proof.Machine.execMicroLoop q seen expired status s
  | .microFar q seen expired status => Sys2Proof.Machine.execMicroFar q seen expired status s
  | .microCall q seen expired status => Sys2Proof.Machine.execMicroCall q seen expired status s
  | .microRet q seen expired status => Sys2Proof.Machine.execMicroRet q seen expired status s
  | .microEnd q seen expired status => Sys2Proof.Machine.execMicroEnd q seen expired status s
  | .slotCapture chan bytes => Sys2Proof.Machine.execSlotCapture chan bytes s
  | .slotDecodeDone chan full => Sys2Proof.Machine.execSlotDecodeDone chan full s
  | .asyRecord ecc => Sys2Proof.Machine.execAsyRecord ecc s
  | .asyLoad who => Sys2Proof.Machine.execAsyLoad who s
  | .asyLoadDone => Sys2Proof.Machine.execAsyLoadDone s
  | .asySnap who => Sys2Proof.Machine.execAsySnap who s
  | .asySnapDone => Sys2Proof.Machine.execAsySnapDone s
  | .asyAcq who => Sys2Proof.Machine.execAsyAcq who s
  | .asyFreeze who allg => Sys2Proof.Machine.execAsyFreeze who allg s
  | .asyThaw who allg => Sys2Proof.Machine.execAsyThaw who allg s
  | .asyReseed who allg => Sys2Proof.Machine.execAsyReseed who allg s
  | .parEnc errors => Sys2Proof.Machine.execParEnc errors s
  | .parRec1 errors => Sys2Proof.Machine.execParRec1 errors s
  | .parRec2 errors => Sys2Proof.Machine.execParRec2 errors s
  | .parCheck errors => Sys2Proof.Machine.execParCheck errors s
  | .parJobDone => Sys2Proof.Machine.execParJobDone s
  | .lunOfflineTimeout die => Sys2Proof.Machine.execLunOfflineTimeout die s
  | .stripeRepair places warned => Sys2Proof.Machine.execStripeRepair places warned s
  | .rebuild places warned => Sys2Proof.Machine.execRebuild places warned s
  | .reshape target places warned => Sys2Proof.Machine.execReshape target places warned s
  | .patrolLap found => Sys2Proof.Machine.execPatrolLap found s
  | .rangePass first last found => Sys2Proof.Machine.execRangePass first last found s
  | .stripeJournalWrite failed die => Sys2Proof.Machine.execStripeJournalWrite failed die s
  | .scrubAccess place ecc => Sys2Proof.Machine.execScrubAccess place ecc s
  | .mecDmarkWrite who value => Sys2Proof.Machine.execMecDmarkWrite who value s
  | .ceSummary => Sys2Proof.Machine.execCeSummary s
  | .scrubLapWarning dram => Sys2Proof.Machine.execScrubLapWarning dram s
  | .stallReport place => Sys2Proof.Machine.execStallReport place s
  | .fltDeclWrite who core => Sys2Proof.Machine.execFltDeclWrite who core s
  | .ddr5RetrainDone chan => Sys2Proof.Machine.execDdr5RetrainDone chan s
  | .injectorArm who inj value => Sys2Proof.Machine.execInjectorArm who inj value s
  | .injectorTick inj => Sys2Proof.Machine.execInjectorTick inj s
  | .svcRandom src => Sys2Proof.Machine.execSvcRandom src s
  | .svcSecsend src => Sys2Proof.Machine.execSvcSecsend src s
  | .svcSecrecv src => Sys2Proof.Machine.execSvcSecrecv src s
  | .svcMgmt src => Sys2Proof.Machine.execSvcMgmt src s
  | .svcNskey src => Sys2Proof.Machine.execSvcNskey src s
  | .svcSanstep src ok bad ats => Sys2Proof.Machine.execSvcSanstep src ok bad ats s
  | .svcReload src => Sys2Proof.Machine.execSvcReload src s
  | .svcSelftest src failed => Sys2Proof.Machine.execSvcSelftest src failed s
  | .svcReady src => Sys2Proof.Machine.execSvcReady src s
  | .entropyHealthFail => Sys2Proof.Machine.execEntropyHealthFail s
  | .opalStartSession authority pin write => Sys2Proof.Machine.execOpalStartSession authority pin write s
  | .opalMethod m => Sys2Proof.Machine.execOpalMethod m s
  | .opalSessionTimeout => Sys2Proof.Machine.execOpalSessionTimeout s
  | .ksOpen via keyId privs nr => Sys2Proof.Machine.execKsOpen via keyId privs nr s
  | .ksProve via proof => Sys2Proof.Machine.execKsProve via proof s
  | .ksClose via seq macOk => Sys2Proof.Machine.execKsClose via seq macOk s
  | .ksIdleTimeout => Sys2Proof.Machine.execKsIdleTimeout s
  | .ksLifetimeExpiry => Sys2Proof.Machine.execKsLifetimeExpiry s
  | .ksLogRead via seq macOk lid lsp rae off len => Sys2Proof.Machine.execKsLogRead via seq macOk lid lsp rae off len s
  | .ksDrain via seq macOk => Sys2Proof.Machine.execKsDrain via seq macOk s
  | .ksRelease via seq macOk => Sys2Proof.Machine.execKsRelease via seq macOk s
  | .ksInject via seq macOk setting => Sys2Proof.Machine.execKsInject via seq macOk setting s
  | .ksEnrol via seq macOk what => Sys2Proof.Machine.execKsEnrol via seq macOk what s
  | .ksRevoke via seq macOk id => Sys2Proof.Machine.execKsRevoke via seq macOk id s
  | .ksApprovedMode via seq macOk on => Sys2Proof.Machine.execKsApprovedMode via seq macOk on s
  | .ksZeroise via seq macOk => Sys2Proof.Machine.execKsZeroise via seq macOk s
  | .ksPsidRead via seq macOk => Sys2Proof.Machine.execKsPsidRead via seq macOk s
  | .spdmGetVersion via => Sys2Proof.Machine.execSpdmGetVersion via s
  | .spdmGetCapabilities via version => Sys2Proof.Machine.execSpdmGetCapabilities via version s
  | .spdmNegotiateAlgorithms via asym hash => Sys2Proof.Machine.execSpdmNegotiateAlgorithms via asym hash s
  | .spdmGetDigests via => Sys2Proof.Machine.execSpdmGetDigests via s
  | .spdmGetCertificate via slot off len => Sys2Proof.Machine.execSpdmGetCertificate via slot off len s
  | .spdmChallenge via slot nonce summary => Sys2Proof.Machine.execSpdmChallenge via slot nonce summary s
  | .spdmGetMeasurements via index signed nonce => Sys2Proof.Machine.execSpdmGetMeasurements via index signed nonce s
  | .spdmSetCertificate via slot chain leafOk => Sys2Proof.Machine.execSpdmSetCertificate via slot chain leafOk s
  | .corePark core => Sys2Proof.Machine.execCorePark core s
  | .activationDrainTimeout => Sys2Proof.Machine.execActivationDrainTimeout s
  | .activationRelease seqFailed recordOk => Sys2Proof.Machine.execActivationRelease seqFailed recordOk s
  | .scheduledActivationTime => Sys2Proof.Machine.execScheduledActivationTime s
  | .romBegin via len target => Sys2Proof.Machine.execRomBegin via len target s
  | .romData via off len => Sys2Proof.Machine.execRomData via off len s
  | .romEnd via package => Sys2Proof.Machine.execRomEnd via package s
  | .romStatus via => Sys2Proof.Machine.execRomStatus via s
  | .romReset via report => Sys2Proof.Machine.execRomReset via report s
  | .romPackageWritten good copies => Sys2Proof.Machine.execRomPackageWritten good copies s
  | .locketWindowLoad core f gd ga imm ecc => Sys2Proof.Machine.execLocketWindowLoad core f gd ga imm ecc s
  | .lktUnlock who value => Sys2Proof.Machine.execLktUnlock who value s
  | .lktSequenceTimeout signet => Sys2Proof.Machine.execLktSequenceTimeout signet s
  | .lktProgram who value => Sys2Proof.Machine.execLktProgram who value s
  | .lktProgramDone verified => Sys2Proof.Machine.execLktProgramDone verified s
  | .lktErase who value => Sys2Proof.Machine.execLktErase who value s
  | .lktEraseDone good => Sys2Proof.Machine.execLktEraseDone good s
  | .lktEraseResume => Sys2Proof.Machine.execLktEraseResume s
  | .lktCheck who value ecc => Sys2Proof.Machine.execLktCheck who value ecc s
  | .lktWaitUpdate who period valid vaon => Sys2Proof.Machine.execLktWaitUpdate who period valid vaon s
  | .locketScan found => Sys2Proof.Machine.execLocketScan found s
  | .pwrSleepGo who value => Sys2Proof.Machine.execPwrSleepGo who value s
  | .sleepEntryOverrun => Sys2Proof.Machine.execSleepEntryOverrun s
  | .wakeManagementBus bytes => Sys2Proof.Machine.execWakeManagementBus bytes s
  | .wakePcie => Sys2Proof.Machine.execWakePcie s
  | .wakeAlarm => Sys2Proof.Machine.execWakeAlarm s
  | .wakePowerGood mv => Sys2Proof.Machine.execWakePowerGood mv s
  | .wakeCrystalStable count report => Sys2Proof.Machine.execWakeCrystalStable count report s
  | .wakeAttemptFail count report => Sys2Proof.Machine.execWakeAttemptFail count report s
  | .padHoldRelease who value => Sys2Proof.Machine.execPadHoldRelease who value s
  | .tmrStampWrite who value => Sys2Proof.Machine.execTmrStampWrite who value s
  | .evrLogMessage src mbx sub payload => Sys2Proof.Machine.execEvrLogMessage src mbx sub payload s
  | .evrContinuationTimeout src => Sys2Proof.Machine.execEvrContinuationTimeout src s
  | .evrEnable who => Sys2Proof.Machine.execEvrEnable who s
  | .counterCodewordWrite => Sys2Proof.Machine.execCounterCodewordWrite s
  | .logSnapshotExpiry mgmt => Sys2Proof.Machine.execLogSnapshotExpiry mgmt s
  | .lifetimeCountSave => Sys2Proof.Machine.execLifetimeCountSave s
  | .alertResponseRead => Sys2Proof.Machine.execAlertResponseRead s
  | .mctpSetEndpointId op eid => Sys2Proof.Machine.execMctpSetEndpointId op eid s
  | .mctpGetEndpointId => Sys2Proof.Machine.execMctpGetEndpointId s
  | .mctpGetVersionSupport type => Sys2Proof.Machine.execMctpGetVersionSupport type s
  | .mctpGetMessageTypeSupport => Sys2Proof.Machine.execMctpGetMessageTypeSupport s
  | .mctpGetVendorMessageSupport selector => Sys2Proof.Machine.execMctpGetVendorMessageSupport selector s
  | .miReadDataStructure nmd0 => Sys2Proof.Machine.execMiReadDataStructure nmd0 s
  | .miSubsystemHealthPoll => Sys2Proof.Machine.execMiSubsystemHealthPoll s
  | .miControllerHealthPoll nmd0 => Sys2Proof.Machine.execMiControllerHealthPoll nmd0 s
  | .miConfigurationGet nmd0 => Sys2Proof.Machine.execMiConfigurationGet nmd0 s
  | .miConfigurationSet nmd0 nmd1 => Sys2Proof.Machine.execMiConfigurationSet nmd0 nmd1 s
  | .miTunnelledAdmin cmd => Sys2Proof.Machine.execMiTunnelledAdmin cmd s
  | .thermalLimit composite => Sys2Proof.Machine.execThermalLimit composite s
  | .thermalTrip => Sys2Proof.Machine.execThermalTrip s
  | .nvmSubsystemReset report => Sys2Proof.Machine.execNvmSubsystemReset report s
  | .hostReadError target error => Sys2Proof.Machine.execHostReadError target error s
  | .completionTimeout target => Sys2Proof.Machine.execCompletionTimeout target s
  | .interruptCoalescingTime vector => Sys2Proof.Machine.execInterruptCoalescingTime vector s
  | .directGroupTimeout places => Sys2Proof.Machine.execDirectGroupTimeout places s
  | .stagingStripeTimeout place => Sys2Proof.Machine.execStagingStripeTimeout place s
  | .healthSummary src => Sys2Proof.Machine.execHealthSummary src s
  | .vlktRestored mv => Sys2Proof.Machine.execVlktRestored mv s
  | .mbTransactionDuringWake => Sys2Proof.Machine.execMbTransactionDuringWake s
  | .nvmeMiInvalidOpcode op tunnelled => Sys2Proof.Machine.execNvmeMiInvalidOpcode op tunnelled s

end Sys2Proof.Machine
end

