-- ==== Sys2Proof/Machine/Idle.lean ====
section
/-! DEFINITION. What the block does while no command waits: one tick of its clock (R64, R113; log entry 2). -/

namespace Sys2Proof.Machine

open Sys2Proof

/-- The sequencers, the Locket and the firmware's work in progress go on. -/
def State.goesOn (s : State) : State :=
  let s := s.seqs.foldl (fun (t : State) (e : Nat × Seq) => t.psqRun e.1) s
  s.recorderOp.lkRun.fwAdvance

/-- One tick: 40 ns pass and the work in progress goes on. Asleep or waking the counter stands, and the sleep is counted when
the wake completes (R541; log entry 2). -/
def State.idleTick (s : State) : State :=
  if 2 ≤ s.fld fPWR_STAT_STATE then s
  else { s with now := (s.now + 40) % 2 ^ 64 }.goesOn

end Sys2Proof.Machine
end

