-- ==== Sys2Proof/Machine/Step.lean ====
section
/-! DEFINITION. One step: the command at the front of the queue, or the passage of time where none waits. -/

namespace Sys2Proof.Machine

open Sys2Proof

/-- One step of the block (95_what_each_step_holds.md): the command at the front of the queue has its effect on the state with
the queue's rest; where no command waits, the block goes on by one tick of 40 ns (log entry 2). -/
def step (s : State) : Host.Outcome State Fault Refusal :=
  match s.pending with
  | [] => .next s.idleTick
  | c :: rest => exec c { s with pending := rest }

/-- The rows of spec/opcode_table.json give no bits, so no word puts a command in front of the queue. -/
def State.withFetchWord (s : State) (nbits w : Nat) : State :=
  match decodeTableWord nbits w with
  | some c => { s with pending := c :: s.pending }
  | none => s

end Sys2Proof.Machine
end

