-- ==== Sys2Proof/Safety.lean ====
section
/-! DEFINITION. The terms of the claims: when the memory is in its one canonical form, what counts as one Facet instruction's
whole effect, and what a step leaves alone. -/

namespace Sys2Proof.Machine

open Sys2Proof

/-- The memory is in canonical form: written bytes, poison marks and region tags each in strictly rising order, no tag of the
Strong code's region 0 listed. -/
def Mem.wf (m : Mem) : Bool := tabWf m.cells && tabWf m.poison && tabWf m.tags && m.tags.all fun e => e.2 != 0

/-! ### One Facet core -/

/-- From `s` to `t` nothing changes but core `n`. -/
def OnlyCore (s t : State) (n : Nat) : Prop :=
  (∀ m, m ≠ n → t.core m = s.core m) ∧ t = { s with cores := t.cores }

/-- Core `n` completes an instruction: control goes to `pc`, `icount` counts it, `hstat.BPSUP` clears; nothing else changes but,
where the instruction writes one, a general register (R47, R64, R70). -/
def Completes (s t : State) (n pc : Nat) : Prop :=
  OnlyCore s t n ∧
    t.core n = { s.core n with
      pc := pc
      wild := none
      g := (t.core n).g
      cr := { (s.core n).cr with
        icount := (s.core n).cr.icount + 1
        hstat := setBits (s.core n).cr.hstat 1 1 0 } }

/-- General register `r` of core `n` takes a value and a poison bit, `g0` staying zero; every other register keeps its own
(R45). -/
def Writes (s t : State) (n r : Nat) (v : Word) (poison : Bool) : Prop :=
  (t.core n).get r = (if r = 0 then ⟨0#64, false⟩ else ⟨v, poison⟩) ∧
    ∀ q, q ≠ r → (t.core n).get q = (s.core n).get q

/-- No general register of core `n` changes. -/
def WritesNone (s t : State) (n : Nat) : Prop := ∀ q, (t.core n).get q = (s.core n).get q

/-- The whole effect of an instruction that writes `gd` and goes on to the next one. -/
def Result (s t : State) (n gd : Nat) (v : Word) (poison : Bool) : Prop :=
  Writes s t n gd v poison ∧ Completes s t n ((s.core n).pc + 4)

/-- The whole effect of an instruction that only sends control to `pc`. -/
def Jumps (s t : State) (n pc : Nat) : Prop := WritesNone s t n ∧ Completes s t n pc

/-- Core `n` completes an instruction that sends control to the address `a` in a register: the program counter takes bits [39:2] of it,
and a target outside the instruction store is kept whole for the fault at its fetch (R46, R50; the model's reading, log entry 20). -/
def GoesTo (s t : State) (n : Nat) (a : Word) : Prop :=
  OnlyCore s t n ∧
    t.core n = { s.core n with
      pc := a.toNat % 2 ^ 40 / 4 * 4
      wild := if a.toNat < 0x10000 then none else some a.toNat
      g := (t.core n).g
      cr := { (s.core n).cr with
        icount := (s.core n).cr.icount + 1
        hstat := setBits (s.core n).cr.hstat 1 1 0 } }

/-- Core `n` runs no handler and no transaction. -/
def Plain (s : State) (n : Nat) : Prop := (s.core n).inTrap = false ∧ (s.core n).tx.isOpen = false

/-- The whole effect of taking a trap other than an abort, outside a handler and a transaction (R66, R67, R69). -/
def Traps (s t : State) (n code detail info : Nat) (async : Bool) : Prop :=
  OnlyCore s t n ∧
    t.core n = { s.core n with
      status := .running
      wild := none
      pc := bits (s.core n).cr.hbase 10 6 * 0x400 + code * 0x40
      cr := { (s.core n).cr with
        hresume := BitVec.ofNat 64 (((if code = 0x0A then (s.core n).pc + 4 else (s.core n).pc) % 2 ^ 40) / 4 * 4)
        hcode := BitVec.ofNat 64 (detail * 2 ^ 16 + code * 2 ^ 8 + b2n async)
        hinfo := BitVec.ofNat 64 info
        hstat := setBits (s.core n).cr.hstat 0 1 1 } }

/-- Core `n` is about to execute: it runs, no injector stalls it, no breakpoint matches, and control has come to a word of the
instruction store whose double is not marked poisoned. -/
def Ready (s : State) (n : Nat) : Prop :=
  (s.core n).status = .running ∧ (s.core n).stallBy = none ∧ (s.core n).bpHit = false ∧ (s.core n).wild = none ∧ (s.core n).pc < 0x10000 ∧
    (s.core n).pc % 4 = 0 ∧ s.fetchPoison n = false

/-- The fetch of core `n`, on which the memory code yields `f`, lets the instruction execute in state `u`. -/
def Fetches (s u : State) (n : Nat) (f : Ecc) : Prop := s.gate n f = (u, true)

end Sys2Proof.Machine
end

