-- ==== Sys2Proof/Certificates/Slice0/Obligations.lean ====
section
/-! DEFINITION. The statements for the provers, and the tables that they go through. Each names the rules that it formalises. -/

open Sys2Proof Sys2Proof.Machine

/-! ### The queue -/

/-- O: the block's form. With a command at the front of the queue, a step is `exec` of it on the state with the queue's rest. -/
def Claims.stepRunsTheFrontCommand : Prop :=
  ∀ (s : State) (c : Instr) (rest : List Instr),
    s.pending = c :: rest → step s = exec c { s with pending := rest }

/-- With no command waiting, a step answers a next state: asleep or waking, the state itself; else the clock has gone on by 40 ns
before the work in progress goes on (the model's choice, log entry 2). -/
def Claims.stepOnAnEmptyQueue : Prop :=
  ∀ s : State, s.pending = [] →
    (2 ≤ s.fld fPWR_STAT_STATE → step s = .next s) ∧
      (s.fld fPWR_STAT_STATE < 2 → step s = .next { s with now := (s.now + 40) % 2 ^ 64 }.goesOn)

/-- The block's form: a step is `exec` of the command at the front of the queue on the state with the queue's rest, and on an
empty queue one tick of the clock (the model's choice, log entry 2). -/
def Obligations.StepRunsTheFrontCommandOrTicks : Prop :=
  Claims.stepRunsTheFrontCommand ∧ Claims.stepOnAnEmptyQueue

/-! ### The words of the Facet instructions -/

/-- R53 to R55, R57, R58, R61 to R63, R80, R85, R92: words written out from the encodings decode to their instructions. -/
def Claims.wordsDecodeToTheirInstructions : Prop :=
  ∀ (n : CoreId) (f e : Ecc),
    facetOf n f e 0x04A3FFFC#32 = some (.addi n f 5 3 0xFFFC#16) ∧
    facetOf n f e 0xF86000D0#32 = some (.ctlget n f 3 3#5) ∧
    facetOf n f e 0b000000_00001_00010_00011_00000000001#32 = some (.sub n f 1 2 3) ∧
    facetOf n f e 0b010110_00111_00110_0000000000000000#32 = some (.ld n f 7 6 0#16 e) ∧
    facetOf n f e 0b011011_01000_01001_0000000000010000#32 = some (.sd n f 8 9 16#16 e) ∧
    facetOf n f e 0b100001_00100_00101_1111111111111111#32 = some (.bne n f 4 5 0xFFFF#16) ∧
    facetOf n f e 0b101001_00000000000000000000000010#32 = some (.call n f 2#26) ∧
    facetOf n f e 0b110000_00001_00010_00011_00000001000#32 = some (.cas n f 1 2 3 e) ∧
    facetOf n f e 0b110100_00001_00010_00000_00000000001#32 = some (.balloc n f 1 2) ∧
    facetOf n f e 0b111000_00000_00000_00000_00000000001#32 = some (.tcommit n f) ∧
    facetOf n f e 0b111100_00010_00011_0101_000000010000#32 = some (.crecv n f 2 3 5#4)

/-- R53, R54: the word that an instruction stands for decodes to it, with every operand at every value; and every word that
decodes is the word of its instruction, so that no bit of a word is dropped. -/
def Obligations.FacetWordsDecodeAndEncodeAgree : Prop :=
  (∀ (i : Instr) (w : BitVec 32), facetWord i = some w → ∃ n f e, facetOf n f e w = some i) ∧
    ∀ (n : CoreId) (f e : Ecc) (w : BitVec 32) (i : Instr), facetOf n f e w = some i → facetWord i = some w

/-- R54, R67: a word is either an instruction of a core or illegal, never both; an illegal one is the event ILLEGAL_OPCODE, and a
word that spells an instruction is none. -/
def Claims.everyWordIsAnInstructionOrIllegal : Prop :=
  ∀ (n : CoreId) (f e : Ecc) (w : BitVec 32) (s : State),
    ((facetOf n f e w).isSome ↔ illegalDetail w = none) ∧
      (exec (.illegalOpcode n f w) s = .fault (.malformed "ILLEGAL_OPCODE") ↔ (facetOf n f e w).isSome)

/-- R53 to R55, R57, R58, R61 to R63, R67, R80, R85, R92: words written out from the encodings decode to their instructions, and every
word is an instruction of a core or illegal, never both. -/
def Obligations.WordsDecodeOrAreIllegal : Prop :=
  Claims.wordsDecodeToTheirInstructions ∧ Claims.everyWordIsAnInstructionOrIllegal

/-! ### Fetch and traps -/

/-- R50, R70, R72, R75: what the fetch of a core that runs meets, in R72's order. -/
def Obligations.FetchTakesTheFirstTrapInOrder : Prop :=
  ∀ (s : State) (n : CoreId), (s.core n).status = .running → (s.core n).stallBy = none → Plain s n →
    let pc := (s.core n).pc
    (Ready s n → Fetches s s n .clean) ∧
    ((s.core n).bpHit = true → ∀ f, ∃ t, s.gate n f = (t, false) ∧ Traps s t n 0x09 2 pc false) ∧
    ((s.core n).bpHit = false → ((s.core n).wild.isSome ∨ 0x10000 ≤ pc) → ∀ f, ∃ t, s.gate n f = (t, false) ∧
      Traps s t n 0x05 8 ((s.core n).wild.getD pc) false) ∧
    ((s.core n).bpHit = false → (s.core n).wild = none → pc < 0x10000 → s.fetchPoison n = true →
      ∃ t, s.gate n .clean = (t, false) ∧ Traps s t n 0x02 0 pc false)

/-- R54, R67, R69: an illegal word takes trap 0x01 with the word in `hinfo`. -/
def Claims.illegalWordTraps : Prop :=
  ∀ (s u : State) (n : CoreId) (f : Ecc) (w : BitVec 32) (d : Nat),
    Fetches s u n f → Plain u n → illegalDetail w = some d →
      ∃ t, exec (.illegalOpcode n f w) s = .next t ∧ Traps u t n 0x01 d w.toNat false

/-- R71: a trap while `INTRAP` is 1 is a double trap: with no spare left the core's failure is fatal, with `CSTS.CFS` set; it
enters no handler. -/
def Claims.doubleTrapStopsTheCore : Prop :=
  ∀ (s u : State) (n : CoreId) (f : Ecc) (w : BitVec 32),
    Fetches s u n f → (u.core n).inTrap = true → (illegalDetail w).isSome →
    bit (u.reg rFCT_SPARE) (8 * ((n : Nat) / 9) + 7) = false →
      ∃ t, exec (.illegalOpcode n f w) s = .next t ∧ (t.core n).status = .stopped ∧ (t.core n).pc = (u.core n).pc ∧
        t.hqe.cfs = true ∧ t.fld fFLT_STAT_FATAL = 1

/-- R54, R67, R69, R71: an illegal word traps, and a trap in a handler stops the core. -/
def Obligations.IllegalWordsAndDoubleTraps : Prop :=
  Claims.illegalWordTraps ∧ Claims.doubleTrapStopsTheCore

/-! ### Register and immediate instructions -/

/-- The two-operand functions of major 0x00 with their results (R55), division apart. -/
def Claims.aluTable : List ((CoreId → Ecc → RegIdx → RegIdx → RegIdx → Instr) × (Word → Word → Word)) :=
  [(.add, fun a b => a + b), (.sub, fun a b => a - b), (.and, fun a b => a &&& b), (.or, fun a b => a ||| b),
   (.xor, fun a b => a ^^^ b), (.nor, fun a b => ~~~(a ||| b)), (.sll, fun a b => a <<< (b.toNat % 64)),
   (.srl, fun a b => a >>> (b.toNat % 64)), (.sra, fun a b => a.sshiftRight (b.toNat % 64)),
   (.rol, fun a b => a.rotateLeft (b.toNat % 64)), (.slt, fun a b => if a.toInt < b.toInt then 1#64 else 0#64),
   (.sltu, fun a b => if a.toNat < b.toNat then 1#64 else 0#64), (.mul, fun a b => a * b),
   (.mulh, fun a b => BitVec.ofInt 64 (a.toInt * b.toInt / 2 ^ 64)),
   (.mulhu, fun a b => BitVec.ofNat 64 (a.toNat * b.toNat / 2 ^ 64)),
   (.min, fun a b => if a.toInt < b.toInt then a else b), (.max, fun a b => if a.toInt < b.toInt then b else a),
   (.minu, fun a b => if a.toNat < b.toNat then a else b), (.maxu, fun a b => if a.toNat < b.toNat then b else a)]

/-- R55, R73: each two-operand function writes its result to `gd`, poisoned if an operand is, and goes on to the next
instruction, changing nothing else. -/
def Claims.registerAluResults : Prop :=
  ∀ (s u : State) (n : CoreId) (f : Ecc) (gd ga gb : RegIdx), Fetches s u n f →
    ∀ r ∈ Claims.aluTable, ∃ t, exec (r.1 n f gd ga gb) s = .next t ∧
      Result u t n gd (r.2 (u.gv n ga) (u.gv n gb)) (u.gp n ga || u.gp n gb)

/-- R55, R73: the unary functions. `clz` counts the leading zeros, `ctz` the trailing zeros, `popc` the ones, `bswap` reverses the
bytes; `ptest` and `pclr` give results that are never poisoned. -/
def Claims.unaryAluResults : Prop :=
  ∀ (s u : State) (n : CoreId) (f : Ecc) (gd ga : RegIdx), Fetches s u n f →
    (∃ t v, exec (.clz n f gd ga) s = .next t ∧ Result u t n gd (BitVec.ofNat 64 v) (u.gp n ga) ∧ v ≤ 64 ∧
      (∀ i, i < v → bit (u.gv n ga) (63 - i) = false) ∧ (v < 64 → bit (u.gv n ga) (63 - v) = true)) ∧
    (∃ t v, exec (.ctz n f gd ga) s = .next t ∧ Result u t n gd (BitVec.ofNat 64 v) (u.gp n ga) ∧ v ≤ 64 ∧
      (∀ i, i < v → bit (u.gv n ga) i = false) ∧ (v < 64 → bit (u.gv n ga) v = true)) ∧
    (∃ t, exec (.popc n f gd ga) s = .next t ∧
      Result u t n gd (BitVec.ofNat 64 ((List.range 64).filter fun i => bit (u.gv n ga) i).length) (u.gp n ga)) ∧
    (∃ t v, exec (.bswap n f gd ga) s = .next t ∧ Result u t n gd v (u.gp n ga) ∧
      ∀ i, i < 8 → bits v (8 * i) 8 = bits (u.gv n ga) (8 * (7 - i)) 8) ∧
    (∃ t, exec (.ptest n f gd ga) s = .next t ∧ Result u t n gd (if u.gp n ga then 1#64 else 0#64) false) ∧
    ∃ t, exec (.pclr n f gd ga) s = .next t ∧ Result u t n gd (u.gv n ga) false

/-- R55, R73: the register functions of major 0x00, division and the jumps apart. -/
def Obligations.AluResults : Prop :=
  Claims.registerAluResults ∧ Claims.unaryAluResults

/-- R56, R73: the four divisions, which never trap: a zero divisor gives a zero quotient and leaves the dividend, the one signed
overflow saturates the quotient, and in every case a = quotient * b + remainder modulo 2^64. -/
def Obligations.DivisionNeverTraps : Prop :=
  ∀ (s u : State) (n : CoreId) (f : Ecc) (gd ga gb : RegIdx), Fetches s u n f →
    ∃ q r qu ru : Word,
      let a := u.gv n ga
      let b := u.gv n gb
      let p := u.gp n ga || u.gp n gb
      (∃ t, exec (.div n f gd ga gb) s = .next t ∧ Result u t n gd q p) ∧
      (∃ t, exec (.rem n f gd ga gb) s = .next t ∧ Result u t n gd r p) ∧
      (∃ t, exec (.divu n f gd ga gb) s = .next t ∧ Result u t n gd qu p) ∧
      (∃ t, exec (.remu n f gd ga gb) s = .next t ∧ Result u t n gd ru p) ∧
      a = q * b + r ∧ a = qu * b + ru ∧
      (b = 0#64 → q = 0#64 ∧ r = a ∧ qu = 0#64 ∧ ru = a) ∧
      (a = 0x8000000000000000#64 → b = BitVec.allOnes 64 → q = 0x7FFFFFFFFFFFFFFF#64 ∧ r = BitVec.allOnes 64) ∧
      (b ≠ 0#64 → ¬(a = 0x8000000000000000#64 ∧ b = BitVec.allOnes 64) →
        q = BitVec.ofInt 64 (a.toInt.tdiv b.toInt)) ∧
      (b ≠ 0#64 → qu.toNat = a.toNat / b.toNat ∧ ru.toNat = a.toNat % b.toNat)

/-- The immediate instructions that read `ga`, with their results (R57). -/
def Claims.immTable : List ((CoreId → Ecc → RegIdx → RegIdx → BitVec 16 → Instr) × (Word → BitVec 16 → Word)) :=
  [(.addi, fun a i => a + i.signExtend 64), (.andi, fun a i => a &&& i.zeroExtend 64), (.ori, fun a i => a ||| i.zeroExtend 64),
   (.xori, fun a i => a ^^^ i.zeroExtend 64), (.slti, fun a i => if a.toInt < i.toInt then 1#64 else 0#64),
   (.sltiu, fun a i => if a.toNat < (i.signExtend 64).toNat then 1#64 else 0#64),
   (.ins32, fun a i => (a &&& 0xFFFF0000FFFFFFFF#64) ||| (i.zeroExtend 64 <<< 32)),
   (.ins48, fun a i => (a &&& 0x0000FFFFFFFFFFFF#64) ||| (i.zeroExtend 64 <<< 48)), (.muli, fun a i => a * i.signExtend 64),
   (.cmpeqi, fun a i => if a = i.signExtend 64 then 1#64 else 0#64)]

/-- R57, R73: the immediate instructions under their majors; `lui` and `lpa` read no register and their results are never poisoned. A word
of the shifts, of `lui` or of `lpa` whose zero field is not zero is no instruction. -/
def Obligations.ImmediateResults : Prop :=
  ∀ (s u : State) (n : CoreId) (f : Ecc) (gd ga : RegIdx) (imm : BitVec 16) (sh : BitVec 6), Fetches s u n f →
    (∀ r ∈ Claims.immTable, ∃ t, exec (r.1 n f gd ga imm) s = .next t ∧ Result u t n gd (r.2 (u.gv n ga) imm) (u.gp n ga)) ∧
    (∃ t, exec (.slli n f gd ga sh) s = .next t ∧ Result u t n gd (u.gv n ga <<< sh.toNat) (u.gp n ga)) ∧
    (∃ t, exec (.srli n f gd ga sh) s = .next t ∧ Result u t n gd (u.gv n ga >>> sh.toNat) (u.gp n ga)) ∧
    (∃ t, exec (.srai n f gd ga sh) s = .next t ∧ Result u t n gd ((u.gv n ga).sshiftRight sh.toNat) (u.gp n ga)) ∧
    (∃ t, exec (.lui n f gd imm) s = .next t ∧ Result u t n gd (BitVec.ofNat 64 (imm.toNat * 2 ^ 16)) false) ∧
    (∃ t, exec (.lpa n f gd imm) s = .next t ∧
      Result u t n gd (BitVec.ofInt 64 (((u.core n).pc : Int) + imm.toInt * 4)) false) ∧
    (∀ x ∈ [(Instr.addi n f gd ga imm, 1), (.andi n f gd ga imm, 2), (.ori n f gd ga imm, 3), (.xori n f gd ga imm, 4),
        (.slti n f gd ga imm, 5), (.sltiu n f gd ga imm, 6), (.slli n f gd ga sh, 7), (.srli n f gd ga sh, 8),
        (.srai n f gd ga sh, 9), (.lui n f gd imm, 10), (.ins32 n f gd ga imm, 11), (.ins48 n f gd ga imm, 12),
        (.muli n f gd ga imm, 13), (.lpa n f gd imm, 14), (.cmpeqi n f gd ga imm, 15)],
      (facetWord x.1).map (fun w => bits (w.zeroExtend 64) 26 6) = some x.2) ∧
    ∀ w : BitVec 32, bits (w.zeroExtend 64) 26 6 ∈ [7, 8, 9] ∧ bits (w.zeroExtend 64) 6 10 ≠ 0 ∨
        bits (w.zeroExtend 64) 26 6 ∈ [10, 14] ∧ bits (w.zeroExtend 64) 16 5 ≠ 0 → (illegalDetail w).isSome

/-! ### Transfers of control -/

/-- The branches that compare, with their conditions (R61). -/
def Claims.branchTable : List ((CoreId → Ecc → RegIdx → RegIdx → BitVec 16 → Instr) × (Word → Word → Bool)) :=
  [(.beq, fun a b => decide (a = b)), (.bne, fun a b => decide (a ≠ b)), (.blt, fun a b => decide (a.toInt < b.toInt)),
   (.bge, fun a b => decide (b.toInt ≤ a.toInt)), (.bltu, fun a b => decide (a.toNat < b.toNat)),
   (.bgeu, fun a b => decide (b.toNat ≤ a.toNat))]

/-- R53, R61, R75: a branch goes to its own address plus four times the signed offset when its condition holds, else to the next
instruction; a poisoned operand bites, but not that of `bpo`. -/
def Claims.branchesGoWhereTheirConditionSays : Prop :=
  ∀ (s u : State) (n : CoreId) (f : Ecc) (ga gb : RegIdx) (off : BitVec 16), Fetches s u n f →
    let pc := (u.core n).pc
    let target := (((pc : Int) + 4 * off.toInt) % 2 ^ 40).toNat
    (∀ r ∈ Claims.branchTable, u.gp n ga = false → u.gp n gb = false →
      ∃ t, exec (r.1 n f ga gb off) s = .next t ∧
        Jumps u t n (if r.2 (u.gv n ga) (u.gv n gb) then target else pc + 4)) ∧
    (∀ r ∈ Claims.branchTable, Plain u n → u.gp n ga = true →
      ∃ t, exec (r.1 n f ga gb off) s = .next t ∧ Traps u t n 0x04 2 ga false) ∧
    (∀ r ∈ Claims.branchTable, Plain u n → u.gp n ga = false → u.gp n gb = true →
      ∃ t, exec (r.1 n f ga gb off) s = .next t ∧ Traps u t n 0x04 2 gb false) ∧
    (∃ t, exec (.bpo n f ga off) s = .next t ∧ Jumps u t n (if u.gp n ga then target else pc + 4)) ∧
    (∀ x ∈ [(Instr.beq n f ga gb off, 0x20), (.bne n f ga gb off, 0x21), (.blt n f ga gb off, 0x22), (.bge n f ga gb off, 0x23),
        (.bltu n f ga gb off, 0x24), (.bgeu n f ga gb off, 0x25), (.bpo n f ga off, 0x26)],
      (facetWord x.1).map (fun w => bits (w.zeroExtend 64) 26 6) = some x.2) ∧
    ∀ w : BitVec 32, bits (w.zeroExtend 64) 26 6 = 0x26 → bits (w.zeroExtend 64) 16 5 ≠ 0 → (illegalDetail w).isSome

/-- R55, R61, R73: `jump` and `call` go to their target, `jr` and `callr` to the address in `ga` (of which log entry 20 says what the
program counter takes); the link is the address after the instruction, never poisoned. -/
def Claims.jumpsAndCallsGoToTheirTargets : Prop :=
  ∀ (s u : State) (n : CoreId) (f : Ecc) (gd ga : RegIdx) (off : BitVec 26), Fetches s u n f →
    let pc := (u.core n).pc
    let target := (((pc : Int) + 4 * off.toInt) % 2 ^ 40).toNat
    (∃ t, exec (.jump n f off) s = .next t ∧ Jumps u t n target) ∧
    (∃ t, exec (.call n f off) s = .next t ∧
      Writes u t n 31 (BitVec.ofNat 64 (pc + 4)) false ∧ Completes u t n target) ∧
    (u.gp n ga = false → ∃ t, exec (.jr n f ga) s = .next t ∧ WritesNone u t n ∧ GoesTo u t n (u.gv n ga)) ∧
    (u.gp n ga = false → ∃ t, exec (.callr n f gd ga) s = .next t ∧
      Writes u t n gd (BitVec.ofNat 64 (pc + 4)) false ∧ GoesTo u t n (u.gv n ga)) ∧
    (u.gp n ga = true → Plain u n → ∀ i ∈ [Instr.jr n f ga, Instr.callr n f gd ga],
      ∃ t, exec i s = .next t ∧ Traps u t n 0x04 2 ga false)

/-- R53, R61, R73, R75: the branches, jumps and calls. -/
def Obligations.BranchesJumpsAndCallsTransfer : Prop :=
  Claims.branchesGoWhereTheirConditionSays ∧ Claims.jumpsAndCallsGoToTheirTargets


/-! ### Loads, stores and atomics -/

/-- The Format I loads: bytes, and whether the value is sign-extended (R58). -/
def Claims.loadTable : List ((CoreId → Ecc → RegIdx → RegIdx → BitVec 16 → Ecc → Instr) × Nat × Bool) :=
  [(.lb, 1, true), (.lbu, 1, false), (.lh, 2, true), (.lhu, 2, false), (.lw, 4, true), (.lwu, 4, false), (.ld, 8, false)]

/-- `m` as a signed or unsigned number of `size` bytes, in 64 bits. -/
def Claims.widen (size : Nat) (signed : Bool) (m : Nat) : Word :=
  if signed && decide (2 ^ (8 * size - 1) ≤ m) then BitVec.ofInt 64 ((m : Int) - 2 ^ (8 * size)) else BitVec.ofNat 64 m

/-- An address lies in a memory proper: a store of the core, cluster SRAM, the bead pool or DRAM. -/
def Claims.inMemory (a : Nat) : Prop := (∀ off, regionAt a ≠ .control off) ∧ (∀ off, regionAt a ≠ .locket off)

/-- R47, R58, R73: a load that is allowed puts the little-endian bytes at its address, extended, into `gd`, poisoned if their double
is or if the code finds an uncorrectable error now. What the code counts on the way is `(u.readOutcome …).1`, and `u.settleHalf` is
`u` but where a `zl` of the other half of the block waits for the next access (R413). -/
def Claims.loadsReadTheirBytes : Prop :=
  ∀ (s u : State) (n : CoreId) (f e : Ecc) (gd ga gb : RegIdx) (imm : BitVec 16), Fetches s u n f → u.gp n ga = false →
    (∀ r ∈ Claims.loadTable,
      let a := (u.gv n ga + imm.signExtend 64).toNat
      let k := cellKey n a
      let o := u.readOutcome n a e .load n
      Claims.inMemory a → u.accessFault n a r.2.1 .load = none →
        ∃ t, exec (r.1 n f gd ga imm e) s = .next t ∧
          Result o.1 t n gd (Claims.widen r.2.1 r.2.2 ((u.settleHalf a).mem.read k r.2.1))
            (o.2 || (u.settleHalf a).mem.poisoned (k - k % 8))) ∧
    (let a := (u.gv n ga + u.gv n gb).toNat
     let k := cellKey n a
     let o := u.readOutcome n a e .load n
     u.gp n gb = false → Claims.inMemory a → u.accessFault n a 8 .load = none →
        ∃ t, exec (.ldr n f gd ga gb e) s = .next t ∧
          Result o.1 t n gd (BitVec.ofNat 64 ((u.settleHalf a).mem.read k 8)) (o.2 || (u.settleHalf a).mem.poisoned (k - k % 8)))

/-- R31, R58, R86: an aligned 64-bit load of a control-space register that exists reads it, unless the core's transaction holds a
store for its block. -/
def Claims.controlSpaceLoadsReadTheRegister : Prop :=
  ∀ (s u : State) (n : CoreId) (f e : Ecc) (gd ga : RegIdx) (imm : BitVec 16) (off : Nat), Fetches s u n f → u.gp n ga = false →
    let a := (u.gv n ga + imm.signExtend 64).toNat
    regionAt a = .control off → a % 8 = 0 → u.ctlLoadFault (u.mailEp n) off = none → u.heldBlock n off = false →
      ∃ t, exec (.ld n f gd ga imm e) s = .next t ∧ Result (u.ctlLoad off).1 t n gd (u.ctlLoad off).2.1 (u.ctlLoad off).2.2

/-- R31, R47, R58, R73, R86: loads from memory and from the control space. -/
def Obligations.LoadsReadMemoryAndRegisters : Prop :=
  Claims.loadsReadTheirBytes ∧ Claims.controlSpaceLoadsReadTheRegister

/-- The memory after a store of the low `size` bytes of `v` at cell `k`: those bytes, every other byte as before, and the poison of
the containing double. -/
def Claims.Stored (m m' : Mem) (k size v : Nat) (poison : Bool) : Prop :=
  m'.read k size = v % 2 ^ (8 * size) ∧ (∀ j, j < k ∨ k + size ≤ j → m'.byte j = m.byte j) ∧
    m'.poisoned (k - k % 8) = poison

/-- Core `n` completes an instruction that writes no register; no other core changes. -/
def Claims.Stepped (u t : State) (n : Nat) : Prop :=
  t.core n = (u.core n).done ((u.core n).pc + 4) ∧ ∀ m, m ≠ n → t.core m = u.core m

/-- The Format I stores that are narrower than a double (R58). -/
def Claims.narrowStores : List ((CoreId → Ecc → RegIdx → RegIdx → BitVec 16 → Ecc → Instr) × Nat) :=
  [(.sb, 1), (.sh, 2), (.sw, 4)]

/-- The memory that a store finds: after the read that it merges with, where it is narrower than its code's unit (R413, R417). -/
def Claims.storeBase (u : State) (n a size : Nat) (e : Ecc) : Mem :=
  if size ≠ 8 ∨ regionAt a = .dram ∧ u.isLight a = false then (u.readOutcome n a e .merge n).1.mem else u.mem

/-- R58, R73, R74, R417: a store to memory writes the low bytes of its source and no other byte. A narrow store leaves the double
poisoned if its data, the double or the read that it merges with is; a whole one gives it the poison of the data, and `sdp`
marks it poisoned. `sd` and `sdr` then let waiting cores go on. -/
def Claims.storesWriteTheirBytes : Prop :=
  ∀ (s u : State) (n : CoreId) (f e : Ecc) (gs ga gb : RegIdx) (imm : BitVec 16), Fetches s u n f → u.gp n ga = false →
    let a := (u.gv n ga + imm.signExtend 64).toNat
    let k := cellKey n a
    let v := (u.gv n gs).toNat
    (∀ r ∈ Claims.narrowStores, Claims.inMemory a → u.accessFault n a r.2 .store = none →
      ∃ t, exec (r.1 n f gs ga imm e) s = .next t ∧ Claims.Stepped u t n ∧
        Claims.Stored (Claims.storeBase u n a r.2 e) t.mem k r.2 v (u.gp n gs ||
          (Claims.storeBase u n a r.2 e).poisoned (k - k % 8) || (u.readOutcome n a e .merge n).2)) ∧
    (Claims.inMemory a → u.accessFault n a 8 .store = none →
      ∃ t : State, exec (.sd n f gs ga imm e) s = .next t.settle ∧ Claims.Stepped u t n ∧
        Claims.Stored (Claims.storeBase u n a 8 e) t.mem k 8 v (u.gp n gs)) ∧
    (Claims.inMemory a → u.accessFault n a 8 .sdp = none →
      ∃ t, exec (.sdp n f gs ga imm e) s = .next t ∧ Claims.Stepped u t n ∧
        Claims.Stored (Claims.storeBase u n a 8 e) t.mem k 8 v true) ∧
    (let a := (u.gv n ga + u.gv n gb).toNat
     u.gp n gb = false → Claims.inMemory a → u.accessFault n a 8 .store = none →
      ∃ t : State, exec (.sdr n f gs ga gb e) s = .next t.settle ∧ Claims.Stepped u t n ∧
        Claims.Stored (Claims.storeBase u n a 8 e) t.mem (cellKey n a) 8 v (u.gp n gs))

/-- R60: `zl` zeroes its 64 bytes with poison clear in each of the eight doubles, and writes no other byte. One of a half of a Strong
block first settles what waits for that block (R413). -/
def Claims.zeroLineClearsItsBlock : Prop :=
  ∀ (s u : State) (n : CoreId) (f e : Ecc) (ga : RegIdx) (imm : BitVec 16), Fetches s u n f → u.gp n ga = false →
    let a := (u.gv n ga + imm.signExtend 64).toNat
    let k := cellKey n a
    u.accessFault n a 64 .zl = none →
      ∃ t, exec (.zl n f ga imm e) s = .next t ∧ Claims.Stepped u t n ∧
        (∀ i, i < 64 → t.mem.byte (k + i) = 0#8) ∧ (∀ i, i < 8 → t.mem.poisoned (k + 8 * i) = false) ∧
        ∀ j, j < k ∨ k + 64 ≤ j → t.mem.byte j =
          (if regionAt a = .dram ∧ u.isLight a = false then u.zeroHalf n a e else u).mem.byte j

/-- R58, R60, R73, R74, R417: stores to memory and `zl`. -/
def Obligations.StoresWriteMemory : Prop :=
  Claims.storesWriteTheirBytes ∧ Claims.zeroLineClearsItsBlock

/-- The atomics with the value that they put in memory, from the old value and `gb` (R62); `cas` apart. -/
def Claims.atomicTable : List ((CoreId → Ecc → RegIdx → RegIdx → RegIdx → Ecc → Instr) × (Word → Word → Word)) :=
  [(.aswap, fun _ b => b), (.aadd, fun o b => o + b), (.aand, fun o b => o &&& b), (.aor, fun o b => o ||| b),
   (.axor, fun o b => o ^^^ b), (.amaxu, fun o b => if o.toNat < b.toNat then b else o),
   (.aminu, fun o b => if o.toNat < b.toNat then o else b)]

/-- R62: an atomic returns the old double in `gd` and puts the new one in memory, no other byte changing; on a poisoned double it
writes nothing and returns the old value poisoned. `cas` writes only where the old value is that of `gd`. What its read counts is
`(u.readOutcome …).1`. -/
def Obligations.AtomicsReadAndWriteAtOnce : Prop :=
  ∀ (s u : State) (n : CoreId) (f e : Ecc) (gd ga gb : RegIdx), Fetches s u n f → u.gp n ga = false → u.gp n gb = false →
    let a := (u.gv n ga).toNat
    let k := cellKey n a
    let old := BitVec.ofNat 64 ((u.settleHalf a).mem.read k 8)
    let o := u.readOutcome n a e .load n
    let bad := o.2 || (u.settleHalf a).mem.poisoned (k - k % 8)
    u.accessFault n a 8 .atomic = none →
      (∀ r ∈ Claims.atomicTable,
        (bad = true → ∃ t, exec (r.1 n f gd ga gb e) s = .next t ∧ Result o.1 t n gd old true) ∧
        (bad = false → ∃ t, exec (r.1 n f gd ga gb e) s = .next t ∧ Writes u t n gd old false ∧
          (t.core n).pc = (u.core n).pc + 4 ∧ Claims.Stored o.1.mem t.mem k 8 (r.2 old (u.gv n gb)).toNat false)) ∧
      (u.gp n gd = false →
        (bad = true → ∃ t, exec (.cas n f gd ga gb e) s = .next t ∧ Result o.1 t n gd old true) ∧
        (bad = false → old ≠ u.gv n gd →
          ∃ t, exec (.cas n f gd ga gb e) s = .next t ∧ Result o.1 t n gd old false) ∧
        (bad = false → old = u.gv n gd →
          ∃ t, exec (.cas n f gd ga gb e) s = .next t ∧ Writes u t n gd old false ∧
            (t.core n).pc = (u.core n).pc + 4 ∧ Claims.Stored o.1.mem t.mem k 8 (u.gv n gb).toNat false))

/-- R48, R49, R59, R62, R67: which trap and sub-cause an access meets, by where its address lies. -/
def Claims.accessesFaultAsTheMapSays : Prop :=
  ∀ (s : State) (n : CoreId) (a size : Nat) (k : Access),
    let mis : Option (Nat × Nat) := if a % size = 0 then none else some (3, 0)
    (a < 0x10000 → s.accessFault n a size k = if k = .load then mis else some (5, 2)) ∧
    (0x20000 ≤ a → a < 0x40000 → s.accessFault n a size k = mis) ∧
    (∀ c, c < 6 → ∀ d, d < 0x400000 → a = 0x0100000000 + c * 0x1000000 + d →
      s.accessFault n a size k = if c = (n : Nat) / 9 then mis else some (5, 3)) ∧
    (∀ b, b < 32768 → ∀ d, d < 0x1000 → a = 0x0200000000 + b * 0x1000 + d →
      s.accessFault n a size k =
        if k = .atomic then some (5, 2)
        else if s.granted b (s.mailEp n) = true ∨ s.flag fBPM_CTL_EN = false ∧ k ≠ .load then mis else some (5, 7)) ∧
    (0x0400000000 ≤ a → a < 0x04005B0000 →
      s.accessFault n a size k = if (k = .load ∨ k = .store) ∧ size = 8 ∧ a % 8 = 0 then none else some (5, 4)) ∧
    (0x0500000000 ≤ a → a < 0x0500200000 → k ≠ .load → s.accessFault n a size k = some (5, 2)) ∧
    (0x1000000000 + s.dramMiB * 0x100000 ≤ a → a < 0x2000000000 → 0x1000000000 ≤ a → s.accessFault n a size k = some (5, 6)) ∧
    (0x10000 ≤ a → a < 0x20000 → s.accessFault n a size k = some (5, 1))

/-- R69, R72, R75: a load or store whose access is refused takes that trap with the address in `hinfo`; a poisoned address bites
first. -/
def Claims.refusedAccessesTrap : Prop :=
  ∀ (s u : State) (n : CoreId) (f e : Ecc) (gd ga : RegIdx) (imm : BitVec 16), Fetches s u n f → Plain u n →
    let a := (u.gv n ga + imm.signExtend 64).toNat
    (∀ r ∈ Claims.loadTable,
      (u.gp n ga = true → ∃ t, exec (r.1 n f gd ga imm e) s = .next t ∧ Traps u t n 0x04 1 ga false) ∧
      (∀ c d, u.gp n ga = false → u.accessFault n a r.2.1 .load = some (c, d) →
        ∃ t, exec (r.1 n f gd ga imm e) s = .next t ∧ Traps u t n c d a false)) ∧
    ∀ r ∈ Claims.narrowStores,
      (u.gp n ga = true → ∃ t, exec (r.1 n f gd ga imm e) s = .next t ∧ Traps u t n 0x04 1 ga false) ∧
      (∀ c d, u.gp n ga = false → Claims.inMemory a → u.accessFault n a r.2 .store = some (c, d) →
        ∃ t, exec (r.1 n f gd ga imm e) s = .next t ∧ Traps u t n c d a false)

/-- R48, R49, R59, R62, R67, R69, R72, R75: the check of an access, and the traps of a load or store that fails it. -/
def Obligations.AccessesAreCheckedAndTrap : Prop :=
  Claims.accessesFaultAsTheMapSays ∧ Claims.refusedAccessesTrap

/-! ### System instructions and traps -/

/-- R52, R63, R67, R69: `svc` and `brk` trap, `svc` resuming after itself; `fence` completes; `leave` outside a trap is illegal. -/
def Claims.serviceBreakAndFence : Prop :=
  ∀ (s u : State) (n : CoreId) (f : Ecc), Fetches s u n f →
    (Plain u n → ∃ t : State, exec (.svc n f) s = .next t.settle ∧ Traps u t n 0x0A 0 0 false) ∧
    (Plain u n → ∃ t, exec (.brk n f) s = .next t ∧ Traps u t n 0x09 1 (u.core n).pc false) ∧
    (∃ t, exec (.fence n f) s = .next t ∧ Jumps u t n ((u.core n).pc + 4)) ∧
    (Plain u n → ∃ t, exec (.leave n f) s = .next t ∧ Traps u t n 0x01 5 0xF8000003 false)

/-- R70: `leave` resumes at `hresume.PC` with `INTRAP` clear; the breakpoint on the resumed instruction is suppressed once. -/
def Claims.leaveReturnsFromTheTrap : Prop :=
  ∀ (s u : State) (n : CoreId) (f : Ecc), Fetches s u n f → (u.core n).inTrap = true → (u.core n).wdPend = false →
    let c := u.core n
    let pc := bits c.cr.hresume 2 38 * 4
    ∃ t, exec (.leave n f) s = .next t ∧ OnlyCore u t n ∧ (t.core n).pc = pc ∧ (t.core n).inTrap = false ∧
      (t.core n).bpSup = (bit c.cr.bpa 0 && decide (bits c.cr.bpa 2 38 * 4 = pc)) ∧
      (t.core n).cr.icount = c.cr.icount + 1 ∧ WritesNone u t n ∧
      t.core n = { c with
        pc := pc
        cr := { c.cr with icount := (t.core n).cr.icount, hstat := (t.core n).cr.hstat } }

/-- R68, R70: a watchdog expiry that is pending traps as soon as `leave` has returned. -/
def Claims.leaveTakesThePendingWatchdog : Prop :=
  ∀ (s u : State) (n : CoreId) (f : Ecc), Fetches s u n f → (u.core n).inTrap = true → (u.core n).wdPend = true →
    (u.core n).tx.isOpen = false →
    ∃ t : State, exec (.leave n f) s = .next t.settle ∧ OnlyCore u t n ∧ (t.core n).inTrap = true ∧ (t.core n).wdPend = false ∧
      (t.core n).pc = bits (u.core n).cr.hbase 10 6 * 0x400 + 8 * 0x40 ∧
      (t.core n).cr.hcode = 0x0801#64 ∧ (t.core n).cr.hresume = BitVec.ofNat 64 (bits (u.core n).cr.hresume 2 38 * 4)

/-- The writable bits of the control registers that an instruction may write (R64 to R66, R68). -/
def Claims.crMask : List (Nat × Word) :=
  [(1, 0xFC00#64), (3, 0xFFFF01#64), (4, 0xFFFFFFFFFC#64), (5, BitVec.allOnes 64), (6, BitVec.allOnes 64),
   (7, BitVec.allOnes 64), (8, 0x1FFFFFFFF#64), (9, 0xFFFFFFFFFD#64)]

/-- R63, R64, R73: `ctlget` reads a control register (`tnow` over a counter lane of clasp 7), and an unlisted number is illegal; `ctlput`, `ctlset` and `ctlclr` write one
that has writable fields, reserved bits staying zero, and no other control register but `icount` and `hstat.BPSUP`. -/
def Obligations.ControlRegistersReadAndWrite : Prop :=
  ∀ (s u : State) (n : CoreId) (f : Ecc) (g : RegIdx) (cr : BitVec 5), Fetches s u n f →
    (∀ v, u.crValue n cr.toNat = some v → ∃ t, exec (.ctlget n f g cr) s = .next t ∧
      Result (if cr.toNat = 11 then u.laneRead 7 else u) t n g v false) ∧
    (12 ≤ cr.toNat → Plain u n → ∃ t w, exec (.ctlget n f g cr) s = .next t ∧ facetWordNat (.ctlget n f g cr) = some w ∧
      Traps u t n 0x01 6 w false) ∧
    (∀ m, (cr.toNat, m) ∈ Claims.crMask → u.gp n g = false →
      ∀ old, u.crValue n cr.toNat = some old →
      ∀ x ∈ [(Instr.ctlput n f cr g, u.gv n g), (Instr.ctlset n f cr g, old ||| u.gv n g),
        (Instr.ctlclr n f cr g, old &&& ~~~(u.gv n g))],
        ∃ t, exec x.1 s = .next t ∧ OnlyCore u t n ∧ WritesNone u t n ∧ (t.core n).pc = (u.core n).pc + 4 ∧
          t.crValue n cr.toNat = some (x.2 &&& m) ∧
          ∀ q, q ≠ cr.toNat → q ≠ 2 → q ≠ 10 → t.crValue n q = u.crValue n q) ∧
    (u.gp n g = true → Plain u n → crWritable cr.toNat = true →
      ∀ i ∈ [Instr.ctlput n f cr g, Instr.ctlset n f cr g, Instr.ctlclr n f cr g],
        ∃ t, exec i s = .next t ∧ Traps u t n 0x04 4 g false)

/-- R68, R71, R83: a watchdog expiry takes trap 0x08 between instructions, becomes pending in a handler, and does nothing while the
watchdog does not count. -/
def Claims.watchdogExpiryTrapsOrBecomesPending : Prop :=
  ∀ (s : State) (n : CoreId), (s.core n).status = .running →
    let c := s.core n
    (bit c.cr.wdog 32 = true → bits c.cr.wdog 0 32 ≠ 0 → Plain s n →
      ∃ t : State, exec (.watchdogExpiry n) s = .next t.settle ∧
        Traps (s.setCore n { c with wdStart := s.now }) t n 0x08 0 0 true) ∧
    (bit c.cr.wdog 32 = true → bits c.cr.wdog 0 32 ≠ 0 → c.inTrap = true → c.wdPend = false →
      ∃ t, exec (.watchdogExpiry n) s = .next t ∧ OnlyCore s t n ∧ (t.core n).wdPend = true ∧ (t.core n).pc = c.pc) ∧
    (bit c.cr.wdog 32 = false ∨ bits c.cr.wdog 0 32 = 0 → exec (.watchdogExpiry n) s = .next s)

/-- R52, R63, R67 to R71, R83: `svc`, `brk`, `fence`, `leave` and the watchdog. -/
def Obligations.SystemInstructionsAndWatchdog : Prop :=
  Claims.serviceBreakAndFence ∧ Claims.leaveReturnsFromTheTrap ∧ Claims.leaveTakesThePendingWatchdog ∧ Claims.watchdogExpiryTrapsOrBecomesPending

/-! ### Messages of a core -/

/-- R21, R22, R80, R81: a send with room places one message in the Chain with the next sequence number of its pair and goes on;
`csendnb` then reports 0. A send that would wait waits (`csend`) or reports 1 and places nothing (`csendnb`). -/
def Claims.sendsPlaceTheirMessage : Prop :=
  ∀ (s u : State) (n : CoreId) (f : Ecc) (gr ge : RegIdx) (mbx : BitVec 4), Fetches s u n f →
    u.gp n gr = false → u.gp n ge = false → (u.core n).tx.isOpen = false →
    let a := (u.gv n gr).toNat
    let w := u.gv n ge
    bufferFault n a = none → u.mem.firstPoison (cellKey n a) 8 = none → u.sendCause w mbx.toNat = none →
    let role := (u.core n).role
    let q := u.nextSeq role (bits w 0 7)
    let m := mkMsg role (bits w 0 7) mbx.toNat (bits w 16 12) q (BitVec.ofNat 512 (u.mem.read (cellKey n a) 64))
    (u.wouldWait (bits w 0 7) mbx.toNat = false →
      (∃ t, exec (.csend n f gr ge mbx .clean) s = .next t ∧ t.net = u.net ++ [m] ∧ t.mem = u.mem ∧
        t.nextSeq role (bits w 0 7) = (q + 1) % 65536 ∧ (t.core n).pc = (u.core n).pc + 4 ∧ WritesNone u t n) ∧
      ∃ t, exec (.csendnb n f gr ge mbx .clean) s = .next t ∧ t.net = u.net ++ [m] ∧ t.mem = u.mem ∧
        Writes u t n gr 0#64 false ∧ (t.core n).pc = (u.core n).pc + 4) ∧
    (u.wouldWait (bits w 0 7) mbx.toNat = true →
      (∃ t, exec (.csend n f gr ge mbx .clean) s = .next t ∧ (t.core n).status = .waiting (.send gr ge mbx.toNat) ∧
        (t.core n).pc = (u.core n).pc ∧ t.net = u.net) ∧
      ∃ t, exec (.csendnb n f gr ge mbx .clean) s = .next t ∧ Result u t n gr 1#64 false)

/-- R23, R84: a destination that is absent, reserved bits that are set and mailbox 15 take trap 0x06 with the destination word. -/
def Claims.badSendsTakeTheChainFault : Prop :=
  ∀ (s u : State) (n : CoreId) (f : Ecc) (gr ge : RegIdx) (mbx : BitVec 4), Fetches s u n f → Plain u n →
    u.gp n gr = false → u.gp n ge = false →
    let a := (u.gv n gr).toNat
    let w := u.gv n ge
    bufferFault n a = none → u.mem.firstPoison (cellKey n a) 8 = none →
    ∀ d, (d = 1 ∧ u.epAbsent (bits w 0 7) = true ∨
        d = 3 ∧ u.epAbsent (bits w 0 7) = false ∧ (bits w 7 9 ≠ 0 ∨ bits w 28 36 ≠ 0) ∨
        d = 4 ∧ u.epAbsent (bits w 0 7) = false ∧ bits w 7 9 = 0 ∧ bits w 28 36 = 0 ∧ mbx = 15#4) →
      ∀ i ∈ [Instr.csend n f gr ge mbx .clean, Instr.csendnb n f gr ge mbx .clean],
        ∃ t, exec i s = .next t ∧ Traps u t n 0x06 d w.toNat false

/-- R80, R82: a receive takes the message at the head of the core's mailbox: its payload goes to the buffer, its header word with
bit [15] set and the number of messages that stay to `ge`. On an empty mailbox `crecv` waits and `crecvnb` gives 0. -/
def Claims.receivesTakeTheHeadMessage : Prop :=
  ∀ (s u : State) (n : CoreId) (f : Ecc) (gr ge : RegIdx) (mbx : BitVec 4), Fetches s u n f →
    u.gp n gr = false → (u.core n).tx.isOpen = false →
    let a := (u.gv n gr).toNat
    let role := (u.core n).role
    bufferFault n a = none →
    (∀ m rest, u.box role mbx.toNat = m :: rest → m.chkOk = true → m.seqOk = true →
      ∀ i ∈ [Instr.crecv n f gr ge mbx, Instr.crecvnb n f gr ge mbx],
        ∃ t : State, exec i s = .next t.settle ∧ t.box role mbx.toNat = rest ∧
          t.mem.read (cellKey n a) 64 = m.payload.toNat ∧
          (∀ j, j < cellKey n a ∨ cellKey n a + 64 ≤ j → t.mem.byte j = u.mem.byte j) ∧
          Writes u t n ge (BitVec.ofNat 64 (m.header / 2 ^ 16 * 2 ^ 16 + 2 ^ 15 + Nat.min rest.length 0x7FFF)) false ∧
          (t.core n).pc = (u.core n).pc + 4) ∧
    (u.box role mbx.toNat = [] →
      (∃ t : State, exec (.crecv n f gr ge mbx) s = .next t.settle ∧
        (t.core n).status = .waiting (.recv gr ge mbx.toNat) ∧ (t.core n).pc = (u.core n).pc) ∧
      ∃ t : State, exec (.crecvnb n f gr ge mbx) s = .next t.settle ∧ Result u t n ge 0#64 false)

/-- R82: `cpoll` reports in [15:0] the mailboxes that hold a message and in [31:16] the full ones; `cwait` does the same once a
mailbox in its mask holds one, and waits until then. -/
def Claims.pollsReportTheMailboxes : Prop :=
  ∀ (s u : State) (n : CoreId) (f : Ecc) (gr ge : RegIdx), Fetches s u n f →
    let role := (u.core n).role
    ∃ v : Word, (∀ m, m < 16 → bit v m = !(u.box role m).isEmpty ∧ bit v (16 + m) = u.boxFull role m) ∧
      (∀ j, 32 ≤ j → bit v j = false) ∧
      (∃ t, exec (.cpoll n f gr) s = .next t ∧ Result u t n gr v false) ∧
      (u.gp n ge = false → (∃ m, m < 16 ∧ bit (u.gv n ge) m = true ∧ u.box role m ≠ []) → (u.core n).status = .running →
        ∃ t, exec (.cwait n f gr ge) s = .next t ∧ Result u t n gr v false) ∧
      (u.gp n ge = false → (∀ m, m < 16 → bit (u.gv n ge) m = true → u.box role m = []) →
        ∃ t, exec (.cwait n f gr ge) s = .next t ∧ (t.core n).status = .waiting (.poll gr ge) ∧
          (t.core n).pc = (u.core n).pc)

/-- R80, R82: the receives and polls of a core. -/
def Obligations.CoresReceiveMessages : Prop :=
  Claims.receivesTakeTheHeadMessage ∧ Claims.pollsReportTheMailboxes

/-! ### Transactions -/

/-- R85, R87: `tbegin` opens an empty transaction, `tstate` reads its state word, and both go on. -/
def Claims.transactionsOpenAndReport : Prop :=
  ∀ (s u : State) (n : CoreId) (f : Ecc) (gd : RegIdx), Fetches s u n f →
    ((u.core n).tx.isOpen = false → ∃ t, exec (.tbegin n f) s = .next t ∧ OnlyCore u t n ∧ WritesNone u t n ∧
      (t.core n).tx = ⟨true, (u.core n).tx.ended, u.now, [], [], [], []⟩ ∧ (t.core n).pc = (u.core n).pc + 4) ∧
    ∃ t v, exec (.tstate n f gd) s = .next t ∧ Result u t n gd v false ∧
      ((u.core n).tx.sends.length ≤ 8 → (u.core n).tx.taken.length ≤ 8 → (u.core n).tx.effects.length ≤ 16 →
        (u.core n).tx.stores.length ≤ 4 →
        bit v 0 = (u.core n).tx.isOpen ∧ bit v 1 = (u.core n).tx.ended ∧ bits v 2 4 = (u.core n).tx.sends.length ∧
          bits v 6 4 = (u.core n).tx.taken.length ∧ bits v 10 5 = (u.core n).tx.effects.length ∧
          bits v 15 3 = (u.core n).tx.stores.length ∧ bits v 32 32 = (u.core n).commits % 2 ^ 32)

/-- R85, R88, R101: `tcommit` closes the transaction, counts it, goes on, and places every held send in the Chain in one step (here
with no assist effect and no control-space store held); the cores that wait then go on. -/
def Claims.commitSendsEverythingHeld : Prop :=
  ∀ (s u : State) (n : CoreId) (f : Ecc), Fetches s u n f → (u.core n).tx.isOpen = true →
    (u.core n).tx.effects = [] → (u.core n).tx.stores = [] →
    ∃ t : State, exec (.tcommit n f) s = .next t.settle ∧ (t.core n).tx = Tx.none ∧
      (t.core n).commits = (u.core n).commits + 1 ∧ (t.core n).pc = (u.core n).pc + 4 ∧ WritesNone u t n ∧
      t.fld (fFCT_TXS_COMMITS n) = (u.fld (fFCT_TXS_COMMITS n) + 1) % 2 ^ 32 ∧
      t.net.take u.net.length = u.net ∧
      (t.net.drop u.net.length).map (fun m => (m.src, m.dst, m.mbx, m.sub, m.payload)) =
        (u.core n).tx.sends.map (fun m => (m.src, m.dst, m.mbx, m.sub, m.payload))

/-- R86, R87, R101: `tabort`, and the limit on a transaction's time, end the transaction and take trap 0x07 with their sub-cause;
the abort is counted. -/
def Claims.abortsEndTheTransaction : Prop :=
  ∀ (s u : State) (n : CoreId) (f : Ecc) (ga : RegIdx),
    (Fetches s u n f → u.gp n ga = false → (u.core n).inTrap = false → (u.core n).tx.isOpen = true →
      (u.core n).tx.taken = [] → (u.core n).tx.effects = [] →
      ∃ t : State, exec (.tabort n f ga) s = .next t.settle ∧ (t.core n).tx = Tx.none ∧
        (t.core n).cr.hcode = 0x010700#64 ∧ (t.core n).cr.hinfo = u.gv n ga ∧
        (t.core n).pc = bits (u.core n).cr.hbase 10 6 * 0x400 + 7 * 0x40 ∧ t.net = u.net ∧ t.mem = u.mem ∧
        t.fld (fFCT_TXS_ABORTS n) = Nat.min (u.fld (fFCT_TXS_ABORTS n) + 1) 65535 ∧ t.fld (fFCT_TXS_LAST n) = 1) ∧
    ((s.core n).status = .running → (s.core n).inTrap = false → (s.core n).tx.isOpen = true →
      (s.core n).tx.taken = [] → (s.core n).tx.effects = [] →
      ∃ t : State, exec (.txLimitExpiry n) s = .next t.settle ∧ (t.core n).tx = Tx.none ∧
        (t.core n).cr.hcode = 0x080701#64 ∧ t.fld (fFCT_TXS_LAST n) = 8 ∧
        (t.core n).pc = bits (s.core n).cr.hbase 10 6 * 0x400 + 7 * 0x40)

/-- R90: `tresume` loads the registers, the resume address and the watchdog of the role's valid checkpoint; with none, every
register is zero and control goes to the image's entry. -/
def Claims.resumeLoadsTheCheckpoint : Prop :=
  ∀ (s u : State) (n : CoreId) (f : Ecc), Fetches s u n f → (u.core n).tx.isOpen = false →
    (∀ k, u.ckSlot (u.core n).role = some k →
      let a := u.ckAddr (u.core n).role k
      ∃ t, exec (.tresume n f) s = .next t ∧ OnlyCore u t n ∧ (t.core n).pc = u.mem.read (a + 0x100) 8 % 2 ^ 40 ∧
        (∀ r, 1 ≤ r → r ≤ 31 → (t.core n).get r =
          ⟨BitVec.ofNat 64 (u.mem.read (a + 8 * (r - 1)) 8), (u.mem.read (a + 0xF8) 8 / 2 ^ r) % 2 == 1⟩) ∧
        bits (t.core n).cr.wdog 0 32 = bits (BitVec.ofNat 64 (u.mem.read (a + 0x110) 8)) 32 32) ∧
    (u.ckSlot (u.core n).role = none →
      ∃ t, exec (.tresume n f) s = .next t ∧ OnlyCore u t n ∧ (t.core n).pc = tgetD u.entries (u.core n).role 0 ∧
        ∀ r, (t.core n).get r = ⟨0#64, false⟩)

/-- R85 to R88, R90, R101: transactions and checkpoints. -/
def Obligations.TransactionsCommitAbortAndResume : Prop :=
  Claims.transactionsOpenAndReport ∧ Claims.commitSendsEverythingHeld ∧ Claims.abortsEndTheTransaction ∧ Claims.resumeLoadsTheCheckpoint

/-- R83, R84: a send that is held back longer than the limit takes trap 0x06, sub-cause 2, with the destination word; with a limit of
0 nothing happens. -/
def Claims.heldBackSendTimesOut : Prop :=
  ∀ (s : State) (n : CoreId) (gr ge mbx : Nat), (s.core n).status = .waiting (.send gr ge mbx) →
    (s.fld fFCT_SENDLIM_LIMIT = 0 → exec (.sendLimitExpiry n) s = .next s) ∧
    (s.fld fFCT_SENDLIM_LIMIT ≠ 0 → Plain s n →
      ∃ t, exec (.sendLimitExpiry n) s = .next t ∧ Traps s t n 0x06 2 (s.gv n ge).toNat false)

/-- R21 to R23, R80, R81, R83, R84: the sends of a core, where they trap and where they wait. -/
def Obligations.CoresSendMessages : Prop :=
  Claims.sendsPlaceTheirMessage ∧ Claims.badSendsTakeTheChainFault ∧ Claims.heldBackSendTimesOut

/-! ### The storage assists -/

/-- R95, R97: CRC-32C of 8 and 4 bytes and the products in GF(2^8), byte by byte: a clean result, nothing else changing. -/
def Claims.checksumsAndFieldProducts : Prop :=
  ∀ (s u : State) (n : CoreId) (f : Ecc) (gd ga gb : RegIdx), Fetches s u n f → u.gp n ga = false → u.gp n gb = false →
    let a := u.gv n ga
    let b := u.gv n gb
    let byte (w : Word) (i : Nat) : BitVec 8 := w.extractLsb' (8 * i) 8
    let crc (l : List (BitVec 8)) : Word := (crcBytes (a.extractLsb' 0 32) l).zeroExtend 64
    (∃ t, exec (.crcd n f gd ga gb) s = .next t ∧ Result u t n gd (crc ((List.range 8).map (byte b))) false) ∧
    (∃ t, exec (.crcw n f gd ga gb) s = .next t ∧ Result u t n gd (crc ((List.range 4).map (byte b))) false) ∧
    (∃ t v, exec (.gfmul n f gd ga gb) s = .next t ∧ Result u t n gd v false ∧
      ∀ i, i < 8 → byte v i = gfMul (byte a i) (byte b 0)) ∧
    (∃ t v, exec (.gfmulv n f gd ga gb) s = .next t ∧ Result u t n gd v false ∧
      ∀ i, i < 8 → byte v i = gfMul (byte a i) (byte b i)) ∧
    (bits b 2 62 = 0 → ∃ t, exec (.khash n f gd ga gb) s = .next t ∧
      Result u t n gd (sipHash (u.hashKey (b.toNat % 4)) a) false) ∧
    (bits b 2 62 ≠ 0 → Plain u n → ∃ t w, exec (.khash n f gd ga gb) s = .next t ∧
      facetWordNat (.khash n f gd ga gb) = some w ∧ Traps u t n 0x01 2 w false)

/-- R95: CRC-32C over the 64 bytes at an address of memory and over the data of a bead that the core holds. -/
def Claims.checksumsOverMemory : Prop :=
  ∀ (s u : State) (n : CoreId) (f : Ecc) (gd ga gb : RegIdx), Fetches s u n f → u.gp n ga = false → u.gp n gb = false →
    let a := (u.gv n gb).toNat
    let crc (l : List (BitVec 8)) : Word := (crcBytes ((u.gv n ga).extractLsb' 0 32) l).zeroExtend 64
    (0x20000 ≤ a → a + 64 ≤ 0x40000 → a % 64 = 0 → ∃ t, exec (.crcl n f gd ga gb .clean) s = .next t ∧
      Result u t n gd (crc (u.mem.bytes (cellKey n a) 64)) (u.mem.firstPoison (cellKey n a) 8).isSome) ∧
    (a < 32768 → u.granted a (u.mailEp n) = true → ∃ t, exec (.crcbd n f gd ga gb .clean) s = .next t ∧
      Result u t n gd (crc (u.mem.bytes (0x0200000000 + a * 0x1000) 4096))
        (u.mem.firstPoison (0x0200000000 + a * 0x1000) 512).isSome)

/-- R95 to R97: the computing assists. -/
def Obligations.ChecksumsProductsAndHashes : Prop :=
  Claims.checksumsAndFieldProducts ∧ Claims.checksumsOverMemory

/-- R94, R175, R180: outside a transaction `balloc` grants the next free bead to the core and returns it with bit [63]; a class at
its quota gets bit [62], a pool without a bead for it bit [61]. -/
def Claims.allocationGrantsOrRefuses : Prop :=
  ∀ (s u : State) (n : CoreId) (f : Ecc) (gd ga : RegIdx), Fetches s u n f → u.gp n ga = false →
    (u.core n).tx.isOpen = false → bits (u.gv n ga) 4 60 = 0 →
    let c := (u.gv n ga).toNat % 16
    (u.decideBeads c 1 = .grant → ∀ b, u.nextBead = some b →
      ∃ t, exec (.balloc n f gd ga) s = .next t ∧ Writes u t n gd (BitVec.ofNat 64 (2 ^ 63 + b)) false ∧
        (t.bead b).st = .granted ∧ (t.bead b).owner = u.mailEp n ∧ (t.bead b).cls = c ∧ (t.core n).pc = (u.core n).pc + 4 ∧
        ∀ x, x ≠ b → t.bead x = u.bead x) ∧
    (u.decideBeads c 1 = .quota → ∃ t, exec (.balloc n f gd ga) s = .next t ∧ Writes u t n gd (BitVec.ofNat 64 (2 ^ 62)) false ∧
      ∀ x, t.bead x = u.bead x) ∧
    (u.decideBeads c 1 = .noBead → ∃ t, exec (.balloc n f gd ga) s = .next t ∧
      Writes u t n gd (BitVec.ofNat 64 (2 ^ 61)) false ∧ ∀ x, t.bead x = u.bead x)

/-- R92, R94, R175, R189: outside a transaction `bfree` makes a bead of the core free, `bgive` moves its grant to an endpoint that
takes beads; of a bead that the core does not hold both trap 0x05, sub-cause 7, and a destination that takes none gives 1. -/
def Claims.releaseAndTransferOfBeads : Prop :=
  ∀ (s u : State) (n : CoreId) (f : Ecc) (gd ga gb : RegIdx), Fetches s u n f → u.gp n ga = false → u.gp n gb = false →
    (u.core n).tx.isOpen = false → bits (u.gv n ga) 15 49 = 0 → bits (u.gv n gb) 7 57 = 0 →
    let b := (u.gv n ga).toNat % 32768
    let ep := (u.gv n gb).toNat % 128
    (u.granted b (u.mailEp n) = true → (u.bead b).ue < 2 → u.pool.waiting = [] →
      ∃ t, exec (.bfree n f ga) s = .next t ∧ (t.bead b).st = .free ∧ (t.core n).pc = (u.core n).pc + 4 ∧
        ∀ x, x ≠ b → t.bead x = u.bead x) ∧
    (u.granted b (u.mailEp n) = true → takesBeads ep = true →
      ∃ t, exec (.bgive n f gd ga gb) s = .next t ∧ Writes u t n gd 0#64 false ∧
        t.bead b = { u.bead b with owner := u.mailEp ep } ∧ ∀ x, x ≠ b → t.bead x = u.bead x) ∧
    (u.granted b (u.mailEp n) = true → takesBeads ep = false →
      ∃ t, exec (.bgive n f gd ga gb) s = .next t ∧ Result u t n gd 1#64 false) ∧
    (u.granted b (u.mailEp n) = false → Plain u n → ∀ i ∈ [Instr.bfree n f ga, Instr.bgive n f gd ga gb],
      ∃ t, exec i s = .next t ∧ Traps u t n 0x05 7 (0x0200000000 + b * 0x1000) false)

/-- R92, R94, R175, R180, R189: the bead assists outside a transaction. -/
def Obligations.BeadAssists : Prop :=
  Claims.allocationGrantsOrRefuses ∧ Claims.releaseAndTransferOfBeads

/-- The directory entries of the set of page `mpn` are read without error, and the set has not failed (R225). -/
def Claims.setReads (u : State) (mpn : Nat) : Prop :=
  u.tagMismatch (u.dirAddr (u.mapSet mpn * 8)) = false ∧ u.isLight (u.dirAddr (u.mapSet mpn * 8)) = false ∧
    u.dirPoisoned (u.mapSet mpn) = false ∧ sHas u.map.failed (u.mapSet mpn) = false ∧ u.mec.halves = []

/-- R93, R208, R209: `mlook` of a page that is present reports a hit with its frame's address; of an absent one with a free way it
claims that way, marked `BUSY`, sends the miss message and reports `BUSY`; with the assist disabled it is refused. In a set that has
not failed, whose entries are read without error. -/
def Obligations.MapLookupHitsOrMisses : Prop :=
  ∀ (s u : State) (n : CoreId) (f : Ecc) (gd ga gb : RegIdx), Fetches s u n f → u.gp n ga = false → u.gp n gb = false →
    bits (u.gv n ga) 32 32 = 0 → u.gv n gb = 0#64 →
    let mpn := (u.gv n ga).toNat % 2 ^ 32
    (u.flag fMAP_CTL_EN = false → ∃ t, exec (.mlook n f gd ga gb .clean) s = .next t ∧
      Result u t n gd (BitVec.ofNat 64 (2 ^ 60)) false) ∧
    (u.flag fMAP_CTL_EN = true → Claims.setReads u mpn → ∀ x, u.findPage mpn = some x → (u.frame x).busy = false →
        ∃ t, exec (.mlook n f gd ga gb .clean) s = .next t ∧ (t.core n).pc = (u.core n).pc + 4 ∧
          t.frame x = { u.frame x with ref := true } ∧
          (gd ≠ 0 → bit (t.gv n gd) 63 = true ∧ bit (t.gv n gd) 62 = false ∧ bits (t.gv n gd) 0 40 = u.frameAddr x % 2 ^ 40)) ∧
    (u.flag fMAP_CTL_EN = true → Claims.setReads u mpn → u.findPage mpn = none →
      (∃ w, w < 8 ∧ (u.frame (u.mapSet mpn * 8 + w)).valid = false) →
        ∃ t, exec (.mlook n f gd ga gb .clean) s = .next t ∧ (t.core n).pc = (u.core n).pc + 4 ∧
          (∃ x, t.findPage mpn = some x ∧ (t.frame x).busy = true ∧ (t.frame x).dirty = false ∧ (t.frame x).pins = 0) ∧
          (gd ≠ 0 → t.gv n gd = BitVec.ofNat 64 (2 ^ 62)))


/-! ### Commands of the block: how a completion is said -/

/-- Command `i` runs from `s` and the next state satisfies `P`. -/
def Claims.Runs (i : Instr) (s : State) (P : State → Prop) : Prop := ∃ t, exec i s = .next t ∧ P t

/-- Command `i` runs from `s`: `P` holds of the state in which the cores that wait for a message or for room then go on (R83). -/
def Claims.RunsThenSettles (i : Instr) (s : State) (P : State → Prop) : Prop := ∃ t : State, exec i s = .next t.settle ∧ P t

/-- The recorder takes a record of this severity: enabled, at or above `MINSEV`, with room in the ring (R548, R551, R553). -/
def Claims.Recording (s : State) (sev : Nat) : Prop :=
  s.flag fEVR_CTL_EN = true ∧ s.fld fEVR_CTL_MINSEV ≤ sev ∧ s.evr.ring.length ≤ 65533

/-- The next record of the ring has this severity, source and kind, and the next sequence number. -/
def Claims.Records (s t : State) (sev src kind : Nat) : Prop :=
  ∃ r rest, t.evr.ring = s.evr.ring ++ r :: rest ∧ r.sev = sev ∧ r.src = src ∧ r.kind = kind ∧ r.seq = s.fld fEVR_NEXT_SEQ

/-! ### Control space -/

/-- R10, R31: a write that no rule refuses, to a block whose registers have no behaviour of their own (Loupe channels, the parity
engine, Signet), changes just that register, as its fields' types say; a refused one changes nothing. -/
def Claims.registerWrites : Prop :=
  ∀ (s : State) (who : Endpoint) (off : BitVec 23) (v : Word),
    (0x400000 ≤ off.toNat ∧ off.toNat < 0x480000 ∨ 0x510000 ≤ off.toNat ∧ off.toNat < 0x520000 ∨
      0x540000 ≤ off.toNat ∧ off.toNat < 0x550000) →
    (s.ctlStoreFault who.toNat off.toNat v = none → ∀ r, regRow off.toNat = some r →
      Claims.RunsThenSettles (.registerWrite who off v) s fun t =>
        t.reg off.toNat = writeWord r (s.reg off.toNat) v ∧ (∀ o, o ≠ off.toNat → t.reg o = s.reg o) ∧ t = { s with regs := t.regs }) ∧
    ((s.ctlStoreFault who.toNat off.toNat v).isSome → exec (.registerWrite who off v) s = .next s.settle)

/-- R10: what a plain write makes of one field, by its type: `RSVD` and `RO` bits keep, `RW` bits take the value, `W1C` bits clear and
`W1S` bits set where a one is written. -/
def Claims.fieldWrites : Prop :=
  ∀ (old v w : Word) (f : FieldSpec), f.lo + f.width ≤ 64 →
    bits (writeField old v w f) f.lo f.width =
      (match f.type with
       | .ro => bits w f.lo f.width
       | .wo => bits w f.lo f.width
       | .rw => bits v f.lo f.width
       | .w1c => bits (old &&& ~~~v) f.lo f.width
       | .w1s => bits (old ||| v) f.lo f.width) ∧
    ∀ b, b < f.lo ∨ f.lo + f.width ≤ b → bit (writeField old v w f) b = bit w b

/-- R96, R101, R102: mailbox depths take effect unless they break R102, and the high word of a key slot makes it take effect with the
low word written before. -/
def Claims.facetTableWrites : Prop :=
  ∀ (s : State) (who : Endpoint) (core : CoreId) (slot : KeySlot) (v : Word),
    (s.badDepths core v = false → Claims.RunsThenSettles (.fctMbxWrite who core v) s fun t =>
      (∀ m, m < 16 → t.depth core m = bits v (4 * m) 4) ∧ t = { s with regs := t.regs }) ∧
    (s.badDepths core v = true → exec (.fctMbxWrite who core v) s = .next s.settle) ∧
    Claims.RunsThenSettles (.fctHkeyWrite who slot false v) s (fun t =>
      tget t.hkeyLow (slot + 1) = some v ∧ t.hkeys = s.hkeys) ∧
    Claims.RunsThenSettles (.fctHkeyWrite who slot true v) s (fun t =>
      tget t.hkeys (slot + 1) = some (v ++ tgetD s.hkeyLow (slot + 1) 0#64))

/-- R10, R31, R96, R101, R102: writes of control-space registers, by field type, and of the mailbox and key tables. -/
def Obligations.ControlSpaceWrites : Prop := Claims.registerWrites ∧ Claims.fieldWrites ∧ Claims.facetTableWrites

/-! ### The Chain -/

/-- R22, R23, R84: the oldest message of a pair leaves the Chain; with no injector at work it stands last in its mailbox, marked by
whether its `SEQ` was the one expected, and the next one is expected. A full mailbox keeps it in the Chain. -/
def Obligations.ChainDeliversInOrder : Prop :=
  ∀ (s : State) (src dst : Endpoint) (m : Msg) (rest : List Msg), dst.toNat < 54 → s.takeNet src.toNat dst.toNat = some (m, rest) →
    (∀ i, i < 8 → s.flag (fFLT_INJA_ARM i) = false) → s.flt.delayed = [] → s.flt.reordered = [] →
    let key := src.toNat * 128 + dst.toNat
    let ep := s.mailEp dst.toNat
    (s.boxFull ep m.mbx = false → Claims.RunsThenSettles (.chainDelivery src dst) s fun t =>
      t.net = rest ∧ t.box ep m.mbx = s.box ep m.mbx ++ [{ m with seqOk := decide (tgetD s.rxSeq key 0 = m.seq) }] ∧
        tgetD t.rxSeq key 0 = (m.seq + 1) % 65536) ∧
    (s.boxFull ep m.mbx = true → exec (.chainDelivery src dst) s = .next s.settle)

/-! ### Clasps -/

/-- R114 to R116, R118, R120: a CLOSED or CLOSING clasp of a fitted island breaks with its cause, counted, held-stable, and its bit of
`CLP_BRK0` or `CLP_BRK1` set. -/
def Claims.claspBreaks : Prop :=
  ∀ (s : State) (c : ClaspId) (cause : BreakCause) (lost : Nat), s.claspFused c = false →
    (s.claspState c = 2 ∨ s.claspState c = 1) →
    Claims.Runs (.claspBreak c cause lost) s fun t =>
      t.claspState c = 3 ∧ t.fld (fCLP_STAT_CAUSE c) = breakCode cause ∧ t.fld (fCLP_STAT_HELD c) = 1 ∧
        t.fld (fCLP_CNT_BREAKS c) = Nat.min (s.fld (fCLP_CNT_BREAKS c) + 1) 65535 ∧
        (if (c : Nat) < 64 then bit (t.reg rCLP_BRK0) c = true else bit (t.reg rCLP_BRK1) (c - 64) = true)

/-- R114, R116: `CLOSE` starts the handshake from OPEN or BROKEN once no side is in reset; `OPEN` opens a CLOSED clasp with cause
0x5. -/
def Claims.claspCommands : Prop :=
  ∀ (s : State) (who : Endpoint) (c : ClaspId), s.claspFused c = false →
    (sHas s.clasps.inReset c = false → (s.claspState c = 0 ∨ s.claspState c = 3) →
      Claims.RunsThenSettles (.clpClose who c) s fun t => t.claspState c = 1) ∧
    (s.claspState c = 2 → Claims.RunsThenSettles (.clpOpen who c) s fun t =>
      t.claspState c = 0 ∧ t.fld (fCLP_STAT_CAUSE c) = 5 ∧ t.fld (fCLP_STAT_HELD c) = 1)

/-- R116: an island that leaves reset lets its clasp close, at once where `AUTO` is 1; when the close words agree the clasp is CLOSED
with a new epoch, else BROKEN with cause 0x6. -/
def Claims.claspHandshake : Prop :=
  ∀ (s : State) (c : ClaspId), s.claspFused c = false →
    (sHas s.pwr.off c = false → s.flag (fCLP_CTL_AUTO c) = true → (s.claspState c = 0 ∨ s.claspState c = 3) →
      Claims.Runs (.islandLeavesReset c) s fun t => sHas t.clasps.inReset c = false ∧ t.claspState c = 1) ∧
    (s.claspState c = 1 → Claims.Runs (.closeHandshakeDone c true) s fun t =>
      t.claspState c = 2 ∧ t.fld (fCLP_STAT_EPOCH c) = (s.fld (fCLP_STAT_EPOCH c) + 1) % 65536 ∧
        t.fld (fCLP_STAT_HELD c) = s.fld (fCLP_CTL_HOLD c)) ∧
    (s.claspState c = 1 → Claims.Runs (.closeHandshakeDone c false) s fun t =>
      t.claspState c = 3 ∧ t.fld (fCLP_STAT_CAUSE c) = 6)

/-- R105, R107, R108, R111, R115, R307: a pulse on an event lane of a CLOSED control clasp begins the lane's acknowledge phase, or is
merged into `CLP_EVM` while that phase lasts; a control clasp that is not CLOSED carries no event. The counter lane beside a
sequencer's lane 0 or 1 counts in every state, wrapping at its width. A data clasp has no event lane. -/
def Claims.eventLanes : Prop :=
  ∀ (s : State) (c : ClaspId) (lane : BitVec 5) (ended : Bool), s.claspFused c = false →
    let key := (c : Nat) * 32 + lane.toNat
    (controlClasp c = false → exec (.eventLaneToggle c lane ended) s = .next s) ∧
    (controlClasp c = true → Claims.Runs (.eventLaneToggle c lane ended) s fun t =>
      (s.claspState c = 2 → (tget t.clasps.acking key).isSome = true ∧
        bit (t.reg (rCLP_EVM c)) lane.toNat =
          (bit (s.reg (rCLP_EVM c)) lane.toNat || ((tget s.clasps.acking key).isSome && !ended))) ∧
      (s.claspState c ≠ 2 → t.clasps = s.clasps ∧ t.reg (rCLP_EVM c) = s.reg (rCLP_EVM c)) ∧
      ∀ q, controlSeq c = some q →
        t.fld (fPSQ_CNT_DONE q) = (s.fld (fPSQ_CNT_DONE q) + (if lane = 0#5 then 1 else 0)) % 2 ^ 32 ∧
        t.fld (fPSQ_CNT_READY q) = (s.fld (fPSQ_CNT_READY q) + (if lane = 1#5 then 1 else 0)) % 2 ^ 32)

/-- R105, R107, R108, R111, R114, R115, R116, R118, R120, R307: clasps break, open and close, and carry events only while CLOSED. -/
def Obligations.ClaspsOpenCloseAndBreak : Prop :=
  Claims.claspBreaks ∧ Claims.claspCommands ∧ Claims.claspHandshake ∧ Claims.eventLanes

/-! ### The MAP assist -/

/-- Commands of `MAP_CMD` that change one page's entry: the state that the entry must be in, and what it becomes (R210). -/
def Claims.mapTable : List ((Endpoint → BitVec 32 → Instr) × Nat × (Frame → Bool) × (Frame → Frame)) :=
  [(.mapAbandon, 3, fun e => e.busy && !e.dirty, fun _ => ⟨0, 0, false, false, false, false, false⟩),
   (.mapSnap, 4, fun e => e.dirty && !e.wb && !e.busy && decide (e.pins = 0), fun e => { e with busy := true }),
   (.mapWritten, 6, fun e => e.wb, fun e => { e with wb := false }),
   (.mapEvict, 7, fun e => !e.dirty && !e.wb && !e.busy && decide (e.pins = 0), fun _ => ⟨0, 0, false, false, false, false, false⟩)]

/-- The commands that fill or copy a frame: the state that the entry must be in, and what it becomes, but for `DIRTY`, which follows
what the frame then holds (R210, R217, R220). -/
def Claims.mapFills : List ((Endpoint → BitVec 32 → Instr) × Nat × (Frame → Bool) × (Frame → Frame)) :=
  [(.mapFilled, 1, fun e => e.busy && !e.dirty, fun e => { e with busy := false }),
   (.mapBuilt, 2, fun e => e.busy && !e.dirty, fun e => { e with busy := false }),
   (.mapCopied, 5, fun e => e.busy && e.dirty, fun e => { e with busy := false, wb := true })]

/-- What `MAP_RESP` and the directory show after a command that changed the entry of frame `x` to `e` (R210, R227). -/
def Claims.mapMoved (s t : State) (op : Nat) (mpn : BitVec 32) (x : Nat) (e : Frame) : Prop :=
  t.frame x = e ∧ t.fld fMAP_RESP_STATUS = 0 ∧ t.fld fMAP_RESP_OP = op ∧ t.fld fMAP_RESP_MPN = mpn.toNat ∧
    ∀ y, y ≠ x → t.frame y = s.frame y

/-- R210, R217, R220, R227: each command of the tables changes the entry of its page from the state that the rule names, and reports 0,
the operation and the page; of a page that is absent it reports 2 and changes no entry. A page filled from flash is dirty where it
differs from flash, a built one always. `PREFETCH` claims a way for an absent page, and `REINIT` empties every way of a set. -/
def Obligations.MapCommandsMoveTheirEntry : Prop :=
  ∀ (s : State) (who : Endpoint) (mpn : BitVec 32),
    (∀ r ∈ Claims.mapTable, ∀ x, s.findPage mpn.toNat = some x → r.2.2.1 (s.frame x) = true →
      Claims.RunsThenSettles (r.1 who mpn) s fun t => Claims.mapMoved s t r.2.1 mpn x (r.2.2.2 (s.frame x))) ∧
    (∀ r ∈ Claims.mapFills, ∀ x, s.findPage mpn.toNat = some x → r.2.2.1 (s.frame x) = true →
      Claims.RunsThenSettles (r.1 who mpn) s fun t =>
        Claims.mapMoved s t r.2.1 mpn x { r.2.2.2 (s.frame x) with dirty := (t.frame x).dirty } ∧
          (r.2.1 = 1 → (t.frame x).dirty = s.pageDirty mpn.toNat) ∧ (r.2.1 = 2 → (t.frame x).dirty = true)) ∧
    (∀ r ∈ Claims.mapTable ++ Claims.mapFills, s.findPage mpn.toNat = none → Claims.RunsThenSettles (r.1 who mpn) s fun t =>
      t.fld fMAP_RESP_STATUS = 2 ∧ ∀ y, t.frame y = s.frame y) ∧
    (s.findPage mpn.toNat = none → (∃ w, w < 8 ∧ (s.frame (s.mapSet mpn.toNat * 8 + w)).valid = false) →
      Claims.RunsThenSettles (.mapPrefetch who mpn) s fun t =>
        t.fld fMAP_RESP_STATUS = 0 ∧ ∃ x, t.findPage mpn.toNat = some x ∧ (t.frame x).busy = true ∧ (t.frame x).dirty = false) ∧
    Claims.RunsThenSettles (.mapReinit who mpn) s fun t =>
      (∀ w, w < 8 → t.frame (mpn.toNat % 2 ^ 18 * 8 + w) = Frame.empty) ∧ t.fld fMAP_RESP_STATUS = 0

/-! ### The bead pool -/

/-- R178, R179, R189: setting `EN` makes every bead that is not retired free, and but for the AHM4816 the pool serves at once; there it
serves when its list is built. `BPM_RETIRE` retires a free bead. -/
def Claims.poolCommands : Prop :=
  ∀ (s : State) (who : Endpoint) (b : BeadId),
    (s.flag fBPM_CTL_EN = false → s.part.freeList = false → s.pool.waiting = [] →
      Claims.RunsThenSettles (.bpmEnable who) s fun t =>
        t.flag fBPM_CTL_EN = true ∧ t.poolReady = true ∧ ∀ x, (t.bead x).st ≠ .granted) ∧
    (s.flag fBPM_CTL_EN = false → s.part.freeList = true → Claims.RunsThenSettles (.bpmEnable who) s fun t =>
      t.flag fBPM_CTL_EN = true ∧ ∀ x, (t.bead x).st ≠ .granted) ∧
    (s.part.freeList = true → s.flag fBPM_CTL_EN = true → s.poolReady = false →
      Claims.Runs .freelistReady s fun t => t.poolReady = true) ∧
    ((s.bead b.toNat).st = .free → s.retiredBeads < 64 → Claims.RunsThenSettles (.bpmRetireWrite who b) s fun t =>
      (t.bead b.toNat).st = .retired ∧ ∀ x, x ≠ b.toNat → t.bead x = s.bead x)

/-- R185, R187: a bead copy copies every double with its poison, between beads granted to the sender, which both stay granted, and
answers; a bead that is not the sender's copies nothing. -/
def Claims.beadCopies : Prop :=
  ∀ (s : State) (src : Endpoint) (a b : BeadId) (mbx : BitVec 4), a ≠ b →
    (s.granted a.toNat (s.mailEp src.toNat) = true → s.granted b.toNat (s.mailEp src.toNat) = true →
      Claims.Runs (.beadCopy src a b mbx []) s fun t =>
        (∀ i, i < 4096 → t.mem.byte (0x0200000000 + b.toNat * 0x1000 + i) = s.mem.byte (0x0200000000 + a.toNat * 0x1000 + i)) ∧
        (∀ i, i < 128 → t.mem.byte (0x0210000000 + b.toNat * 0x80 + i) = s.mem.byte (0x0210000000 + a.toNat * 0x80 + i)) ∧
        (∀ d, d < 512 → t.mem.poisoned (0x0200000000 + b.toNat * 0x1000 + 8 * d) =
          s.mem.poisoned (0x0200000000 + a.toNat * 0x1000 + 8 * d)) ∧
        (∀ x, t.bead x = s.bead x)) ∧
    (s.granted a.toNat (s.mailEp src.toNat) = false → Claims.Runs (.beadCopy src a b mbx []) s fun t => t.mem = s.mem)

/-- R178, R179, R185, R187, R189: the bead pool is enabled, built, retires beads and copies them. -/
def Obligations.BeadPoolServesRetiresAndCopies : Prop := Claims.poolCommands ∧ Claims.beadCopies

/-! ### Memory codes, faults and injectors -/

/-- R414, R418, R420: the scrubber pins a location whose read is uncorrectable as poisoned, and goes on past the last place; a fenced
scrubber reads nothing. -/
def Claims.scrubs : Prop :=
  ∀ (s : State) (id : BitVec 4) (inst : BitVec 6) (off : BitVec 40) (dev : BitVec 5),
    s.scrubs (.sram id inst off) = true → (id = 2#4 ∨ id = 3#4 ∨ id = 4#4 ∨ id = 5#4) →
    Claims.Runs (.scrubAccess (.sram id inst off) (.uncorrectable dev)) s fun t =>
      sHas t.mem.poison (let w := scrubAddr (.sram id inst off); cellKey w.1 w.2 - cellKey w.1 w.2 % 8) = true ∧
        t.mem.cells = s.mem.cells ∧
        t.mec.sramNext = off.toNat - off.toNat % 8 + 8 + inst.toNat * 2 ^ 40 + id.toNat * 2 ^ 46

/-- R415, R424: a write of `MEC_DMARK` with `MARK0` marks the device that it names. -/
def Claims.deviceMarks : Prop :=
  ∀ (s : State) (who : Endpoint) (dev : BitVec 5), s.flag fMEC_DMARK_MARK0 = false → s.flag fMEC_DMARK_MARK1 = false →
    Claims.RunsThenSettles (.mecDmarkWrite who (BitVec.ofNat 64 (dev.toNat + 2 ^ 5))) s fun t =>
      t.flag fMEC_DMARK_MARK0 = true ∧ t.fld fMEC_DMARK_DEV0 = dev.toNat ∧ t.flag fMEC_DMARK_MARK1 = false

/-- R419, R421: the second's correctable counts are logged as an Info record and start afresh; a lap longer than `LAPWARN` raises one
Notice record. -/
def Claims.scrubReports : Prop :=
  ∀ s : State,
    (Claims.Recording s 1 → s.mec.secondDram + s.mec.secondSram ≠ 0 → Claims.Runs .ceSummary s fun t =>
      Claims.Records s t 1 (Config.recordCore 40 % 54) 0x0004 ∧ t.mec.secondDram = 0 ∧ t.mec.secondSram = 0) ∧
    (Claims.Recording s 2 → s.mec.dramWarned = false →
      s.fld fMEC_SCRUB_LAPWARN * 3600000 < s.now / 1000000 - s.mec.dramLapAt → Claims.Runs (.scrubLapWarning true) s fun t =>
        Claims.Records s t 2 118 0x0004 ∧ t.mec.dramWarned = true) ∧
    (s.mec.dramWarned = true → exec (.scrubLapWarning true) s = .next s)

/-- R430 to R432: a stalled core, and a core that firmware declares failed, is fenced and its cluster's spare carries its role; a stall of
a unit that nothing replaces is fatal. -/
def Claims.failures : Prop :=
  ∀ (s : State) (who : Endpoint) (n : CoreId) (ep : Endpoint),
    let sp := bits (s.reg rFCT_SPARE) (8 * ((n : Nat) / 9)) 6
    ((s.core n).status = .running → bit (s.reg rFCT_SPARE) (8 * ((n : Nat) / 9) + 7) = true → sp ≠ n →
      (s.core n).tx.isOpen = false →
      Claims.RunsThenSettles (.stallReport (.core n)) s fun t =>
        (t.core n).status = .fenced ∧ (t.core sp).status = .running ∧ (t.core sp).role = (s.core n).role ∧
          bit (t.reg rFCT_SPARE) (8 * ((n : Nat) / 9) + 7) = false ∧ t.fld fFCT_TAKE_FAILED = n ∧
          t.fld fFCT_TAKE_COUNT = (s.fld fFCT_TAKE_COUNT + 1) % 65536) ∧
    ((s.core n).status = .running → bit (s.reg rFCT_SPARE) (8 * ((n : Nat) / 9) + 7) = true → sp ≠ n →
      (s.core n).tx.isOpen = false →
      Claims.RunsThenSettles (.fltDeclWrite who (BitVec.ofNat 6 n)) s fun t =>
        (t.core n).status = .fenced ∧ (t.core sp).status = .running ∧ (t.core sp).role = (s.core n).role) ∧
    Claims.Runs (.stallReport (.other ep)) s fun t =>
      t.hqe.cfs = true ∧ t.fld fFLT_STAT_FATAL = 1 ∧ t.fld fHQE_CTL_FETCH = 0

/-- R116, R437: once a DDR5 island has re-trained, each of its clasps that were broken and that close by themselves is CLOSED. -/
def Claims.retrainCloses : Prop :=
  ∀ (s : State) (ch : Fin 2), s.claspState (2 + 2 * ch) = 3 → s.claspState (3 + 2 * ch) = 3 →
    Claims.Runs (.ddr5RetrainDone ch) s fun t =>
      ∀ c, c = 2 + 2 * (ch : Nat) ∨ c = 3 + 2 * (ch : Nat) → sHas t.clasps.inReset c = false ∧
        t.claspState c = if s.flag (fCLP_CTL_AUTO c) then 2 else 3

/-- R440, R441: with the gate open a valid setting arms the injector; an event that is due fires it, and at its count it is done. -/
def Claims.injectors : Prop :=
  ∀ (s : State) (who : Endpoint) (i : Fin 8) (n : CoreId),
    (s.flag fFLT_STAT_GATE = true → s.injArmed i = false → s.injValid 0x01 0 (s.fld (fFLT_INJC_PARAM i)) = true →
      Claims.RunsThenSettles (.injectorArm who i 0x10001#64) s fun t =>
        t.injArmed i = true ∧ t.fld (fFLT_INJA_KIND i) = 1 ∧ t.fld (fFLT_INJD_SEEN i) = 0 ∧ t.fld (fFLT_INJD_FIRED i) = 0) ∧
    (s.injArmed i = true → s.fld (fFLT_INJA_KIND i) = 0x20 → s.fld (fFLT_INJA_TGT i) = n → s.injDue i = true →
      Claims.RunsThenSettles (.injectorTick i) s fun t =>
        (t.core n).stallBy = some (i : Nat) ∧ t.fld (fFLT_INJD_FIRED i) = (s.fld (fFLT_INJD_FIRED i) + 1) % 2 ^ 32)

/-- R414, R415, R418, R419, R420, R421, R424: the scrubber pins, laps and reports; a device is marked. -/
def Obligations.MemoryCodesAndScrubber : Prop := Claims.scrubs ∧ Claims.deviceMarks ∧ Claims.scrubReports
/-- R116, R430, R431, R432, R437, R440, R441: stalls and declared failures are masked by a spare or fatal; re-trained islands
close; injectors arm and fire. -/
def Obligations.FaultsAreMaskedOrFatal : Prop := Claims.failures ∧ Claims.retrainCloses ∧ Claims.injectors

/-! ### The event recorder -/

/-- R547, R548, R551: a well-formed record message becomes the ring's next record, with its severity, kind, source and body. -/
def Claims.recordMessages : Prop :=
  ∀ (s : State) (src : Endpoint) (p : BitVec 512), badRecord 0 0x1D0 p = false → pGet p 0 2 ≠ 0xFFFF → bit (BitVec.ofNat 64 (pGet p 2 1)) 6 = false →
    tget s.evr.firsts src.toNat = none → Claims.Recording s (pGet p 2 1 % 8) →
    Claims.Runs (.evrLogMessage src 0#4 0x1D0#12 p) s fun t =>
      Claims.Records s t (pGet p 2 1 % 8) src.toNat (pGet p 0 2)

/-- R550, R553, R556, R558: a held first record whose continuation does not come is dropped and counted; `EN` moves the early records
into the ring; the counter codeword and the lifetime counts are saved. -/
def Claims.recorderEvents : Prop :=
  ∀ (s : State) (src : Endpoint) (who : Endpoint),
    ((tget s.evr.firsts src.toNat).isSome → Claims.Runs (.evrContinuationTimeout src) s fun t =>
      tget t.evr.firsts src.toNat = none ∧ t.fld fEVR_STAT_DROPPED = Nat.min (s.fld fEVR_STAT_DROPPED + 1) 65535) ∧
    (s.flag fEVR_CTL_EN = false → s.fld fEVR_CTL_MINSEV ≤ 4 →
      Claims.RunsThenSettles (.evrEnable who) s fun t =>
        t.flag fEVR_CTL_EN = true ∧ t.evr.ring = s.evr.ring ++ s.evr.early ∧ t.evr.early = []) ∧
    Claims.Runs .counterCodewordWrite s (fun t =>
      t.evr.counters = (s.hours, s.activeHours, s.fld fEVR_STARTS_STARTS, s.evr.mark / 2 ^ 24) :: s.evr.counters) ∧
    Claims.Runs .lifetimeCountSave s (fun t => t.evr.lifetimeSaved = t.evr.lifetime) ∧
    Claims.Runs (.logSnapshotExpiry false) s (fun t => t = { s with evr := { s.evr with hostSnap := none } }) ∧
    Claims.Runs (.logSnapshotExpiry true) s (fun t => t = { s with evr := { s.evr with mgmtSnap := none } })

/-- R438, R549, R561: the health summary is logged as a record of kind 0x0104 under the core that makes it; an Alert Response read while
MB_ALERT_N is asserted returns the address and releases it, else it is not acknowledged. -/
def Claims.summariesAndAlert : Prop :=
  ∀ (s : State) (n : CoreId),
    (Claims.Recording s 1 → Claims.Runs (.healthSummary n) s fun t => Claims.Records s t 1 n 0x0104) ∧
    (s.flag fEVR_STAT_ALERT = true → Claims.Runs .alertResponseRead s fun t =>
      t.mgmt.out = s.mgmt.out ++ [BusEvent.alertResponse (0x1D + s.pwr.addr)] ∧ t.flag fEVR_STAT_ALERT = false) ∧
    (s.flag fEVR_STAT_ALERT = false → Claims.Runs .alertResponseRead s fun t => t.mgmt.out = s.mgmt.out ++ [BusEvent.nack])

/-- R438, R547, R548, R549, R550, R551, R553, R556, R558, R561: record messages, saved counters, the health summary and the alert.
-/
def Obligations.TheRecorderKeepsWhatItIsTold : Prop := Claims.recordMessages ∧ Claims.recorderEvents ∧ Claims.summariesAndAlert


/-! ### Supplies, resets and starts -/

/-- R25, R41, R47, R484, R492, R493: a start from the next-start slot `k` with every unit healthy: the directory names `k` as running,
Signet is ready, and the cores that are neither fused off nor their cluster's spare run at the entry of the image. -/
def Claims.Starts (s t : State) (r : BootReport) : Prop :=
  ∀ p, s.boot.dir.next ≠ 0 → s.startPackage r s.boot.dir.next = some p → r.recovLow = false → r.crystal = true →
    r.signetTest = 0#8 → r.recordOk = true → r.failedCores = [] → r.seqFailed = [] →
    t.boot.dir.running = s.boot.dir.next ∧ t.fld fSIG_STAT_READY = 1 ∧
      ∀ n, n < 54 → n % 9 + 1 < s.part.coresPer →
        (t.core n).status = .running ∧ (t.core n).pc = p.entry.toNat / 4 * 4 ∧ (t.core n).role = n

/-- R493, R505: RECOV_N low or a crystal that does not start ends in ROM Recovery: no core runs, and the identifiers are locked at
zero. -/
def Claims.RecoversInRom (t : State) (r : BootReport) : Prop :=
  (r.recovLow = true ∨ r.crystal = false) →
    t.fld fARC_MODE_CUR = 0 ∧ t.fld fHQE_PCID_LOCK = 1 ∧ ∀ n, (t.core n).status = .unreleased

/-- R41, R47, R534, R570, R571: VAON rises into power-on reset; a rail below its minimum, or PERST_N, resets the device: no core runs,
memory lists nothing, the mode is Boot. -/
def Claims.resets : Prop :=
  ∀ (s : State) (addr : BitVec 2) (low vaon : Bool),
    (s.pwr.vaon = false → Claims.Runs (.powerOn addr low) s fun t =>
      t.pwr.vaon = true ∧ t.pwr.porDone = false ∧ t.pwr.perstLow = low ∧ t.pwr.addr = addr.toNat ∧ t.reg rPAD_HOLD = 0#64 ∧
        t.mem = ⟨[], [], []⟩ ∧ t.cores = [] ∧ t.boot.startCause = 1) ∧
    (s.pwr.vaon = true → Claims.Runs (.railBelowMinimum vaon) s fun t =>
      t.pwr.vaon = (!vaon) ∧ t.pwr.porDone = false ∧ t.mem = ⟨[], [], []⟩ ∧ t.cores = [] ∧ t.fld fARC_MODE_CUR = 1 ∧
        t.reg rPAD_HOLD = s.reg rPAD_HOLD ∧ t.lkt.words = s.lkt.words ∧ t.boot.startCause = 1) ∧
    (s.pwr.vaon = true → s.pwr.perstLow = false → s.pwr.porDone = true → Claims.Runs .perstNAssert s fun t =>
      t.pwr.perstLow = true ∧ t.mem = ⟨[], [], []⟩ ∧ t.cores = [] ∧ t.fld fARC_MODE_CUR = 1 ∧
        t.reg rPAD_HOLD = s.reg rPAD_HOLD ∧ t.lkt.words = s.lkt.words ∧ t.boot.startCause = 2)

/-- R492, R570: power-on reset ends, or PERST_N is released, and the start begins once neither holds it back. -/
def Claims.starts : Prop :=
  ∀ (s : State) (r : BootReport),
    (s.pwr.vaon = true → s.pwr.porDone = false → s.pwr.perstLow = true → Claims.Runs (.powerOnResetEnd r) s fun t =>
      t.pwr.porDone = true ∧ t.pwr.crystal = r.crystal ∧ t.cores = s.cores) ∧
    (s.pwr.vaon = true → s.pwr.porDone = false → s.pwr.perstLow = false → Claims.Runs (.powerOnResetEnd r) s fun t =>
      Claims.Starts s t r ∧ Claims.RecoversInRom t r) ∧
    (s.pwr.vaon = true → s.pwr.perstLow = true → s.pwr.porDone = true → Claims.Runs (.perstNRelease r) s fun t =>
      Claims.Starts s t r ∧ Claims.RecoversInRom t r) ∧
    (s.pwr.vaon = true → s.pwr.porDone = true → s.pwr.perstLow = false → s.fld fPWR_STAT_STATE = 0 →
      Claims.Runs (.nvmSubsystemReset r) s fun t => t.hqe.nssro = true ∧ Claims.Starts s t r) ∧
    (s.fld fARC_MODE_CUR = 0 → Claims.Runs (.romReset .host r) s fun t => Claims.Starts s t r ∧ Claims.RecoversInRom t r)

/-- R41, R47, R492, R534, R570, R571: supplies and PERST_N reset the device, and a start releases the cores. -/
def Obligations.ResetsAndStarts : Prop := Claims.resets ∧ Claims.starts

/-! ### ROM Recovery -/

/-- R488, R499, R506, R507: in ROM Recovery the host begins a transfer for slot 2, sends its pieces, ends it with a package that
verifies, reads the status word, and once the copies are written slot 2 is the next-start slot. -/
def Obligations.RomRecoveryTakesAPackage : Prop :=
  ∀ (s : State) (len off n : BitVec 32) (p : Package) (copies : List CopyAt), s.fld fARC_MODE_CUR = 0 →
    (s.boot.romState ≠ 3 → 0 < len.toNat → len.toNat ≤ 2 ^ 24 → Claims.Runs (.romBegin .host len 2#4) s fun t =>
      t = { s with boot := { s.boot with
        romState := 1, romFail := 0, romLen := len.toNat, romTarget := 2, romPieces := [], romPackage := none } }) ∧
    (s.boot.romState ≠ 3 → Claims.Runs (.romBegin .host len 1#4) s fun t => t.boot.romState = 5 ∧ t.boot.romFail = 7) ∧
    (s.boot.romState = 1 → off.toNat + n.toNat ≤ s.boot.romLen → n.toNat ≤ 32768 →
      (∀ q ∈ s.boot.romPieces, off.toNat + n.toNat ≤ q.1 ∨ q.1 + q.2 ≤ off.toNat) →
      Claims.Runs (.romData .host off n) s fun t =>
        t = { s with boot := { s.boot with romPieces := s.boot.romPieces ++ [(off.toNat, n.toNat)] } }) ∧
    (s.boot.romState = 1 → (sumOf (fun (q : Nat × Nat) => q.2) s.boot.romPieces) = s.boot.romLen → p.signed = true →
      s.ownerGood false p = true → p.fits = true → s.aboveFloors p = true →
      Claims.Runs (.romEnd .host (some p)) s fun t => t = { s with boot := { s.boot with romState := 3, romPackage := some p } }) ∧
    Claims.Runs (.romStatus .host) s (fun t =>
      t = { s with hqe := { s.hqe with hostOut := s.hqe.hostOut ++ [HostEvent.romStatus s.romWord] } }) ∧
    (s.boot.romState = 3 → s.boot.romPackage = some p → s.boot.romTarget = 2 → goodCopies s.part.channels copies = true →
      Claims.Runs (.romPackageWritten true copies) s fun t =>
        t.boot.romState = 4 ∧ tget t.boot.slots 2 = some p ∧ t.boot.dir.next = 2 ∧ t.boot.dir.running = 2 ∧
          t.boot.dir.valid2 = true)

/-! ### The operating point, sleep and wake -/

/-- R27, R29, R37, R544, R572: the measured rate; the voltage that firmware or a store requests, in steps of 5 mV from 550 to 850; and
what the regulator answers. -/
def Claims.regulator : Prop :=
  ∀ (s : State) (who : Endpoint) (rate : BitVec 16) (mv : BitVec 10) (v : Word) (good : Bool),
    (s.pwr.crystal = true → Claims.Runs (.paceUpdate rate true) s fun t =>
      t.fld fARC_PACE_RATE = rate.toNat ∧ t.fld fARC_PACE_VALID = 1 ∧ t = { s with regs := t.regs }) ∧
    Claims.Runs (.paceUpdate rate false) s (fun t => t.fld fARC_PACE_VALID = 0 ∧ t.fld fARC_PACE_RATE = s.fld fARC_PACE_RATE) ∧
    (s.fld fARC_PACE_VALID = 1 → goodMv mv.toNat = true → Claims.RunsThenSettles (.operatingPointUpdate who mv) s fun t =>
      t.fld fPWR_AVS_REQ = mv.toNat ∧ t.fld fPWR_AVS_BUSY = 1) ∧
    (s.fld fARC_PACE_VALID = 0 → exec (.operatingPointUpdate who mv) s = .next s) ∧
    (goodMv (bits v 0 10) = true → Claims.RunsThenSettles (.avsVoltageWrite who v) s fun t =>
      t.fld fPWR_AVS_REQ = bits v 0 10 ∧ t.fld fPWR_AVS_BUSY = 1) ∧
    (goodMv (bits v 0 10) = false → exec (.avsVoltageWrite who v) s = .next s.settle) ∧
    (s.fld fPWR_AVS_BUSY = 1 → Claims.Runs (.avsTransactionDone mv good true) s fun t =>
      t.fld fPWR_AVS_BUSY = 0 ∧ t.fld fPWR_AVS_READ = mv.toNat ∧ t.fld fPWR_AVS_PG = b2n good ∧ t.fld fPWR_AVS_ERR = 0) ∧
    (s.fld fPWR_AVS_BUSY = 1 → Claims.Runs (.avsTransactionDone mv good false) s fun t =>
      t.fld fPWR_AVS_BUSY = 0 ∧ t.fld fPWR_AVS_ERR = 1 ∧ t.fld fPWR_AVS_READ = s.fld fPWR_AVS_READ)

/-- R532, R533, R544: `GO` with the mode that is current as its target powers the device down, or waits for a Locket program; another
target is refused. An entry that overruns is abandoned: fetching resumes and the power state goes back. -/
def Claims.sleepEntry : Prop :=
  ∀ (s : State) (who : Endpoint) (deep : Bool),
    let target := if deep then 9 else 8
    let v : Word := BitVec.ofNat 64 (target + 16)
    (s.pwr.entry = 0 → s.fld fARC_MODE_CUR = target → s.fld fPWR_STAT_STATE = 0 → s.lkt.program = none →
      Claims.RunsThenSettles (.pwrSleepGo who v) s fun t =>
        t.fld fPWR_STAT_STATE = 2 ∧ t.pwr.deep = deep ∧ t.pwr.crystal = false ∧ t.pwr.coreEn = (!deep) ∧
          t.fld fPWR_STAT_SLEEPS = (s.fld fPWR_STAT_SLEEPS + 1) % 2 ^ 32 ∧ (deep = true → t.cores = []) ∧
          bits (t.reg rPAD_HOLD) 0 5 = 0x1F) ∧
    (s.pwr.entry = 0 → s.fld fARC_MODE_CUR = target → s.fld fPWR_STAT_STATE = 0 → s.lkt.program ≠ none →
      Claims.RunsThenSettles (.pwrSleepGo who v) s fun t => t.fld fPWR_STAT_STATE = 1) ∧
    (s.pwr.entry = 0 → s.fld fARC_MODE_CUR ≠ target → exec (.pwrSleepGo who v) s = .next s.settle) ∧
    (s.pwr.entry ≠ 0 → Claims.Runs .sleepEntryOverrun s fun t =>
      t.pwr.entry = 0 ∧ t.fld fHQE_CTL_FETCH = 1 ∧ tgetD t.hqe.features 0x02 0 = s.pwr.lastOp)

/-- The state of a wake that has begun with cause `cause` (R535, R537, R539): voltage requested for the first attempt. -/
def Claims.Waking (s t : State) (cause : Nat) : Prop :=
  t.fld fPWR_STAT_STATE = 3 ∧ t.fld fPWR_STAT_CAUSE = cause ∧ t.pwr.wakeStep = 2 ∧ t.pwr.wakeTry = 1 ∧ t.pwr.coreEn = true ∧
    t.fld fPWR_AVS_BUSY = 1 ∧ t.fld fPWR_AVS_REQ = s.fld fPWR_AVSW_WAKEMV

/-- R535 to R537: what wakes a device that sleeps; on the bus, up to 64 bytes of the write are held. -/
def Claims.wakeEvents : Prop :=
  ∀ (s : State) (bytes : List Byte), s.fld fPWR_STAT_STATE = 2 →
    (s.flag fPWR_WAKE_MBEN = true → Claims.Runs (.wakeManagementBus bytes) s fun t =>
      Claims.Waking s t 1 ∧ t.pwr.wakeBuf = bytes.take 64) ∧
    (s.flag fPWR_WAKE_PCIEN = true → Claims.Runs .wakePcie s fun t => Claims.Waking s t 2) ∧
    (s.flag fPWR_WAKE_ALMEN = true → Claims.Runs .wakeAlarm s fun t => Claims.Waking s t 3) ∧
    (s.flag fPWR_WAKE_PCIEN = false → exec .wakePcie s = .next s)

/-- R536 to R541: power good starts the crystal; with it stable the device goes on from Idle-Retain in its health mode, the sleep
added to the time, or from Deep Sleep starts; an attempt that fails is retried, and without a regulator the fourth leaves the wake
failed. -/
def Claims.wakeSteps : Prop :=
  ∀ (s : State) (mv : BitVec 10) (count : BitVec 48) (r : BootReport), s.fld fPWR_STAT_STATE = 3 →
    (s.pwr.wakeStep = 2 → s.fld fPWR_AVS_BUSY = 1 → Claims.Runs (.wakePowerGood mv) s fun t =>
      t.pwr.wakeStep = 3 ∧ t.fld fPWR_AVS_READ = mv.toNat ∧ t.fld fPWR_AVS_PG = 1) ∧
    (s.pwr.wakeStep = 3 → s.pwr.deep = false → s.fld fARC_MODE_CUR = 8 → isHealth (s.fld fARC_MODE_HEALTH) = true →
      Claims.RunsThenSettles (.wakeCrystalStable count r) s fun t =>
        t.fld fPWR_STAT_STATE = 0 ∧ t.fld fPWR_XTAL_OK = 1 ∧ t.fld fARC_MODE_CUR = s.fld fARC_MODE_HEALTH ∧
          t.fld fARC_MODE_CAUSE = 0xF ∧ t.fld fTMR_SLEPT_US = count.toNat * s.fld fTMR_RCAL_PERIOD / 1000000 % 2 ^ 48 ∧
          t.now = s.now + count.toNat * s.fld fTMR_RCAL_PERIOD / 1000) ∧
    (s.pwr.wakeStep = 3 → s.pwr.deep = true → Claims.RunsThenSettles (.wakeCrystalStable count r) s fun t => Claims.Starts s t r) ∧
    (1 ≤ s.pwr.wakeTry → s.pwr.wakeTry < 4 → s.pwr.porDone = true → Claims.Runs (.wakeAttemptFail count r) s fun t =>
      t.pwr.wakeTry = s.pwr.wakeTry + 1 ∧ t.fld fPWR_STAT_TRIES = s.pwr.wakeTry + 1 ∧ t.pwr.wakeStep = 2 ∧
        t.fld fPWR_AVS_REQ = s.fld fPWR_AVSW_ALTMV) ∧
    (s.pwr.wakeTry = 4 → s.pwr.wakeStep = 2 → s.pwr.porDone = true → Claims.Runs (.wakeAttemptFail count r) s fun t =>
      t.fld fPWR_STAT_STATE = 4 ∧ t.fld fPWR_STAT_FSTEP = 2 ∧ t.fld fPWR_STAT_TRIES = 4 ∧ t.flag fEVR_STAT_ALERT = true) ∧
    Claims.Runs .mbTransactionDuringWake s fun t =>
      t.pwr.wakeRefused = true ∧ t.mgmt.out = s.mgmt.out ++ [BusEvent.nack]

/-- R27, R29, R37, R544, R572: the measured rate, the voltage requested and the regulator's answers. -/
def Obligations.RegulatorFollowsRequests : Prop := Claims.regulator
/-- R532, R533, R535, R536, R537, R538, R539, R540, R541, R544: sleep entry, its overrun, wake events and the steps of a wake. -/
def Obligations.SleepAndWake : Prop := Claims.sleepEntry ∧ Claims.wakeEvents ∧ Claims.wakeSteps

/-! ### Pads, the Timestamp, temperature and modes -/

/-- R534, R545: a write of `PAD_HOLD` releases the groups whose bits are one; one that would release a held group of an unpowered
island is refused and counted. R541, R546: a write of `TMR_STAMP` sets the Timestamp, if its clasp is CLOSED; else it is lost and
counted (R115). Both complete in every state, with every value. -/
def Claims.padsAndStamp : Prop :=
  ∀ (s : State) (who : Endpoint) (v : Word),
    (Claims.RunsThenSettles (.padHoldRelease who v) s fun t =>
      (s.refusePad rPAD_HOLD v = false →
        (∀ g, g < 6 → bit (t.reg rPAD_HOLD) g = (bit (s.reg rPAD_HOLD) g && !bit v g)) ∧ t = { s with regs := t.regs }) ∧
      (s.refusePad rPAD_HOLD v = true →
        t.reg rPAD_HOLD = s.reg rPAD_HOLD ∧ t.fld fPAD_STAT_REFUSED = min (s.fld fPAD_STAT_REFUSED + 1) 65535)) ∧
    Claims.RunsThenSettles (.tmrStampWrite who v) s fun t =>
      (s.claspState 7 = 2 →
        t.fld fTMR_STAMP_MS = bits v 0 48 ∧ t.fld fTMR_STAMP_ORIGIN = bits v 48 3 ∧ t.pwr.stampAt = s.now ∧
          t.fld fTMR_STAT_EST = 0 ∧ t.fld fTMR_STAT_SYNCH = 0) ∧
      (s.claspState 7 ≠ 2 →
        t.reg rTMR_STAMP = s.reg rTMR_STAMP ∧ t.fld (fCLP_CNT_LOST 7) = min (s.fld (fCLP_CNT_LOST 7) + 1) 65535)

/-- R430, R583: the limit in force at a composite temperature, lifted 3 °C below its threshold; a trip is fatal and stays. Both complete
in every state. -/
def Claims.temperature : Prop :=
  ∀ (s : State) (c : Int),
    (Claims.Runs (.thermalLimit c) s fun t =>
      t.pwr.composite = c ∧ (124 ≤ c → t.pwr.thermal = 2) ∧ (121 ≤ c → c < 124 → s.pwr.thermal ≤ 1 → t.pwr.thermal = 1) ∧
        (121 < c → c < 124 → s.pwr.thermal = 2 → t.pwr.thermal = 2) ∧
        (118 < c → c < 121 → s.pwr.thermal = 0 → t.pwr.thermal = 0) ∧ (118 < c → c < 121 → s.pwr.thermal ≠ 0 → t.pwr.thermal = 1) ∧
        (c ≤ 118 → t.pwr.thermal = 0)) ∧
    Claims.Runs .thermalTrip s fun t =>
      t.pwr.tripped = true ∧ (s.pwr.tripped = true → t = s) ∧
        (s.pwr.tripped = false → t.hqe.cfs = true ∧ t.fld fFLT_STAT_FATAL = 1 ∧ t.fld fHQE_CTL_FETCH = 0)

/-- R33, R40 to R44: a request completes in every mode, and no request leaves `CUR` or `HEALTH` at a value that is no mode or no health
level. Signet's first request leaves Boot for a health mode with cause 0x01; from a health mode any core may enter Maintenance, and
requesting the overlay again ends it; Manufacturing takes no request, and of two cores that request at one moment the second is
refused, which is noted. -/
def Claims.modes : Prop :=
  ∀ (s : State) (who : Endpoint) (req : BitVec 4),
    let cur := s.fld fARC_MODE_CUR
    let h := s.fld fARC_MODE_HEALTH
    let mine := s.goTaken who.toNat = false
    (Claims.RunsThenSettles (.modeRequest who req) s fun t =>
      (cur ≤ 0xB → isHealth h = true → t.fld fARC_MODE_CUR ≤ 0xB ∧ isHealth (t.fld fARC_MODE_HEALTH) = true) ∧
      (mine → isHealth cur = true → req = 6#4 → t.fld fARC_MODE_CUR = 6 ∧ t.fld fARC_MODE_HEALTH = h ∧
        t.fld fARC_MODE_CAUSE = 9 ∧ t.fld fARC_MODE_PREV = cur) ∧
      (mine → cur = 6 → isHealth h = true → req = 6#4 →
        t.fld fARC_MODE_CUR = h ∧ t.fld fARC_MODE_HEALTH = h ∧ t.fld fARC_MODE_CAUSE = 0xA) ∧
      (cur = 0xB ∨ ¬mine → t.fld fARC_MODE_CUR = cur ∧ t.fld fARC_MODE_HEALTH = h ∧ t.fld fARC_MODE_REFUSED = 1)) ∧
    (cur = 1 → isHealth req.toNat = true → Claims.RunsThenSettles (.modeRequest 112#7 req) s fun t =>
      t.fld fARC_MODE_CUR = req.toNat ∧ t.fld fARC_MODE_HEALTH = req.toNat ∧ t.fld fARC_MODE_CAUSE = 1 ∧
        t.fld fARC_MODE_PREV = 1 ∧ t.fld fARC_MODE_CHANGED = 1)

/-- R33, R40, R41, R42, R44, R430, R534, R541, R545, R546, R583: a write of the pad holds or of the Timestamp, a thermal limit, a thermal
trip and a mode request complete in every state, with the effect that the rules give them. -/
def Obligations.PadsTimeTemperatureAndModes : Prop := Claims.padsAndStamp ∧ Claims.temperature ∧ Claims.modes


/-! ### Locket -/

/-- A codeword that reads normally: no erase is under way, its sector is not indeterminate, it is erased or whole, and one corrected bit
or more is needed for a warning. -/
def Claims.wholeWord (s : State) (cw : Nat) : Prop :=
  s.lkt.erase = none ∧ (s.lkSector (lkSectorOf cw)).indet = false ∧ (s.lkWord cw).begun = (s.lkWord cw).done ∧
    1 ≤ s.fld fLKT_EW_THRESH

/-- R48, R58, R511, R513: a load of a whole codeword through the window puts the half at its address into `gd`, clean; the load of a
partition that cores may not read traps. -/
def Claims.locketLoads : Prop :=
  ∀ (s u : State) (n : CoreId) (f : Ecc) (gd ga : RegIdx) (imm : BitVec 16), Fetches s u n f → u.gp n ga = false →
    s.addrImm n ga imm = u.addrImm n ga imm →
    let a := (u.gv n ga + imm.signExtend 64).toNat
    ∀ off, 0x0500000000 + off = a → off < 0x200000 →
      (a % 8 = 0 → ¬(0x8000 ≤ off ∧ off < 0x80000) → Claims.wholeWord u (off / 16) →
        ∃ t, exec (.locketWindowLoad n f gd ga imm .clean) s = .next t ∧
          Result u t n gd ((u.lkWord (off / 16)).data.extractLsb' (64 * (off / 8 % 2)) 64) false) ∧
      (0x8000 ≤ off ∧ off < 0x80000 → Plain u n →
        ∃ t, exec (.locketWindowLoad n f gd ga imm .clean) s = .next t ∧ Traps u t n 0x05 2 a false)

/-- R515: the two keys in order unlock the writer's port, F for a core or another unit and S for Signet; a wrong key, and 10 µs within a
sequence, end it with result 1. -/
def Claims.locketUnlocks : Prop :=
  ∀ (s : State) (who : Endpoint) (v : Word) (signet : Bool),
    let p := lkPortOf who.toNat
    (s.fld (fLKT_STAT_BUSY p) = 0 →
      (s.fld (fLKT_STAT_SEQ p) = 0 → Claims.RunsThenSettles (.lktUnlock who 0xA5C36E1D#64) s fun t =>
        t.fld (fLKT_STAT_SEQ p) = 1 ∧ (p = 0 → t.fld (fLKT_STAT_OWNER 0) = who.toNat)) ∧
      (s.fld (fLKT_STAT_SEQ p) = 1 → (p = 0 → s.fld (fLKT_STAT_OWNER 0) = who.toNat) → s.now ≤ tgetD s.lkt.lastAt p 0 + 10000 →
        Claims.RunsThenSettles (.lktUnlock who 0x5A3C91E2#64) s fun t => t.fld (fLKT_STAT_SEQ p) = 2) ∧
      (s.fld (fLKT_STAT_SEQ p) = 0 → v ≠ 0xA5C36E1D#64 → Claims.RunsThenSettles (.lktUnlock who v) s fun t =>
        t.fld (fLKT_STAT_SEQ p) = 0 ∧ t.fld (fLKT_STAT_RESULT p) = 1)) ∧
    (s.fld (fLKT_STAT_SEQ (b2n signet)) ≠ 0 → Claims.Runs (.lktSequenceTimeout signet) s fun t =>
      t.fld (fLKT_STAT_SEQ (b2n signet)) = 0 ∧ t.fld (fLKT_STAT_RESULT (b2n signet)) = 1) ∧
    (s.fld (fLKT_STAT_SEQ (b2n signet)) = 0 → exec (.lktSequenceTimeout signet) s = .next s)

/-- The port of `who` stands in its sequence before its last store, with nothing under way in the array. -/
def Claims.locketReady (s : State) (who : Endpoint) (seq op : Nat) : Prop :=
  let p := lkPortOf who.toNat
  s.fld (fLKT_STAT_BUSY p) = 0 ∧ s.fld (fLKT_STAT_SEQ p) = seq ∧ tgetD s.lkt.op p 0 = op ∧
    (p = 0 → s.fld (fLKT_STAT_OWNER 0) = who.toNat) ∧ s.now ≤ tgetD s.lkt.lastAt p 0 + 10000 ∧
    s.lkt.program = none ∧ s.lkt.erase = none ∧ s.lkt.waiting = []

/-- R511, R515 to R517, R520, R521: the last store of a sequence starts its operation: a program of an erased codeword writes it, begun
and not done; an erase is counted; CHECK reports the codeword and its markers. -/
def Claims.locketOperations : Prop :=
  ∀ (s : State) (who : Endpoint) (v : Word),
    let p := lkPortOf who.toNat
    let cw := tgetD s.lkt.addr p 0
    let c := bits v 4 17
    (Claims.locketReady s who 5 1 → s.fld fLKT_VMON_VLKTLOW = 0 → lkWrites p (lkSectorOf cw) = true →
      (s.lkSector (lkSectorOf cw)).indet = false → (s.lkWord cw).begun = false →
      Claims.RunsThenSettles (.lktProgram who v) s fun t =>
        t.lkt.program = some ⟨p, 1, cw, v ++ tgetD s.lkt.d0 p 0#64⟩ ∧
          t.lkWord cw = ⟨v ++ tgetD s.lkt.d0 p 0#64, true, false⟩ ∧ (∀ x, x ≠ cw → t.lkWord x = s.lkWord x) ∧
          t.fld (fLKT_STAT_BUSY p) = 1 ∧ t.fld (fLKT_STAT_SEQ p) = 0) ∧
    (Claims.locketReady s who 3 2 → s.fld fLKT_VMON_VLKTLOW = 0 → c % 256 = 0 → lkWrites p (lkSectorOf c) = true →
      Claims.RunsThenSettles (.lktErase who v) s fun t =>
        t.lkt.erase = some ⟨p, lkSectorOf c, false, 0, s.now⟩ ∧
          (t.lkSector (lkSectorOf c)).erases = min ((s.lkSector (lkSectorOf c)).erases + 1) (2 ^ 24 - 1) ∧
          t.lkt.words = s.lkt.words ∧ t.fld (fLKT_STAT_BUSY p) = 1) ∧
    (Claims.locketReady s who 3 3 → Claims.wholeWord s c → (p = 0 → lkHidden (lkSectorOf c) = false) →
      Claims.RunsThenSettles (.lktCheck who v .clean) s fun t =>
        t.reg (rLKT_DATA0 p) = (s.lkWord c).data.extractLsb' 0 64 ∧ t.reg (rLKT_DATA1 p) = (s.lkWord c).data.extractLsb' 64 64 ∧
          t.fld (fLKT_STAT_RESULT p) = 0 ∧ t.fld (fLKT_STAT_CBITS p) = 0 ∧
          t.fld (fLKT_STAT_WRITTEN p) = b2n (s.lkWord c).done ∧ t.fld (fLKT_STAT_TORN p) = 0 ∧ t.lkt = s.lkt)

/-- The recorder has no copy of a record to program (R554). -/
def Claims.noCopies (s : State) : Prop := s.evr.copies = [] ∧ s.evr.copying = none

/-- R516 to R518, R555: a program that ends is verified, or leaves its codeword torn; an erase that ends leaves its sector erased, or
indeterminate; a suspended one resumes, but the recorder's not while it has a copy to program. What then starts is the recorder's. -/
def Claims.locketEnds : Prop :=
  ∀ (s : State) (good : Bool) (o : LkOp) (e : LkErase), s.lkt.waiting = [] →
    (s.lkt.program = some o → (s.lkWord o.cw).begun = true → s.fld fPWR_STAT_STATE ≠ 1 →
      Claims.Runs (.lktProgramDone good) s fun t =>
      (Claims.noCopies s → t.lkt.program = none) ∧ t.lkWord o.cw = { s.lkWord o.cw with done := good } ∧
        (o.port < 2 → t.fld (fLKT_STAT_BUSY o.port) = 0 ∧ t.fld (fLKT_STAT_RESULT o.port) = if good then 0 else 7)) ∧
    (s.lkt.erase = some e → e.suspended = false → Claims.Runs (.lktEraseDone good) s fun t =>
      (∀ x, t.lkt.erase = some x → x.port = 2) ∧ (t.lkSector e.sector).indet = (!good) ∧
        (good = true → Claims.noCopies s → ∀ cw, lkSectorOf cw = e.sector → t.lkWord cw = LkWord.erased) ∧
        (e.port < 2 → t.fld (fLKT_STAT_BUSY e.port) = 0 ∧ t.fld (fLKT_STAT_RESULT e.port) = if good then 0 else 8)) ∧
    (s.lkt.erase = some e → e.suspended = true → s.lkt.program = none → s.fld fPWR_STAT_STATE ≠ 2 →
      (e.port = 2 → Claims.noCopies s) →
      Claims.Runs .lktEraseResume s fun t =>
        t = { s with lkt := { s.lkt with erase := some { e with suspended := false, since := s.now } } })

/-- The access time of the array at VAON, in ns (R519). -/
def Claims.accessTime (vaon : Nat) : Nat := if 750 ≤ vaon then 45 else if 730 ≤ vaon then 60 else 80

/-- R519, R521, R522: firmware sets the least number of wait states that covers the access time with a margin of 5 %; the supply monitor
sets and clears `VLKTLOW` at 1.71 V; a scan that finds nothing changes nothing of the array and raises nothing, and one that finds an
uncorrectable codeword logs it. -/
def Claims.locketSupervision : Prop :=
  ∀ (s : State) (who : Endpoint) (period : BitVec 16) (vaon : BitVec 10) (mv : BitVec 11) (cw : BitVec 17) (d : BitVec 5),
    (s.pwr.crystal = true → period ≠ 0#16 → 713 ≤ vaon.toNat →
      Claims.RunsThenSettles (.lktWaitUpdate who period true vaon) s fun t =>
        t.fld fLKT_REF_PERIOD = period.toNat ∧ t.fld fLKT_REF_VALID = 1 ∧ t.fld fLKT_VMON_VAON = vaon.toNat ∧
          1 ≤ t.fld fLKT_WAIT_WS ∧
          (∀ w, 1 ≤ w → w < t.fld fLKT_WAIT_WS → w * period.toNat * 95 < Claims.accessTime vaon.toNat * 100000) ∧
          (t.fld fLKT_WAIT_WS = 15 ∨ Claims.accessTime vaon.toNat * 100000 ≤ t.fld fLKT_WAIT_WS * period.toNat * 95)) ∧
    Claims.RunsThenSettles (.lktWaitUpdate who period false vaon) s (fun t => t.fld fLKT_WAIT_WS = 15 ∧ t.fld fLKT_REF_VALID = 0) ∧
    (mv.toNat < 1710 → Claims.Runs (.vlktLow mv) s fun t => t.fld fLKT_VMON_VLKT = mv.toNat ∧ t.fld fLKT_VMON_VLKTLOW = 1) ∧
    (1710 ≤ mv.toNat → Claims.Runs (.vlktRestored mv) s fun t => t.fld fLKT_VMON_VLKT = mv.toNat ∧ t.fld fLKT_VMON_VLKTLOW = 0) ∧
    ((∀ w ∈ s.lkt.words, w.2.begun = true → Claims.wholeWord s w.1) → 1 ≤ s.fld fLKT_EW_THRESH →
      Claims.Runs (.locketScan []) s fun t => t.lkt = s.lkt ∧ t.evr = s.evr ∧ t.net = s.net) ∧
    ((∃ w, s.lkt.words = [(cw.toNat, w)] ∧ w.begun = true) → s.lkt.erase = none → s.flag fLKT_RDLOG_VALID = false →
      Claims.Runs (.locketScan [(cw, .uncorrectable d)]) s fun t =>
        t.flag fLKT_RDLOG_VALID = true ∧ t.fld fLKT_RDLOG_CW = cw.toNat ∧ t.fld fLKT_RDLOG_UE = 1 ∧
          t.fld fLKT_EW_UE = min (s.fld fLKT_EW_UE + 1) 65535)

/-- R48, R58, R511, R513, R515, R516, R517, R520, R521: locket: loads through its window, unlocking, and the operations of a
sequence. -/
def Obligations.LocketReadsUnlocksAndWrites : Prop := Claims.locketLoads ∧ Claims.locketUnlocks ∧ Claims.locketOperations
/-- R516, R517, R518, R519, R521, R522, R555: locket: how programs and erases end, wait states, the supply monitor and scans. -/
def Obligations.LocketEndsAndIsWatched : Prop := Claims.locketEnds ∧ Claims.locketSupervision


/-! ### The host queue engine -/

/-- The completion of slot `k` can be posted: its queue has a completion queue with room, no transfer of it is outstanding, and there
has been no fatal fault, and the link carries traffic (R114, R142, R430). -/
def Claims.MayPost (s : State) (k : Nat) : Prop :=
  ∃ e sq cq, s.slot k = some e ∧ tget s.hqe.sqs e.sq = some sq ∧ tget s.hqe.cqs sq.cq = some cq ∧ cq.full = false ∧
    e.transfers = [] ∧ e.readFail = none ∧ s.fld fFLT_STAT_FATAL = 0 ∧ s.hostLink = true

/-- The host gets the completion entry of slot `k`, with its status and dwords, and the slot is free (R137, R142). -/
def Claims.Posts (s t : State) (k status dw0 dw1 : Nat) : Prop :=
  t.slot k = none ∧ ∃ e sq cq pre rest, s.slot k = some e ∧ tget s.hqe.sqs e.sq = some sq ∧ tget s.hqe.cqs sq.cq = some cq ∧
    t.hqe.hostOut = s.hqe.hostOut ++ pre ++ HostEvent.cqe sq.cq e.sq (cmdCid e.cmd) status dw0 dw1 sq.head cq.phase :: rest

/-- R132: a doorbell of a queue that exists with a value in range sets its tail or head; any other is counted, changes no submission
queue, and raises an event of type 0. -/
def Claims.doorbells : Prop :=
  ∀ (s : State) (y : BitVec 16) (v : BitVec 32), s.hqe.cc % 2 = 1 → (tget s.hqe.sqs 0).isSome →
    (∀ q, tget s.hqe.sqs y.toNat = some q →
      (v.toNat < q.entries → Claims.Runs (.sqTailDoorbell y v) s fun t =>
        t = { s with hqe := { s.hqe with sqs := tput s.hqe.sqs y.toNat { q with tail := v.toNat } } }) ∧
      (q.entries ≤ v.toNat → Claims.Runs (.sqTailDoorbell y v) s fun t =>
        t.hqe.sqs = s.hqe.sqs ∧ t.fld fHQE_PERR_DOORBELL = min (s.fld fHQE_PERR_DOORBELL + 1) 65535 ∧
          (s.hqe.aers = [] → t.hqe = { s.hqe with events := s.hqe.events ++ [(0, 1, 1)] }))) ∧
    (∀ q, tget s.hqe.cqs y.toNat = some q → q.head < q.entries → q.tail < q.entries → v.toNat < q.entries →
      (v.toNat + q.entries - q.head) % q.entries ≤ (q.tail + q.entries - q.head) % q.entries →
      (∀ e ∈ s.hqe.slots, e.2.completion = none) → s.hqe.shutdown = false →
      Claims.Runs (.cqHeadDoorbell y v) s fun t =>
        t = { s with hqe := { s.hqe with cqs := tput s.hqe.cqs y.toNat { q with head := v.toNat } } })

/-- R133: a turn serves the admin queue first: one burst of its new entries, at most the slots left, fetched from its head; with
weights off and no admin entry, an I/O queue in the round, in a mode that serves I/O. With fetching off nothing is fetched. -/
def Claims.fetchTurns : Prop :=
  ∀ (s : State),
    let room := s.fld fHQE_SLOT_LIMIT - s.hqe.slots.length - sumOf (fun (f : Nat × Nat × Nat) => f.2.2) s.hqe.fetching
    let fetched (t : State) (sq : Nat) (q : SubQueue) : Prop :=
      let n := min (min s.burst q.fresh) room
      t.hqe.fetching = s.hqe.fetching ++ [(sq, q.head, n)] ∧
        tget t.hqe.sqs sq = some { q with head := (q.head + n) % q.entries } ∧
        t.hqe.hostOut = s.hqe.hostOut ++ [HostEvent.fetch sq q.head n (if q.head + n ≤ q.entries then 1 else 2)]
    (s.mayFetch = true → ∀ q, tget s.hqe.sqs 0 = some q → 0 < q.fresh → Claims.Runs .fetchTurn s fun t => fetched t 0 q) ∧
    (s.mayFetch = true → (∀ q, tget s.hqe.sqs 0 = some q → q.fresh = 0) → s.weighted = false → s.servesIo = true →
      (∃ e ∈ s.hqe.sqs, e.1 ≠ 0 ∧ e.2.deleting = false ∧ 0 < e.2.fresh) →
      Claims.Runs .fetchTurn s fun t => ∃ sq q, sq ≠ 0 ∧ tget s.hqe.sqs sq = some q ∧ fetched t sq q ∧ t.hqe.nextSq = sq + 1) ∧
    (s.fld fHQE_CTL_FETCH = 0 → exec .fetchTurn s = .next s)

/-- R134 to R137, R142: an entry that arrives takes the lowest free slot; one that fails a check is completed with that status, an
admin command goes to the admin endpoint, an I/O command that nothing blocks to the endpoint of its table entry. -/
def Claims.arrivals : Prop :=
  ∀ (s : State) (sq : BitVec 16) (cmd : NvmeCmd) (l : List (Nat × Nat × Nat)) (k : Nat),
    takeFetched sq.toNat s.hqe.fetching = some l → s.freeSlotNo = some k → s.hqe.link.dropNext = 0 →
    (∀ st q cq, s.parse sq.toNat cmd = some st → tget s.hqe.sqs sq.toNat = some q → tget s.hqe.cqs q.cq = some cq → cq.full = false →
      s.fld fFLT_STAT_FATAL = 0 → s.hostLink = true → Claims.Runs (.sqEntryArrival sq cmd) s fun t =>
        t.slot k = none ∧ t.hqe.fetched = s.hqe.fetched + 1 ∧
          ∃ rest, t.hqe.hostOut = s.hqe.hostOut ++ HostEvent.cqe q.cq sq.toNat (cmdCid cmd) st 0 0 q.head cq.phase :: rest) ∧
    (s.parse sq.toNat cmd = none → sq = 0#16 → queueOp (cmdOp cmd) = false → s.epAbsent (s.fld fHQE_DCFG_AEP) = false → s.hqe.drained = false →
      Claims.Runs (.sqEntryArrival sq cmd) s fun t =>
        t.hqe.fetching = l ∧ t.hqe.fetched = s.hqe.fetched + 1 ∧
          t.slot k = some { s.newSlot 0 cmd with dispatched := true, ep := s.fld fHQE_DCFG_AEP, mbx := s.fld fHQE_DCFG_AMBX } ∧
          ∃ m, t.net = s.net ++ [m] ∧ m.src = 113 ∧ m.dst = s.fld fHQE_DCFG_AEP ∧ m.mbx = s.fld fHQE_DCFG_AMBX ∧ m.sub = 0x100 ∧
            bits (m.payload.extractLsb' 0 64) 0 32 = cmd.dw0.toNat) ∧
    (s.parse sq.toNat cmd = none → sq ≠ 0#16 → cmdOp cmd ≠ 0x09 → s.hqe.slots = [] → s.dispatchStopped = false → s.hqe.nextOrder < 2 ^ 80 →
      let e := s.newSlot sq.toNat cmd
      let i := s.dispIndex e
      s.flag (fHQE_DISP_VALID i) = true → s.epAbsent (s.fld (fHQE_DISP_EP i)) = false →
      Claims.Runs (.sqEntryArrival sq cmd) s fun t =>
        (∃ e', t.slot k = some e' ∧ e'.dispatched = true ∧ e'.inHazard = true ∧ e'.ep = s.fld (fHQE_DISP_EP i) ∧
          e'.mbx = s.fld (fHQE_DISP_MBX i)) ∧
        ∃ m, t.net = s.net ++ [m] ∧ m.src = 113 ∧ m.dst = s.fld (fHQE_DISP_EP i) ∧ m.sub = 0x100)

/-- R138, R148: a range list fills a bead of class `ACLASS` that the slot then names; a write of the dispatch table sets an entry. -/
def Claims.listsAndTable : Prop :=
  ∀ (s : State) (slot : SlotId) (ranges : List DsmRange) (e : Slot) (b : Nat) (who : Endpoint) (i : BitVec 8) (v : Word),
    (s.slot slot.toNat = some e → e.listPending = true → s.decideBeads (s.fld fHQE_GRANT_ACLASS) 1 = .grant →
      s.nextBead = some b → ranges.length ≤ e.cmd.dw10.toNat % 256 + 1 → s.hqe.link.dropNext = 0 →
      Claims.Runs (.dsmRangeListArrival slot ranges false) s fun t =>
        (∃ e', t.slot slot.toNat = some e' ∧ e'.listPending = false ∧ e'.listBead = some b) ∧
          ∀ j r, ranges[j]? = some r →
            t.mem.read (0x0200000000 + b * 0x1000 + 16 * j) 8 = r.attrs.toNat + r.nlb.toNat * 2 ^ 32 ∧
              t.mem.read (0x0200000000 + b * 0x1000 + 16 * j + 8) 8 = r.slba.toNat) ∧
    (s.ctlStoreFault who.toNat (rHQE_DISP i.toNat) v = none → Claims.Runs (.hqeDispWrite who i v) s fun t =>
      t.fld (fHQE_DISP_EP i.toNat) = bits v 0 7 ∧ t.fld (fHQE_DISP_MBX i.toNat) = bits v 8 4 ∧
        t.fld (fHQE_DISP_VALID i.toNat) = bits v 12 1) ∧
    ((s.ctlStoreFault who.toNat (rHQE_DISP i.toNat) v).isSome → exec (.hqeDispWrite who i v) s = .next s)

/-- R132, R133, R134, R135, R136, R137, R138, R142, R148: doorbells, fetch turns, the checks and dispatch of an entry, range lists
and the dispatch table. -/
def Obligations.QueuesFetchAndDispatch : Prop := Claims.doorbells ∧ Claims.fetchTurns ∧ Claims.arrivals ∧ Claims.listsAndTable

/-- Slot `k` holds the queue command `op`, not yet carried out, and can be completed; no sanitize stands in the way. -/
def Claims.QueueCommand (s : State) (k op : Nat) (e : Slot) : Prop :=
  s.slot k = some e ∧ e.admin = true ∧ cmdOp e.cmd = op ∧ e.completion = none ∧ e.dispatched = true ∧ s.sanGate = none ∧
    e.sq = 0 ∧ Claims.MayPost s k

/-- No portion of a write waits, is programmed without its commit, or is being recorded (R150, R164). -/
def Claims.noPortions (s : State) : Prop := s.fw.staging = [] ∧ s.fw.direct = [] ∧ s.fw.placed = [] ∧ s.fw.ranges = []

/-- R131, R164, R169: Create I/O CQ and SQ enter a new queue, empty, Delete I/O CQ and SQ remove one, and each is completed with
status 0; an identifier in use, and a CQ that an SQ still uses, are refused with R131's status. -/
def Obligations.QueueCommandsCreateAndDelete : Prop :=
  ∀ (s : State) (slot : SlotId) (e : Slot),
    let k := slot.toNat
    let qid := e.cmd.dw10.toNat % 65536
    let size := e.cmd.dw10.toNat / 65536
    let hi := e.cmd.dw11.toNat / 65536
    (Claims.QueueCommand s k 0x05 e → qid ≠ 0 → tget s.hqe.cqs qid = none → size ≠ 0 → hi < 2048 → e.cmd.dw11.getLsbD 0 = true →
      Claims.Runs (.createIoCq slot) s fun t =>
        Claims.Posts s t k 0 0 0 ∧ tget t.hqe.cqs qid = some ⟨size + 1, 0, 0, hi, e.cmd.dw11.getLsbD 1, true⟩) ∧
    (Claims.QueueCommand s k 0x05 e → (tget s.hqe.cqs qid).isSome → Claims.Runs (.createIoCq slot) s fun t =>
      Claims.Posts s t k 0x101 0 0) ∧
    (Claims.QueueCommand s k 0x01 e → qid ≠ 0 → tget s.hqe.sqs qid = none → size ≠ 0 → hi ≠ 0 → (tget s.hqe.cqs hi).isSome →
      e.cmd.dw11.getLsbD 0 = true → Claims.Runs (.createIoSq slot) s fun t =>
        Claims.Posts s t k 0 0 0 ∧ tget t.hqe.sqs qid = some ⟨size + 1, 0, 0, hi, e.cmd.dw11.toNat / 2 % 4, false, none⟩) ∧
    (Claims.QueueCommand s k 0x04 e → qid ≠ 0 → (tget s.hqe.cqs qid).isSome → (∀ q ∈ s.hqe.sqs, q.2.cq ≠ qid) →
      Claims.Runs (.deleteIoCq slot) s fun t => Claims.Posts s t k 0 0 0 ∧ tget t.hqe.cqs qid = none) ∧
    (Claims.QueueCommand s k 0x00 e → qid ≠ 0 → ∀ q, tget s.hqe.sqs qid = some q → q.deleting = false →
      (∀ x ∈ s.hqe.slots, x.2.sq ≠ qid ∧ x.2.completion = none) →
      Claims.Runs (.deleteIoSq slot) s fun t => Claims.Posts s t k 0 0 0 ∧ tget t.hqe.sqs qid = none) ∧
    (Claims.QueueCommand s k 0x00 e → qid ≠ 0 → ∀ q, tget s.hqe.sqs qid = some q → q.deleting = false →
      (∃ x ∈ s.hqe.slots, x.2.sq = qid) → (∀ x ∈ s.hqe.slots, x.2.completion = none) → Claims.noPortions s →
      Claims.Runs (.deleteIoSq slot) s fun t =>
        (∃ q', tget t.hqe.sqs qid = some q' ∧ q'.deleting = true ∧ q'.deleteSlot = some k ∧ q'.tail = q'.head) ∧
          ∀ x ∈ s.hqe.slots, x.2.sq = qid → ∃ e', t.slot x.1 = some e' ∧ e'.cancelled = true ∧ e'.held = false) ∧
    (∀ d q, s.hqe.sqs = [(d, q)] → q.deleting = true → q.deleteSlot = some k → (∃ x ∈ s.hqe.slots, x.2.sq = d) →
      exec (.deleteIoSqDone slot) s = .next s) ∧
    (Claims.QueueCommand s k 0x00 e → ∀ d q, s.hqe.sqs.find? (fun (x : Nat × SubQueue) => x.2.deleting && decide (x.2.deleteSlot = some k)) =
        some (d, q) → d ≠ 0 → (∀ x ∈ s.hqe.slots, x.2.sq ≠ d) →
      Claims.Runs (.deleteIoSqDone slot) s fun t => Claims.Posts s t k 0 0 0 ∧ tget t.hqe.sqs d = none)

/-- R136, R165, R166: setting `CC.EN` sets up the admin queues; clearing it, and every other controller reset, ends every slot and queue
and gives the features their saved values; `SHN` stops fetching. -/
def Claims.controllerEnable : Prop :=
  ∀ (s : State) (v aqa : BitVec 32) (cause : ControllerResetCause),
    (s.hqe.cc % 2 = 0 → v.toNat % 2 = 1 → v.toNat / 2 ^ 14 % 4 = 0 → aqa.toNat % 4096 ≠ 0 → aqa.toNat / 2 ^ 16 % 4096 ≠ 0 →
      Claims.Runs (.ccWrite v aqa) s fun t =>
      t.hqe.cc = v.toNat ∧ tget t.hqe.sqs 0 = some ⟨aqa.toNat % 4096 + 1, 0, 0, 0, 0, false, none⟩ ∧
        tget t.hqe.cqs 0 = some ⟨aqa.toNat / 2 ^ 16 % 4096 + 1, 0, 0, 0, true, true⟩) ∧
    (s.hqe.cc % 2 = 1 → v.toNat % 2 = 0 → Claims.Runs (.ccWrite v aqa) s fun t =>
      t.hqe.cc = v.toNat ∧ t.hqe.slots = [] ∧ t.hqe.sqs = [] ∧ t.hqe.cqs = [] ∧ t.hqe.features = s.hqe.saved ∧
        t.fld fHQE_CTL_RDY = 0 ∧ t.hqe.cfs = s.hqe.cfs) ∧
    (s.hqe.cc % 2 = 1 → v.toNat % 2 = 1 → s.hqe.cc / 2 ^ 14 % 4 = 0 → v.toNat / 2 ^ 14 % 4 ≠ 0 →
      (∃ e ∈ s.hqe.slots, s.hqe.aers.contains e.1 = false) → Claims.Runs (.ccWrite v aqa) s fun t =>
        t.hqe.cc = v.toNat ∧ t.hqe.shutdown = true ∧ t.fld fHQE_CTL_SHST = 1) ∧
    (s.hqe.cc % 2 = 1 → v.toNat % 2 = 1 → s.hqe.cc / 2 ^ 14 % 4 = 0 → v.toNat / 2 ^ 14 % 4 = 2 → s.hqe.slots = [] →
      s.hqe.fetching = [] →
      Claims.Runs (.ccWrite v aqa) s fun t =>
        t.hqe.shutdown = true ∧ t.fld fHQE_CTL_SHST = 2 ∧ t.evr.lifetimeSaved = s.evr.lifetime) ∧
    (Claims.Runs (.controllerReset cause) s fun t =>
      t.hqe.slots = [] ∧ t.hqe.sqs = [] ∧ t.hqe.cqs = [] ∧ t.hqe.fetching = [] ∧ t.hqe.cc = 0 ∧ t.hqe.features = s.hqe.saved ∧
        t.fld fHQE_CTL_RDY = 0 ∧ t.ns = s.ns)

/-- R121, R123, R124, R125, R134, R136, R139, R142, R147: an error or a timeout on the fetch of entries fails the controller; a
coalesced interrupt is sent, or pends while its vector is masked; configuration requests are retried until `LOCK`, or 1.0 s has
passed, and then give the identity; a read of BAR0 is answered; a link state that R121 allows is shown. -/
def Claims.hostAndLink : Prop :=
  ∀ (s : State) (sq : BitVec 16) (vec : BitVec 11) (rate : BitVec 3) (width l0pw : BitVec 5) (flit : Bool) (lt : BitVec 6)
    (err : ReadError) (a : HostAccess) (off : BitVec 18),
    ((∃ f ∈ s.hqe.fetching, f.1 = sq.toNat) → ∀ i ∈ [Instr.hostReadError (.fetch sq) err, Instr.completionTimeout (.fetch sq)],
      (i = .completionTimeout (.fetch sq) → s.hqe.link.timeoutOff = false) →
      Claims.Runs i s fun t => t.hqe.cfs = true ∧ t.fld fHQE_CTL_CFS = 1 ∧ (∀ f ∈ t.hqe.fetching, f.1 ≠ sq.toNat) ∧
        t.fld fHQE_PERR_HOSTDMA = min (s.fld fHQE_PERR_HOSTDMA + 1) 65535) ∧
    ((tget s.hqe.coalesced vec.toNat).isSome → Claims.Runs (.interruptCoalescingTime vec) s fun t =>
      tget t.hqe.coalesced vec.toNat = none ∧
        (if s.hqe.link.msixOn = true ∧ s.hqe.link.msixMask = false ∧
            (tgetD s.hqe.link.msix (4 * vec.toNat + 3) 1#32).getLsbD 0 = false then
          t.hqe.hostOut = s.hqe.hostOut ++ [HostEvent.msix vec.toNat] ∧ t.hqe.link = s.hqe.link
        else t.hqe.hostOut = s.hqe.hostOut ∧ sHas t.hqe.link.pending vec.toNat = true)) ∧
    (s.fld fHQE_PCID_LOCK = 1 → Claims.Runs (.configRequest .identity) s fun t =>
      t.hqe.hostOut = s.hqe.hostOut ++ [HostEvent.configAnswer Config.vendorId.toNat s.part.device (s.fld fARC_ID1_STEP) 0x010802
        (s.fld fHQE_PCID_SSVID) (s.fld fHQE_PCID_SSID)]) ∧
    (s.fld fHQE_PCID_LOCK = 0 → s.hqe.pcidLapsed = false → (∀ o, a ≠ .readBar o) → (∀ x y z, a ≠ .writeMsix x y z) →
      Claims.Runs (.configRequest a) s fun t =>
        t = { s with hqe := { s.hqe with hostOut := s.hqe.hostOut ++ [HostEvent.configRetry] } }) ∧
    (s.hqe.link.power = 0 → s.hqe.link.refuseNext = 0 → Claims.Runs (.configRequest (.readBar off)) s fun t =>
      t = { s with hqe := { s.hqe with hostOut := s.hqe.hostOut ++ [HostEvent.barAnswer (4 * off.toNat) (s.barRead (4 * off.toNat))] } }) ∧
    (s.fld fHQE_PCID_LOCK = 0 → Claims.Runs .pcidLockTimeout s fun t =>
      t = { s with hqe := { s.hqe with pcidLapsed := true } }) ∧
    (linkOk rate.toNat width.toNat flit l0pw.toNat = true → Claims.Runs (.linkStateChange rate width flit l0pw lt) s fun t =>
      bits (t.reg rHQE_LINK) 0 3 = rate.toNat ∧ bits (t.reg rHQE_LINK) 3 5 = width.toNat ∧ bits (t.reg rHQE_LINK) 8 1 = b2n flit ∧
        bits (t.reg rHQE_LINK) 9 5 = l0pw.toNat ∧ bits (t.reg rHQE_LINK) 14 6 = lt.toNat ∧ t.hqe = s.hqe)

/-- R121, R123, R124, R125, R134, R136, R139, R142, R147, R165, R166: cC.EN, controller resets, host errors, interrupts, configuration
requests and the link. -/
def Obligations.ControllerEnableResetAndLink : Prop := Claims.controllerEnable ∧ Claims.hostAndLink

/-! ### Data movement -/

/-- R139, R181: the engine asks for a group of beads while it may, and the beads that it is granted are pulled into. -/
def Claims.writeGrants : Prop :=
  ∀ (s : State) (slot : SlotId) (e : Slot),
    let cls := if e.admin then s.fld fHQE_GRANT_ACLASS else s.fld fHQE_GRANT_CLASS
    let n := e.units - e.requested
    s.slot slot.toNat = some e → e.dispatched = true → e.pullStopped = none → 0 < n → n ≤ s.fld fHQE_GRANT_UNITS →
      e.groups < s.fld fHQE_GRANT_SEGS → n ≤ s.quotaOf cls → s.pool.waiting = [] → s.decideBeads cls n = .grant →
      Claims.Runs (.writeDataGrant slot) s fun t =>
        ∃ e' beads, t.slot slot.toNat = some e' ∧ e'.requested = e.units ∧ e'.groups = e.groups + 1 ∧
          e'.pulls = e.pulls ++ [⟨e.requested, beads, false, false⟩] ∧ beads.length = n

/-- R139, R140: when the units of the oldest group have arrived its beads go to the dispatch endpoint with write data ready; admin data
lies in the bead as the host sent it. A re-pull of a unit into a bead that the engine holds is pulled, any other is stray. -/
def Claims.writeData : Prop :=
  ∀ (s : State) (slot : SlotId) (e : Slot) (b : Nat) (u : PulledUnit) (g : PullGroup) (src : Endpoint) (unit bead : BitVec 16),
    s.slot slot.toNat = some e →
    (e.pulls = [g] → g.beads = [b] → g.repull = false → g.part = false → s.hqe.link.dropNext = 0 → (s.fillBead e g.first b u).2 = none →
      Claims.Runs (.writeDataPullDone slot [u]) s fun t =>
        (∃ e', t.slot slot.toNat = some e' ∧ e'.pulls = [] ∧ e'.groups = e.groups - 1) ∧ (t.bead b).owner = e.ep ∧
          (s.epAbsent e.ep = false → ∃ m, t.net = s.net ++ [m] ∧ m.src = 113 ∧ m.dst = e.ep ∧ m.sub = 0x101) ∧
          (e.admin = true → 4096 * (g.first + 1) ≤ adminBytes e.cmd → ∀ d w, u.data[d]? = some w → d < 512 →
            t.mem.read (0x0200000000 + b * 0x1000 + 8 * d) 8 = w.toNat)) ∧
    (unit.toNat < e.units → s.granted bead.toNat 113 = true → ∀ sl : BitVec 16, sl.toNat = slot.toNat →
      Claims.Runs (.repull src sl unit bead) s fun t =>
        (∃ e', t.slot slot.toNat = some e' ∧ e'.pulls = e.pulls ++ [⟨unit.toNat, [bead.toNat], true, false⟩]) ∧
          t.hqe.hostOut = s.hqe.hostOut ++ [HostEvent.pull slot.toNat unit.toNat bead.toNat]) ∧
    (s.granted bead.toNat 113 = false → ∀ sl : BitVec 16, sl.toNat = slot.toNat → Claims.Runs (.repull src sl unit bead) s fun t =>
      t.slot slot.toNat = some e ∧ t.fld fHQE_PERR_STRAY = min (s.fld fHQE_PERR_STRAY + 1) 65535)

/-- R141 to R143, R187, R188: read data that passes its checks becomes transfers; one that ends well goes to the host and its bead
to the pool; on a bead error the bead goes back with a message. -/
def Claims.readDatas : Prop :=
  ∀ (s : State) (slot : SlotId) (e : Slot) (src : Endpoint) (x : ReadEntry) (tr : Transfer) (d : Fin 528) (bead : BeadId),
    s.slot slot.toNat = some e →
    (x.unit.toNat < e.unitCount → x.sector.toNat + entryRun x ≤ 8 → x.sector.toNat ≤ 7 → s.granted x.bead.toNat 113 = true →
      ∀ sl : BitVec 16, sl.toNat = slot.toNat → Claims.Runs (.readData src sl 1#8 [x]) s fun t =>
        ∃ e', t.slot slot.toNat = some e' ∧
          e'.transfers = e.transfers ++ [⟨x.unit.toNat, x.bead.toNat, x.sector.toNat, entryRun x⟩]) ∧
    (e.transfers = [tr] → tr.bead = bead.toNat → e.admin = true → e.completion = none → s.granted bead.toNat 113 = true →
      (s.bead bead.toNat).ue < 2 → s.pool.waiting = [] → s.hqe.shutdown = false →
      (∀ i ∈ s.readDoublesOf e tr, s.mem.poisoned (beadDouble bead.toNat i) = false) →
      Claims.Runs (.readTransferDone slot bead []) s fun t =>
        (∃ e', t.slot slot.toNat = some e' ∧ e'.transfers = []) ∧ (t.bead bead.toNat).st = .free ∧
          ∃ out, t.hqe.hostOut = s.hqe.hostOut ++ [HostEvent.data slot.toNat tr.unit bead.toNat tr.sector tr.sectors out]) ∧
    (e.transfers = [tr] → tr.bead = bead.toNat → s.epAbsent e.ep = false → (d : Nat) ∈ s.readDoublesOf e tr →
      Claims.Runs (.readTransferDone slot bead [⟨bead, d, true⟩]) s fun t =>
      (∃ e', t.slot slot.toNat = some e' ∧ e'.transfers = [] ∧ e'.beadError = true ∧ e'.completion = none) ∧
        (t.bead bead.toNat).owner = e.ep ∧ ∃ m, t.net.getLast? = some m ∧ m.dst = e.ep ∧ m.sub = 0x104)

/-- R142, R188, R454: a completion is posted with its status once it may be; flag [0] frees the slot without an entry; a message for a
slot that is not in flight is stray. The encryption service answers, and the bead goes back to its sender. -/
def Claims.completions : Prop :=
  ∀ (s : State) (slot : BitVec 16) (src : Endpoint) (st : BitVec 16) (d0 d1 : BitVec 32) (e : Slot) (sid : SlotId) (req : EncryptReq),
    s.hqe.shutdown = false →
    (s.slot slot.toNat = some e → e.completion = none → e.beadError = false → Claims.MayPost s slot.toNat →
      Claims.Runs (.completion src slot st 0#8 d0 d1) s fun t => Claims.Posts s t slot.toNat st.toNat d0.toNat d1.toNat) ∧
    (s.slot slot.toNat = some e → e.completion = none → e.beadError = false →
      Claims.Runs (.completion src slot st 1#8 d0 d1) s fun t => t.slot slot.toNat = none) ∧
    (s.slot slot.toNat = none → Claims.Runs (.completion src slot st 0#8 d0 d1) s fun t =>
      t.fld fHQE_PERR_STRAY = min (s.fld fHQE_PERR_STRAY + 1) 65535 ∧ t.hqe = s.hqe) ∧
    (s.slot sid.toNat = some e → ∀ h, e.completion = some h → Claims.MayPost s sid.toNat →
      Claims.Runs (.completionPost sid) s fun t => Claims.Posts s t sid.toNat h.status h.dw0 h.dw1) ∧
    (s.granted req.bead.toNat 113 = true → s.epAbsent src.toNat = false → Claims.Runs (.encryptRequest src req []) s fun t =>
      (t.bead req.bead.toNat).owner = s.mailEp src.toNat ∧
        ∃ m, t.net = s.net ++ [m] ∧ m.src = 113 ∧ m.dst = src.toNat ∧ m.mbx = req.mbx.toNat ∧ m.sub = 0x114)

/-- R139, R140, R141, R142, R143, R181, R187, R188, R454: write data, re-pulls, read data, completions and the encryption service.
-/
def Obligations.HostDataMoves : Prop := Claims.writeGrants ∧ Claims.writeData ∧ Claims.readDatas ∧ Claims.completions


/-! ### Admin commands -/

/-- Slot `k` holds the dispatched admin command `op`, not yet answered; its completion can be posted, and no shutdown is under way. -/
def Claims.AdminCommand (s : State) (k op : Nat) (e : Slot) : Prop :=
  s.slot k = some e ∧ e.admin = true ∧ cmdOp e.cmd = op ∧ e.dispatched = true ∧ e.completion = none ∧ e.pullStopped = none ∧
    s.hqe.shutdown = false ∧ Claims.MayPost s k

/-- The command's data lies in one bead, whole: bead `b`, granted to the endpoint of the command. -/
def Claims.DataIn (s : State) (e : Slot) (b : Nat) : Prop :=
  e.units = 1 ∧ s.granted b e.ep = true ∧ s.mem.spanPoisoned b = false

/-- Double `d` of a bead's data. -/
def Claims.beadWord (s : State) (b d : Nat) : Word := BitVec.ofNat 64 (s.mem.read (0x0200000000 + b * 0x1000 + 8 * d) 8)

/-- Slot `k` returns `n` beads of data and completes with status 0 once they are transferred (R141, R142). -/
def Claims.Returns (t : State) (k n : Nat) : Prop :=
  ∃ e, t.slot k = some e ∧ e.completion = some ⟨0, 0, 0, false⟩ ∧ e.transfers.length = n

/-- R126 to R129, R163: Get Log Page and Identify return their data through beads, a page or structure that is not served ends with its
status; Abort, Asynchronous Event Request and Device Self-test. -/
def Claims.logsAndEvents : Prop :=
  ∀ (s : State) (slot : SlotId) (e : Slot), s.sanGate = none →
    let k := slot.toNat
    let d := e.cmd.dw10.toNat
    let off := e.cmd.dw12.toNat + e.cmd.dw13.toNat * 2 ^ 32
    (Claims.AdminCommand s k 0x02 e → off % 4 = 0 → adminBytes e.cmd ≤ 0x200000 →
      ∀ u l, s.readPage false (d % 256) (d / 256 % 128) (d.testBit 15) off (adminBytes e.cmd) = some (u, l) → l ≠ [] →
        u.decideBeads (u.fld fHQE_GRANT_ACLASS) ((l.length + 4095) / 4096) = .grant →
        Claims.Runs (.getLogPage slot) s fun t => Claims.Returns t k ((l.length + 4095) / 4096)) ∧
    (Claims.AdminCommand s k 0x02 e → off % 4 = 0 → adminBytes e.cmd ≤ 0x200000 → d % 256 ≠ 0xC0 → s.pageBytes (d % 256) = none →
      Claims.Runs (.getLogPage slot) s fun t => Claims.Posts s t k 0x109 0 0) ∧
    (Claims.AdminCommand s k 0x06 e → ∀ l, s.identifyData (d % 256) e.cmd.nsid.toNat = .ok l → l.length = 4096 →
      s.decideBeads (s.fld fHQE_GRANT_ACLASS) 1 = .grant → Claims.Runs (.identify slot) s fun t => Claims.Returns t k 1) ∧
    (Claims.AdminCommand s k 0x06 e → d % 256 = 0x00 → e.cmd.nsid = 0#32 → Claims.Runs (.identify slot) s fun t =>
      Claims.Posts s t k 0x400B 0 0) ∧
    (Claims.AdminCommand s k 0x08 e → s.earlier 0x08 e.order < 4 → Claims.Runs (.abort slot) s fun t => Claims.Posts s t k 0 1 0) ∧
    (Claims.AdminCommand s k 0x08 e → 4 ≤ s.earlier 0x08 e.order → Claims.Runs (.abort slot) s fun t => Claims.Posts s t k 0x103 0 0) ∧
    (Claims.AdminCommand s k 0x0C e → k ∉ s.hqe.aers → s.hqe.aers.length < 8 → s.hqe.events = [] →
      Claims.Runs (.asyncEventRequest slot) s fun t => t = { s with hqe := { s.hqe with aers := s.hqe.aers ++ [k] } }) ∧
    (Claims.AdminCommand s k 0x0C e → k ∉ s.hqe.aers → 8 ≤ s.hqe.aers.length → Claims.Runs (.asyncEventRequest slot) s fun t =>
      Claims.Posts s t k 0x105 0 0) ∧
    (Claims.AdminCommand s k 0x14 e → (d % 16 = 1 ∨ d % 16 = 2 ∨ d % 16 = 15) → Claims.Runs (.deviceSelfTest slot) s fun t =>
      Claims.Posts s t k 0 0 0)

/-- R127, R529, R532, R541: features are set, saved with `SV`, and read back; an operational power state is taken at once, PS3 stops
fetching and begins an entry; the Timestamp is set with origin 1. -/
def Claims.features : Prop :=
  ∀ (s : State) (slot : SlotId) (e : Slot) (l12 : Bool) (b : BeadId), s.sanGate = none →
    let k := slot.toNat
    let d := e.cmd.dw10.toNat
    let v := e.cmd.dw11.toNat
    (Claims.AdminCommand s k 0x09 e → d % 256 ∈ [0x01, 0x08, 0x0A, 0x0B] → Claims.Runs (.setFeatures slot) s fun t =>
      Claims.Posts s t k 0 0 0 ∧ t.hqe.features = tput s.hqe.features (d % 256) v ∧
        t.hqe.saved = if e.cmd.dw10.getLsbD 31 then tput s.hqe.saved (d % 256) v else s.hqe.saved) ∧
    (Claims.AdminCommand s k 0x09 e → d % 256 = 0x06 → Claims.Runs (.setFeatures slot) s fun t => Claims.Posts s t k 0x4002 0 0) ∧
    (Claims.AdminCommand s k 0x0A e → d % 256 ∈ [0x01, 0x02, 0x08, 0x0A, 0x0B] → d / 256 % 8 = 0 →
      ∀ x, tget s.hqe.features (d % 256) = some x → Claims.Runs (.getFeatures slot) s fun t => Claims.Posts s t k 0 x 0) ∧
    (Claims.AdminCommand s k 0x0A e → d % 256 = 0x0E → d / 256 % 8 = 0 → s.decideBeads (s.fld fHQE_GRANT_ACLASS) 1 = .grant →
      Claims.Runs (.getFeatures slot) s fun t => Claims.Returns t k 1) ∧
    (Claims.AdminCommand s k 0x09 e → d % 256 = 0x02 → v % 32 ≤ 2 → Claims.Runs (.powerManagementFeature slot l12) s fun t =>
      Claims.Posts s t k 0 0 0 ∧ tget t.hqe.features 0x02 = some (v % 32) ∧ t.pwr.lastOp = v % 32) ∧
    (Claims.AdminCommand s k 0x09 e → d % 256 = 0x02 → v % 32 = 3 → s.fld fARC_MODE_CUR ≠ 7 → s.boot.sched = none → s.ns = [] →
      (∃ x ∈ s.hqe.slots, x.1 ≠ k ∧ s.hqe.aers.contains x.1 = false) →
      Claims.Runs (.powerManagementFeature slot l12) s fun t =>
        Claims.Posts s t k 0 0 0 ∧ t.pwr.entry = 8 ∧ t.fld fHQE_CTL_FETCH = 0) ∧
    (Claims.AdminCommand s k 0x09 e → d % 256 = 0x0E → e.cmd.dw10.getLsbD 31 = false → Claims.DataIn s e b.toNat →
      Claims.Runs (.timestampFeature slot [b]) s fun t =>
        Claims.Posts s t k 0 0 0 ∧ t.fld fTMR_STAMP_MS = bits (Claims.beadWord s b.toNat 0) 0 48 ∧ t.fld fTMR_STAMP_ORIGIN = 1 ∧
          t.pwr.stampAt = s.now)

/-- Everything that waits for the journal in `s` finds a place there, and becomes durable (R222, R275). -/
def Claims.BecomesDurable (s : State) : Prop := (s.flushAll false).isSome = true

/-- No Format, detach or deletion waits, no command is held, and the order number of the slot is its own; namespace changes are not
noticed to the host. -/
def Claims.QuietNamespaces (s : State) (k : Nat) (e : Slot) : Prop :=
  tabWf s.ns = true ∧ (∀ x ∈ s.ns, x.2.formatTo = none ∧ x.2.leaving = none) ∧ (∀ x ∈ s.hqe.slots, x.2.held = false) ∧
    (∀ x ∈ s.hqe.slots, x.2.order = e.order → x.1 = k) ∧ s.noticeOn 8 = false ∧ s.pwr.entry = 0

/-- R170, R171, R196, R247, R275: a namespace is created detached from its Identify structure, deleted, attached and formatted; creation,
deletion and format end with their records durable. -/
def Claims.namespaces : Prop :=
  ∀ (s : State) (slot : SlotId) (e : Slot) (b : BeadId) (i : Nat), s.sanGate = none →
    let k := slot.toNat
    let w (d : Nat) : Nat := (Claims.beadWord s b.toNat d).toNat
    let fmt := w 3 / 2 ^ 16 % 16
    let pi := w 3 / 2 ^ 40 % 8
    let n : Namespace := ⟨0, w 0, fmt, pi, (w 3 / 2 ^ 43) % 2 == 1, false, (w 3 / 2 ^ 20) % 2 == 1, none, none⟩
    (Claims.AdminCommand s k 0x0D e → Claims.DataIn s e b.toNat → e.cmd.dw10.toNat % 16 = 0 →
      leastBelow (fun i => (tget s.ns i).isNone) 256 = some i → fmt ≤ 5 → pi ≤ 3 → (pi = 0 ∨ piBytes fmt ≠ 0) → w 0 ≠ 0 → w 1 = w 0 →
      s.belowShare (s.reserveFor (s.allocatedUnits + n.units)) 8 = false →
      let m := { n with base := s.freeBase ((n.units + 1023) / 1024) }
      Claims.BecomesDurable ((s.freeAll [b.toNat] e.ep).nsCreated k i m) →
      Claims.Runs (.namespaceManagement slot [b]) s fun t => Claims.Posts s t k 0 (i + 1) 0 ∧ tget t.ns i = some m) ∧
    (Claims.AdminCommand s k 0x0D e → e.units = 0 → e.cmd.dw10.toNat % 16 = 1 → e.cmd.nsid.toNat = i + 1 → i < 256 →
      s.nsBusy i = false → Claims.QuietNamespaces s k e → ∀ x, tget s.ns i = some x →
      let y := { x with leaving := some (e.order, true) }
      Claims.BecomesDurable (State.leaveNow { s with ns := tput s.ns i y } i y e.order true) →
      Claims.Runs (.namespaceManagement slot []) s fun t => Claims.Posts s t k 0 0 0 ∧ tget t.ns i = none) ∧
    (Claims.AdminCommand s k 0x15 e → Claims.DataIn s e b.toNat → e.cmd.dw10.toNat % 16 = 0 → e.cmd.nsid.toNat = i + 1 →
      (∀ x ∈ s.hqe.slots, x.2.order = e.order → x.1 = k) → s.noticeOn 8 = false → w 0 % 2 ^ 32 = 1 + 2 ^ 16 →
      ∀ x, tget s.ns i = some x → x.attached = false →
      Claims.Runs (.namespaceAttachment slot [b]) s fun t =>
        Claims.Posts s t k 0 0 0 ∧ t.ns = tput s.ns i { x with attached := true }) ∧
    (Claims.AdminCommand s k 0x80 e → e.cmd.nsid.toNat = i + 1 → i < 256 → s.nsBusy i = false → Claims.QuietNamespaces s k e →
      let f := e.cmd.dw10.toNat % 16
      e.cmd.dw10.toNat / 2 ^ 12 % 4 = 0 → f ≤ 5 → e.cmd.dw10.toNat / 32 % 8 = 0 → e.cmd.dw10.toNat / 512 % 8 ≤ 2 →
      let g : FormatTo := ⟨f, 0, e.cmd.dw10.getLsbD 8, e.cmd.dw10.getLsbD 4, 1 ≤ e.cmd.dw10.toNat / 512 % 8, false, e.order⟩
      ∀ x, tget s.ns i = some x →
      let z := { x with formatTo := some g }
      Claims.BecomesDurable (State.formatOne { s with ns := tput s.ns i z } i z g) → Claims.Runs (.formatNvm slot) s fun t =>
        Claims.Posts s t k 0 0 0 ∧ ∃ y, tget t.ns i = some y ∧ y.format = f ∧ y.formatTo = none ∧ y.lbas = x.lbasIn f ∧ y.pi = 0)

/-- R126, R127, R128, R129, R163, R170, R171, R196, R247, R275, R529, R532, R541: log pages, Identify, events, features and namespaces.
-/
def Obligations.AdminLogsFeaturesAndNamespaces : Prop := Claims.logsAndEvents ∧ Claims.features ∧ Claims.namespaces

/-- R169, R473, R475: an accepted Sanitize completes at once, enters Maintenance when no I/O command is at work, and stands in Signet's
state with its action; Exit Failure Mode ends a failed one that allowed it. -/
def Claims.sanitizes : Prop :=
  ∀ (s : State) (slot : SlotId) (e : Slot) (i : Instr) (act : Nat),
    (i, act) ∈ [(Instr.sanitizeBlockErase slot, 2), (Instr.sanitizeOverwrite slot, 3), (Instr.sanitizeCryptoErase slot, 4)] →
    let k := slot.toNat
    (Claims.AdminCommand s k 0x84 e → s.sig.sanState ≠ 1 → e.cmd.dw10.toNat % 8 = act → isHealth (s.fld fARC_MODE_CUR) = true →
      Claims.QuietNamespaces s k e → (∀ x ∈ s.hqe.slots, x.2.working = false) → Claims.Runs i s fun t =>
        Claims.Posts s t k 0 0 0 ∧ t.sig.sanState = 1 ∧ t.sig.sanAct = act ∧ t.fld fARC_MODE_CUR = 6 ∧ t.fld fARC_MODE_CAUSE = 9) ∧
    (Claims.AdminCommand s k 0x84 e → s.sig.sanState = 1 → e.cmd.dw10.toNat % 8 = act → Claims.Runs i s fun t =>
      Claims.Posts s t k 0x1D 0 0 ∧ t.sig = s.sig) ∧
    (Claims.AdminCommand s k 0x84 e → s.sig.sanState = 3 → s.sig.sanAuse = true → e.cmd.dw10.toNat % 8 = 1 →
      s.fld fARC_MODE_CUR ≠ 6 → Claims.Runs (.sanitizeExitFailureMode slot) s fun t =>
        Claims.Posts s t k 0 0 0 ∧ t.sig.sanState = 0) ∧
    (Claims.AdminCommand s k 0x84 e → s.sig.sanState = 3 → s.sig.sanAuse = false → e.cmd.dw10.toNat % 8 = 1 →
      Claims.Runs (.sanitizeExitFailureMode slot) s fun t => Claims.Posts s t k 0x1C 0 0 ∧ t.sig = s.sig)

/-- R449, R457: Security Send of an accepted protocol is passed to Signet and counted, Security Receive returns what it gives. -/
def Claims.securityCommands : Prop :=
  ∀ (s : State) (slot : SlotId) (e : Slot) (b : BeadId), s.sanGate = none → s.flag fSIG_STAT_ERR = false →
    let k := slot.toNat
    (Claims.AdminCommand s k 0x81 e → Claims.DataIn s e b.toNat → e.cmd.dw10.toNat / 2 ^ 24 ∈ [0x00, 0x01, 0x02, 0xE8, 0xF0] →
      Claims.Runs (.securitySend slot [b]) s fun t =>
        Claims.Posts s t k 0 0 0 ∧ t.fld fSIG_SVC_CALLS = (s.fld fSIG_SVC_CALLS + 1) % 2 ^ fSIG_SVC_CALLS.width) ∧
    (Claims.AdminCommand s k 0x81 e → Claims.DataIn s e b.toNat → e.cmd.dw10.toNat / 2 ^ 24 ∉ [0x00, 0x01, 0x02, 0xE8, 0xF0] →
      Claims.Runs (.securitySend slot [b]) s fun t => Claims.Posts s t k 0x4002 0 0) ∧
    (Claims.AdminCommand s k 0x82 e → e.cmd.dw10.toNat / 2 ^ 24 = 0 → e.cmd.dw11.toNat ≤ 4096 → 0 < e.cmd.dw11.toNat →
      s.decideBeads (s.fld fHQE_GRANT_ACLASS) 1 = .grant → Claims.Runs (.securityReceive slot) s fun t =>
        Claims.Returns t k 1 ∧ t.fld fSIG_SVC_CALLS = (s.fld fSIG_SVC_CALLS + 1) % 2 ^ fSIG_SVC_CALLS.width)

/-- R169, R449, R457, R473, R475: sanitize and the Security commands of the host. -/
def Obligations.SanitizeAndSecurityCommands : Prop := Claims.sanitizes ∧ Claims.securityCommands

/-! ### NVM I/O -/

/-- In a mode that serves I/O (R43), slot `k` holds the dispatched I/O command `op`, not answered, neither cancelled nor turned away, none of it waiting; its completion
can be posted. -/
def Claims.IoCommand (s : State) (k op : Nat) (e : Slot) : Prop :=
  s.servesIo = true ∧ s.slot k = some e ∧ e.admin = false ∧ cmdOp e.cmd = op ∧ e.dispatched = true ∧ e.completion = none ∧ e.pullStopped = none ∧
    s.orderWaits e.order = false ∧ e.cancelled = false ∧ s.hqe.shutdown = false ∧ Claims.MayPost s k

/-- R153, R158, R172: a command that its dispatch turned away ends with that status, a Flush with success. -/
def Claims.flushes : Prop :=
  ∀ (s : State) (slot : SlotId) (e : Slot), Claims.IoCommand s slot.toNat 0x00 e →
    (e.verdict = none → Claims.Runs (.nvmFlush slot) s fun t => Claims.Posts s t slot.toNat 0 0 0) ∧
    ∀ st, e.verdict = some st → st % 2048 ≠ 0 → Claims.Runs (.nvmFlush slot) s fun t => Claims.Posts s t slot.toNat st 0 0

/-- R149, R150, R204, R214: a unit of a Write waits in staging with its bead, and takes no sequence number yet. -/
def Claims.writesStage : Prop :=
  ∀ (s : State) (slot : SlotId) (e : Slot) (b : BeadId),
    Claims.IoCommand s slot.toNat 0x01 e → e.verdict = none → Claims.DataIn s e b.toNat → s.programsOn = true →
    s.fw.direct.length < 3 →
    Claims.Runs (.nvmWrite slot [b] [] []) s fun t =>
      t.fw.staging = s.fw.staging ++ [{
        order := e.order, ns := e.nsid - 1, unit := e.firstUnit, seq := none, bead := b.toNat, mask := s.sectorMask e 0
        segment := e.firstUnit / 64, index := 0, count := 1, ranged := false }] ∧
      t.fw.direct = s.fw.direct ∧ t.fw.seqC = s.fw.seqC

/-- What the entry of the one unit of a command gives (R200, R201, R241): deallocated, deallocated and reported as an error, or a copy
in bead `h`. -/
def Claims.unitTrimmed (s : State) (e : Slot) (dulbe : Bool) : Prop :=
  e.unitCount = 1 ∧ s.dulbe (e.nsid - 1 + 1) = dulbe ∧ ∃ key, s.entryKey (e.nsid - 1) e.firstUnit = some key ∧
    entValid ((s.buildPage (key / 1024)).entryAt key) = true ∧ entTrim ((s.buildPage (key / 1024)).entryAt key) = true ∧
    entPpa ((s.buildPage (key / 1024)).entryAt key) = 0
def Claims.unitCached (s : State) (e : Slot) (h : Nat) : Prop :=
  e.unitCount = 1 ∧ (∃ key, s.entryKey (e.nsid - 1) e.firstUnit = some key ∧
    entTrim ((s.buildPage (key / 1024)).entryAt key) = false ∧ entPoison ((s.buildPage (key / 1024)).entryAt key) = false ∧
    entValid ((s.buildPage (key / 1024)).entryAt key) = true) ∧
    (∃ x rest, s.fw.hot = x :: rest ∧ x.ns = e.nsid - 1 ∧ x.unit = e.firstUnit ∧ x.bead = h) ∧ s.mem.spanPoisoned h = false

/-- R141, R153, R172, R201, R241: Read of a deallocated unit, and of one that a bead caches, passes a bead of data to the engine with
status 0; with `DULBE` the deallocated one ends with 2/0x87, and so does Verify, which else succeeds; Compare of equal data
succeeds, and of data that differs in a sector in question ends with 2/0x85. -/
def Claims.readsAndCompares : Prop :=
  ∀ (s : State) (slot : SlotId) (e : Slot) (r : UnitRead) (b : BeadId) (h : Nat), e.verdict = none →
    let k := slot.toNat
    (Claims.IoCommand s k 0x02 e → (Claims.unitTrimmed s e false ∨ Claims.unitCached s e h) → s.decideBeads 0 1 = .grant →
      Claims.Runs (.nvmRead slot [r] none) s fun t => Claims.Returns t k 1) ∧
    (Claims.IoCommand s k 0x02 e → Claims.unitTrimmed s e true → s.decideBeads 0 1 = .grant →
      Claims.Runs (.nvmRead slot [r] none) s fun t => Claims.Posts s t k 0x287 0 0) ∧
    (Claims.IoCommand s k 0x0C e → Claims.unitTrimmed s e false → Claims.Runs (.nvmVerify slot [r]) s fun t =>
      Claims.Posts s t k 0 0 0) ∧
    (Claims.IoCommand s k 0x0C e → Claims.unitTrimmed s e true → Claims.Runs (.nvmVerify slot [r]) s fun t =>
      Claims.Posts s t k 0x287 0 0) ∧
    (Claims.IoCommand s k 0x05 e → Claims.unitCached s e h → Claims.DataIn s e b.toNat →
      s.mem.readDoubles (beadAddr h) 512 = s.mem.readDoubles (beadAddr b.toNat) 512 →
      s.mem.readDoubles (beadMetaAddr h) 8 = s.mem.readDoubles (beadMetaAddr b.toNat) 8 →
      Claims.Runs (.nvmCompare slot [b] [r]) s fun t => Claims.Posts s t k 0 0 0) ∧
    (Claims.IoCommand s k 0x05 e → Claims.unitCached s e h → Claims.DataIn s e b.toNat → (s.sectorMask e 0).testBit 0 = true →
      Claims.beadWord s h 0 ≠ Claims.beadWord s b.toNat 0 →
      Claims.Runs (.nvmCompare slot [b] [r]) s fun t => Claims.Posts s t k 0x285 0 0)

/-- R151, R157, R218, R219: Write Uncorrectable, Write Zeroes and Dataset Management with Deallocate let a range wait for the journal:
uncorrectable (kind 2), zeros (1) or deallocated (0); without Deallocate, Dataset Management succeeds. -/
def Claims.rangesWait : Prop :=
  ∀ (s : State) (slot : SlotId) (e : Slot), e.verdict = none → s.fmtOf e.cmd ≠ 5 →
    let k := slot.toNat
    (Claims.IoCommand s k 0x04 e → Claims.Runs (.writeUncorrectable slot) s fun t =>
      ∃ r ∈ t.fw.ranges, r.order = e.order ∧ r.ns = e.nsid - 1 ∧ r.first = cmdSlba e.cmd ∧ r.count = cmdBlocks e.cmd ∧
        r.kind = 2) ∧
    (Claims.IoCommand s k 0x08 e → Claims.Runs (.writeZeroes slot) s fun t =>
      ∃ r ∈ t.fw.ranges, r.order = e.order ∧ r.ns = e.nsid - 1 ∧ r.first = cmdSlba e.cmd ∧ r.count = cmdBlocks e.cmd ∧
        r.kind = if e.cmd.dw12.getLsbD 25 then 0 else 1) ∧
    (Claims.IoCommand s k 0x09 e → e.cmd.dw11.getLsbD 2 = true → ∀ run ∈ s.cmdRuns e, run.2 ≠ 0 →
      (∀ x ∈ s.cmdRuns e, x.1 + x.2 ≤ ((s.activeNs e.nsid).map (·.lbas)).getD 0) →
      Claims.Runs (.datasetManagement slot) s fun t =>
        ∃ r ∈ t.fw.ranges, r.order = e.order ∧ r.first = run.1 ∧ r.count = run.2 ∧ r.kind = 0) ∧
    (Claims.IoCommand s k 0x09 e → e.cmd.dw11.getLsbD 2 = false → Claims.Runs (.datasetManagement slot) s fun t =>
      Claims.Posts s t k 0 0 0)

/-- R141, R149, R150, R151, R153, R157, R158, R172, R201, R204, R214, R218, R219, R241: flush, Write, Read, Verify, Compare, Write
Uncorrectable, Write Zeroes and Dataset Management. -/
def Obligations.NvmCommandsDoTheirWork : Prop := Claims.flushes ∧ Claims.writesStage ∧ Claims.readsAndCompares ∧ Claims.rangesWait


/-! ### Firmware update -/

/-- Slot `k` holds a Firmware Commit of action `ca` that names slot `fs`; no sanitize stands in the way. -/
def Claims.Commit (s : State) (k ca fs : Nat) (e : Slot) : Prop :=
  s.sanGate = none ∧ Claims.AdminCommand s k 0x10 e ∧ commitAction e.cmd = ca ∧ commitSlot e.cmd = fs

/-- Slot `fs` holds a package that verifies, at or above every floor (R489, R490, R501). -/
def Claims.GoodSlot (s : State) (fs : Nat) (p : Package) : Prop :=
  1 ≤ fs ∧ fs ≤ 3 ∧ s.slotPackage fs = some p ∧ s.verifies false p = true ∧ s.aboveFloors p = true

/-- Slot `fs` can be activated: besides, the Hallmark log has room and the Signet image is the running one (R497, R500). -/
def Claims.MayActivate (s : State) (fs : Nat) : Prop :=
  ∃ p q, Claims.GoodSlot s fs p ∧ s.boot.logFull = false ∧ s.slotPackage s.boot.dir.running = some q ∧
    q.measures.getD 0 0#384 = p.measures.getD 0 0#384

/-- R499 to R501: a piece of a download is kept, one that overlaps another is refused; a commit writes a package that verifies into
the named slot, which action 1 makes next-start; a download that does not verify is discarded; action 2 only makes a slot
next-start. -/
def Claims.downloadsAndCommits : Prop :=
  ∀ (s : State) (slot : SlotId) (e : Slot) (b : BeadId) (p : Package) (copies : List CopyAt) (fs : Nat),
    let k := slot.toNat
    let n := e.cmd.dw10.toNat + 1
    let a := e.cmd.dw11.toNat
    (s.sanGate = none → Claims.AdminCommand s k 0x11 e → Claims.DataIn s e b.toNat → a + n ≤ 2 ^ 22 →
      ((∀ q ∈ s.boot.pieces, a + n ≤ q.1 ∨ q.1 + q.2 ≤ a) → Claims.Runs (.firmwareImageDownload slot [b]) s fun t =>
        Claims.Posts s t k 0 0 0 ∧ t.boot = { s.boot with pieces := s.boot.pieces ++ [(a, n)] }) ∧
      ((∃ q ∈ s.boot.pieces, a < q.1 + q.2 ∧ q.1 < a + n) → Claims.Runs (.firmwareImageDownload slot [b]) s fun t =>
        Claims.Posts s t k 0x114 0 0 ∧ t.boot = s.boot)) ∧
    (fs = 2 ∨ fs = 3 → s.boot.dir.running ≠ fs → s.boot.pieces ≠ [] → s.boot.sched = none →
      (s.verifies false p = true → s.aboveFloors p = true → goodCopies s.part.channels copies = true →
        (Claims.Commit s k 0 fs e → Claims.Runs (.firmwareCommitReplace slot (some p) copies) s fun t =>
          Claims.Posts s t k 0 0 0 ∧ t.boot.slots = tput s.boot.slots fs p ∧ t.boot.pieces = [] ∧
            t.boot.dir.next = s.boot.dir.next ∧ t.boot.dir.running = s.boot.dir.running) ∧
        (Claims.Commit s k 1 fs e → Claims.Runs (.firmwareCommitReplaceNext slot (some p) copies) s fun t =>
          Claims.Posts s t k 0 0 0 ∧ t.boot.slots = tput s.boot.slots fs p ∧ t.boot.pieces = [] ∧ t.boot.dir.next = fs ∧
            t.boot.dir.running = s.boot.dir.running)) ∧
      (∀ i, (i = Instr.firmwareCommitReplace slot none copies ∧ Claims.Commit s k 0 fs e ∨
          i = Instr.firmwareCommitReplaceNext slot none copies ∧ Claims.Commit s k 1 fs e) →
        Claims.Runs i s fun t => Claims.Posts s t k 0x107 0 0 ∧ t.boot = { s.boot with pieces := [] })) ∧
    (Claims.Commit s k 2 fs e → Claims.GoodSlot s fs p → Claims.Runs (.firmwareCommitNextStart slot true) s fun t =>
      Claims.Posts s t k 0 0 0 ∧ t.boot.dir.next = fs ∧ t.boot.dir.running = s.boot.dir.running ∧ t.boot.slots = s.boot.slots)

/-- The device is in a health mode, which an activation leaves for Quiesce. -/
def Claims.Healthy (s : State) : Prop := 2 ≤ s.fld fARC_MODE_CUR ∧ s.fld fARC_MODE_CUR ≤ 5

/-- R167, R502, R504: action 3, and a Scheduled Activation at its time, enter Quiesce with cause 0x0B and set `CSTS.PP`; a Scheduled
Activation waits for its time, or is cancelled. -/
def Claims.activationsStart : Prop :=
  ∀ (s : State) (slot : SlotId) (e : Slot) (fs : Nat),
    let k := slot.toNat
    let started (t : State) (order : Nat) (scheduled : Bool) (now : Nat) : Prop :=
      t.boot.act = some ⟨fs, order, now, scheduled⟩ ∧ t.fld fARC_MODE_CUR = 7 ∧ t.fld fARC_MODE_CAUSE = 0x0B ∧ t.hqe.pp = true ∧
        t.hqe.drained = true
    let at_ := e.cmd.dw11.toNat + e.cmd.dw12.toNat % 2 ^ 16 * 2 ^ 32
    (Claims.Commit s k 3 fs e → Claims.MayActivate s fs → Claims.Healthy s → s.boot.sched = none → s.boot.act = none →
      Claims.Runs (.firmwareCommitActivate slot true) s fun t => started t e.order false s.now) ∧
    (s.sanGate = none → Claims.AdminCommand s k 0xC0 e → e.cmd.dw10.getLsbD 8 = false → schedReserved e.cmd = true →
      e.cmd.dw10.toNat % 8 = fs → s.fld fTMR_STAMP_ORIGIN ≠ 0 → s.boot.sched = none → s.boot.act = none →
      s.stampMs + 100 ≤ at_ → at_ ≤ s.stampMs + 2592000000 → Claims.MayActivate s fs →
      Claims.Runs (.scheduledActivation slot true) s fun t => t = { s with boot := { s.boot with sched := some ⟨e.order, fs, at_⟩ } }) ∧
    (s.sanGate = none → Claims.AdminCommand s k 0xC0 e → e.cmd.dw10.getLsbD 8 = true → s.boot.sched = none →
      Claims.Runs (.scheduledActivationCancel slot) s fun t => Claims.Posts s t k 0 0 0 ∧ t.boot = s.boot) ∧
    (s.sanGate = none → Claims.AdminCommand s k 0xC0 e → e.cmd.dw10.getLsbD 8 = true → s.boot.sched.isSome = true →
      Claims.Runs (.scheduledActivationCancel slot) s fun t => t.boot = { s.boot with sched := none }) ∧
    (∀ o at', s.boot.sched = some ⟨o, fs, at'⟩ → s.sig.sanState ≠ 1 → Claims.Healthy s →
      Claims.Runs .scheduledActivationTime s fun t =>
        started t o true (s.now + (at' - s.stampMs) * 1000000) ∧ t.boot.sched = none)

/-- R167, R502, R503: a core parks, and its message is taken; an activation whose drain or whose parking is missing is abandoned and
Quiesce ends; a release names the new slot as running and next-start, and every active core runs at the new image's
entry with its registers zero. -/
def Claims.activationsEnd : Prop :=
  ∀ (s : State) (core : CoreId) (a : Activation), s.boot.act = some a →
    (∀ m rest, takeFirst (fun (m : Msg) => decide (m.src = (s.core core).role) && decide (m.sub = 0x1A3)) (s.box 112 1) = some (m, rest) →
      Claims.Runs (.corePark core) s fun t => (t.core core).parked = true ∧ t.box 112 1 = rest ∧
        (t.core core).pc = (s.core core).pc ∧ (t.core core).g = (s.core core).g) ∧
    ((s.activationDrained a && s.allParked) = false → s.fld fARC_MODE_CUR = 7 → Claims.Runs .activationDrainTimeout s fun t =>
      t.boot = { s.boot with act := none } ∧ t.hqe.pp = false ∧ t.fld fARC_MODE_CUR = s.fld fARC_MODE_HEALTH ∧
        t.fld fARC_MODE_HEALTH = s.fld fARC_MODE_HEALTH) ∧
    (∀ p, (s.activationDrained a && s.allParked) = true → s.slotPackage a.slot = some p → s.fld fARC_MODE_CUR = 7 →
      Claims.Runs (.activationRelease [] true) s fun t =>
        t.boot.dir.running = a.slot ∧ t.boot.dir.next = a.slot ∧ t.boot.dir.previous = s.boot.dir.running ∧ t.boot.act = none ∧
          t.fld fARC_MODE_CUR = s.fld fARC_MODE_HEALTH ∧ s.now ≤ t.now ∧ a.startedAt + 36000000 ≤ t.now ∧
          ∀ n, n < 54 → s.part.coreOn n = true → ((s.core n).status = .running ∨ ∃ w, (s.core n).status = .waiting w) →
            (t.core n).status = .running ∧ (t.core n).pc = p.actEntry.toNat / 4 * 4 ∧ (t.core n).g = [] ∧
              (t.core n).role = (s.core n).role)

/-- R167, R499, R500, R501, R502, R503, R504: firmware download, commit, activation and Scheduled Activation. -/
def Obligations.FirmwareUpdatesAndActivates : Prop := Claims.downloadsAndCommits ∧ Claims.activationsStart ∧ Claims.activationsEnd


/-! ### Firmware's work in the background -/

/-- The units at `ps` have been read to be moved to stripes of a use, in beads of a class that grants them (R182, R216, R235, R236): each
counts as a read of the day. Where one of them is valid, it can be read and the first place takes it at `q`, its entry names `q`, and
the journal holds a conditional record. -/
def Claims.Moves (s t : State) (use kind cls : Nat) (places : List StripeAt) (warned : List (BitVec 40)) (ps : List Nat) : Prop :=
  s.decideBeads cls (s.validUnits ps).length = .grant →
    t.fw.readsDay = s.fw.readsDay + ps.length ∧
    ∀ p k u w place rest q, s.validUnits ps = [(p, k, u)] → places = place :: rest → s.unitAt p 0 = some w → 1 ≤ s.placeRoom use place →
      (((s.takeBeads cls (fwCore 33) 1).1.poolRefresh.readFor ps (warned.map (·.toNat))).putAt use place [unitFrom w kind]).map (·.2) =
        some [q] →
      ∃ key seq, s.entryKey k u = some key ∧ t.entryAt key = mkEntry q false false false false seq ∧
        JRec.unit k true p seq u (mkEntry q false false false false seq) ∈ t.fw.jWait

/-- R206, R212, R268, R273: a dirty page that is due and not resident goes to flash under the next odd number: its table entry and a
record name its place. With programs stopped, or before it is due, nothing is written. A page with index records is brought current. -/
def Claims.mapPages : Prop :=
  ∀ (s : State) (mpn : BitVec 32) (place : StripeAt),
    let p := mpn.toNat
    (s.programsOn = true → s.pageDirty p = true → s.writebackDue p = true → s.findPage p = none →
      (s.writePage p place).map (·.2) = some true →
      Claims.Runs (.mapWriteback mpn place) s fun t =>
        t.fw.seqC = (s.fw.seqC + 2) % 2 ^ 64 ∧ ∃ ppa,
          let e := ppa + (s.fw.seqC ||| 1) % 65536 * 2 ^ 48
          tget t.fw.pageTab p = some e ∧ JRec.mapPage p (s.fw.seqC ||| 1) e ∈ t.fw.jWait) ∧
    (s.programsOn = false ∨ s.writebackDue p = false → exec (.mapWriteback mpn place) s = .next s) ∧
    ((tget s.fw.replayIndex p).isSome = true → Claims.Runs (.mapPageReplay mpn) s fun t =>
      tget t.fw.replayIndex p = none ∧ ∀ f, s.findPage p = some f → (s.frame f).busy = false → (t.frame f).dirty = true)

/-- R151, R203, R204, R222, R260: a flush that is due takes every waiting record, the frontiers that have moved, and a checkpoint last,
padded to whole units with a fresh number each; a range that is ready takes its number then; without a reason it does not start, and
one in progress goes on. Once durable it joins the journal, and the ranges in it take effect. -/
def Claims.flushesOfTheJournal : Prop :=
  ∀ (s : State),
    (s.flushDue = true → s.fw.jFlush = none → (s.nextStripe false 5).isSome = true →
      ((∀ r ∈ s.fw.ranges, s.rangeReady r = false) → Claims.Runs .journalFlushStart s fun t =>
        let l := s.fw.jWait ++ s.frontierRecs
        let n := ceilDiv (l.length + 1) 128
        t.fw.jFlush = some (l ++ [JRec.checkpoint false (s.fw.jFlushNo + 1) t.fw.seqTop] ++ List.replicate (128 * n - (l.length + 1)) .nop,
            s.fw.pfailStop, (s.takeEach n).2) ∧
          t.fw.jWait = [] ∧ t.fw.jEarly = false ∧ t = { s with fw := t.fw }) ∧
      ∀ r, s.fw.ranges = [r] → s.rangeReady r = true → Claims.Runs .journalFlushStart s fun t =>
        let q := s.fw.seqC ||| 1
        t.fw.ranges = [{ r with seq := some q }] ∧ ∃ recs f seqs, t.fw.jFlush = some (recs, f, seqs) ∧
          JRec.range r.ns r.kind r.count q r.first (rangeEntry r.kind q) ∈ recs) ∧
    (s.flushDue = false → exec .journalFlushStart s = .next s) ∧
    (s.flushDue = true → s.fw.jFlush.isSome = true → exec .journalFlushStart s = .next { s with fw := { s.fw with jEarly := true } }) ∧
    ∀ recs f seqs, s.fw.jFlush = some (recs, f, seqs) → s.hqe.shutdown = false →
      (s.putJournal seqs.length (journalUnits recs (s.fw.jFlushNo + 1) seqs)).isSome = true →
      ((∀ q p, JRec.snapshot true q p ∉ recs) → Claims.Runs .journalFlushDurable s fun t =>
        t.fw.jFlush = none ∧ t.fw.journal = s.fw.journal ++ recs ∧ t.fw.jFlushNo = s.fw.jFlushNo + 1 ∧ t.fw.pfailFlush = f) ∧
      ∀ o k kind u q n, s.fw.ranges = [⟨o, k, kind, u, 1, some q⟩] → s.fw.placed = [] → tget s.ns k = some n → u < n.units →
        Claims.Runs .journalFlushDurable s fun t =>
          t.entryAt ((n.base + u / 1024) * 1024 + u % 1024) = rangeEntry kind q ∧ t.fw.ranges = []

/-- R223, R230, R263, R264: a snapshot starts where the system band may be programmed next, with the block table as it stands and the
pages that are dirty; the one in progress, its started record durable and none of its pages dirty any more, completes with the page
table and the band table once its header stands in its first place. -/
def Claims.snapshots : Prop :=
  ∀ (s : State), s.programsOn = true →
    ((∀ x, s.fw.snaps.getLast? = some x → x.complete = true) → ∀ n row bd ds left, s.systemRow = some (n, row) →
      s.freeStripe true 6 n row 0 = some (bd, ds, left) → Claims.Runs .mapTableSnapshot s fun t =>
        let q := s.fw.seqC ||| 1
        let first := bd.ppaOn (ds.headD 0) row 0
        t.fw.snaps = s.fw.snaps ++ [{
          seq := q, complete := false, pageTab := [], blocks := s.fw.blocks, bands := [], dirty := s.dirtyPages, flush := 0
          recordPpa := 0, band := n, first := first, units := s.snapshotUnits }] ∧
          t.fw.jWait = s.fw.jWait ++ [JRec.snapshot false q first]) ∧
    ∀ x, s.fw.snaps.getLast? = some x → x.complete = false → x.dirty = [] → x.recordPpa ≠ 0 →
      (s.putStripe true 6 x.band (rowOf x.first) 0 false [⟨unitData x.header, [], x.seq, 2 * 2 ^ 40, 0, 7⟩]).map (·.2) = some [x.first] →
      Claims.Runs .mapTableSnapshot s fun t =>
        t.fw.snaps = s.fw.snaps.dropLast ++ [{ x with complete := true, pageTab := s.fw.pageTab, bands := s.fw.bands }] ∧
          JRec.snapshot true x.seq x.first ∈ t.fw.jWait

/-- R151, R203, R204, R206, R212, R222, R223, R230, R260, R263, R264, R268, R273: map pages, journal flushes and snapshots. -/
def Obligations.MapPagesAndJournalReachFlash : Prop := Claims.mapPages ∧ Claims.flushesOfTheJournal ∧ Claims.snapshots

/-- R216, R234 to R237, R265: folding moves units of the oldest staging block while staging is more than 10 % full, reclamation those of
the victim band, relocation those of a worn or marked block, with programs stopped or background work off none; a closed band of 87
days or of the wear step becomes refresh-due. -/
def Claims.unitsMove : Prop :=
  ∀ (s : State) (place : StripeAt) (warned : List (BitVec 40)) (block : BlockId) (band : BitVec 45),
    let r := s.blk block.toNat
    (s.programsOn = true → s.backgroundOn = true →
      (s.stagingAbove 10 = true →
        let a := s.readyBand 2 place
        ∀ n b, a.oldestStaging = some (n, b) → Claims.Runs (.fold place warned) s fun t =>
          Claims.Moves a t 2 1 3 [place] warned (a.upToValid (a.placeRoom 2 place) (a.ppasIn b))) ∧
      (s.stagingAbove 10 = false → exec (.fold place warned) s = .next s) ∧
      (∀ n bd, (s.band place.band.toNat).map (·.use) ≠ some 4 →
        s.victimBand [1, 2, 3] (decide (s.lowestFree < 96) || s.hqe.slots.isEmpty) = some n → s.band n = some bd →
        Claims.Runs (.reclamation place warned) s fun t =>
          Claims.Moves s t 3 2 4 [place] warned (s.upToValid (s.placeRoom 3 place) (bd.blocks.flatMap s.ppasIn))) ∧
      (4000000 ≤ r.reads ∨ 3 ≤ s.warnedPages r ∨ r.marked = true → r.use ∉ [4, 5, 6] →
        let use := if r.use = 0 then 2 else 3
        Claims.Runs (.blockRelocation block place warned) s fun t =>
          Claims.Moves s t use (if r.use = 0 then 1 else 2) (if r.use = 0 then 3 else 4) [place] warned
            (s.upToValid (s.placeRoom use place) (s.ppasIn block.toNat)))) ∧
    ((s.programsOn = false ∨ s.backgroundOn = false) →
      ∀ i ∈ [Instr.fold place warned, Instr.reclamation place warned, Instr.blockRelocation block place warned], exec i s = .next s) ∧
    ∀ bd, s.band band.toNat = some bd → bd.state = 1 →
      (20880 ≤ s.bandAge bd ∨ bd.wearAtClose + 1280 ≤ s.poolWear (bd.blocks.map dieOfBlock)) →
      Claims.Runs (.bandRefreshDue band) s fun t =>
        t = { s with fw := { s.fw with bands := tput s.fw.bands band.toNat { bd with refreshDue := true } } }

/-- R230 to R233, R243, R244, R262: an erase of a block that may be erased (an erase-indeterminate one; the released block that is next
in order, its record durable; a free one not yet erased in this power cycle) empties it, counts the attempt and puts it into the free
pool, or retires it. -/
def Claims.blocksAreErased : Prop :=
  ∀ (s : State) (block : BlockId),
    let b := block.toNat
    s.programsOn = true → s.mayErase b = true →
    (Claims.Runs (.blockErase block true) s fun t =>
      (t.blk b).state = 0 ∧ (t.blk b).pooled = true ∧ (t.blk b).reads = 0 ∧ (t.blk b).ew = false ∧ (t.blk b).ewPrev = (s.blk b).ew ∧
        (t.blk b).erases = min ((s.blk b).erases + 1) (2 ^ 24 - 1) ∧ t.ppasIn b = [] ∧ b ∉ t.fw.released ∧
        (∀ p, blockOf p ≠ b → tget t.fw.flash p = tget s.fw.flash p) ∧ t = { s with fw := t.fw }) ∧
    Claims.Runs (.blockErase block false) s fun t =>
      (t.blk b).state = 6 ∧ t.fw.retiredEver = s.fw.retiredEver + 1 ∧ JRec.block 3 (s.blk b).use (blockPpa b) ∈ t.fw.jWait

/-- R240, R241, R248, R250: the sketch is cleared; a cached unit not hit for 100 ms goes; the wear stage rises, and never falls; the
summary ends the day's windows. -/
def Claims.hotUnitsAndWear : Prop :=
  ∀ (s : State) (ns : BitVec 8) (unit : BitVec 48),
    exec .sketchClear s = .next { s with fw := { s.fw with sketch := [] } } ∧
    (∀ h, s.fw.hot.find? (fun h => h.ns == ns.toNat && h.unit == unit.toNat) = some h → h.lastHit + 100000000 ≤ s.now →
      Claims.Runs (.hotCacheEvict ns unit) s fun t =>
        t.fw.hot = s.fw.hot.filter (fun x => !(x.ns == ns.toNat && x.unit == unit.toNat)) ∧
          (ns.toNat, unit.toNat, s.now) ∈ t.fw.evicted) ∧
    (s.fw.wearStage < s.stageNow → Claims.Runs .wearStageRise s fun t => t.fw = { s.fw with wearStage := s.stageNow }) ∧
    (s.stageNow ≤ s.fw.wearStage → exec .wearStageRise s = .next s) ∧
    (Claims.Recording s 1 → Claims.Runs .wearSummary s fun t =>
      Claims.Records s t 1 (fwCore 30) 0x0101 ∧ t.fw = { s.fw with readsDay := 0, ewDay := 0, softDay := 0, wearSummaryAt := s.hours })

/-- R216, R230, R231, R232, R233, R234, R235, R236, R237, R240, R241, R243, R244, R248, R250, R262, R265: folding, reclamation,
relocation, erases, hot units and wear. -/
def Obligations.BlocksAreFoldedReclaimedAndErased : Prop := Claims.unitsMove ∧ Claims.blocksAreErased ∧ Claims.hotUnitsAndWear

/-- R150, R204, R214, R376: at its timeout a direct portion that waits alone is programmed at the places of a group, and the entries of its
units name their places; so is a unit that waits alone in staging. Both take their numbers then. -/
def Claims.portionsTimeOut : Prop :=
  ∀ (s : State), s.programsOn = true →
    (∀ l w rest u m,
      let places := w :: rest
      let r := (s.withFw { s.fw with direct := [] }).takeSeqs l.length
      s.fw.direct = [l] → s.directReady l = true → s.oldestStaging = none → 1 ≤ s.placeRoom 1 w →
      places.length = directStripes (((s.band w.band.toNat).map (·.k)).getD 16) → (∀ x ∈ places, s.failsAt x = none) →
      r.1.putGroup [(l.mapIdx fun i x => { x with seq := some (r.2.getD i 0) }).map .host] [] w 0 places = some (u, m) →
      Claims.Runs (.directGroupTimeout places) s fun t =>
        t.fw.direct = [] ∧ ∀ x p key, (DirectItem.host x, p) ∈ m → s.entryKey x.ns x.unit = some key →
          (∀ y q, (DirectItem.host y, q) ∈ m → s.entryKey y.ns y.unit = some key → (y, q) = (x, p)) →
          t.entryAt key = mkEntry p false false false true (x.seq.getD 0)) ∧
    ∀ (place : StripeAt) (w : Waiting) (key q : Nat), s.fw.staging = [w] → w.seq = none → w.mask % 256 = 255 → w.index = 0 → w.count = 1 →
      w.ranged = false → s.fw.placed = [] → s.fw.ranges = [] → 1 ≤ s.stagingAdmits → 1 ≤ s.placeRoom 0 place → s.placeFree 0 place = true →
      s.entryKey w.ns w.unit = some key →
      ((s.numberPortion w).putAt 0 place [s.unitOf { w with seq := some (s.fw.seqC ||| 1) }]).map (·.2) = some [q] →
      Claims.Runs (.stagingStripeTimeout place) s fun t =>
        t.entryAt key = mkEntry q false false true false (s.fw.seqC ||| 1) ∧ t.fw.staging = [] ∧ t.fw.placed = []

/-- R273, R274: PFAIL_N low stops programs and starts a flush; high for 1 ms ends that; low for 100 ms makes it ignored. -/
def Claims.pfail : Prop :=
  ∀ (s : State),
    (s.fw.pfailIgnore = false → Claims.Runs .pfailNAssert s fun t =>
      t.fw.pfailLow = true ∧ t.fw.pfailStop = true ∧
        (s.fw.jFlush = none → (s.nextStripe false 5).isSome = true → ∃ recs seqs, t.fw.jFlush = some (recs, true, seqs) ∧
          ∀ r ∈ s.fw.jWait, r ∈ recs)) ∧
    (s.fw.pfailIgnore = true → exec .pfailNAssert s = .next { s with fw := { s.fw with pfailLow := true } }) ∧
    exec .pfailNRelease s = .next { s with fw := { s.fw with pfailLow := false, pfailStop := false } } ∧
    (s.fw.pfailLow = true → s.fw.pfailIgnore = false → Claims.Runs .pfailNStuck s fun t =>
      t.fw = { s.fw with pfailStop := false, pfailIgnore := true })

/-- R229, R244, R262, R266, R268: recovery closes the open bands or finds that they never held a block, keeps the journal and adds to it,
takes every block whose erase was cut short or not begun for erase-indeterminate, and indexes the pages with at most 1,024 records. -/
def Claims.recovers : Prop :=
  ∀ (s : State) (bad warned : List (BitVec 40)) (failed : List BlockId) (rebuilt : BitVec 16) (again : Bool), s.fld fARC_MODE_CUR = 1 →
    tabWf s.fw.bands = true → (∀ e ∈ s.fw.bands, e.1 ≤ s.fw.bandSerial) →
    Claims.Runs (.recovery bad warned failed rebuilt again) s fun t =>
      (∃ l, t.fw.journal = s.fw.journal ++ l) ∧ t.fw.released = [] ∧ (∀ e ∈ t.fw.replayIndex, e.2 ≤ 1024) ∧
        (∀ n bd, s.band n = some bd → bd.state = 0 → ∃ bd', t.band n = some bd' ∧ bd'.state ≠ 0) ∧
        ∀ b r, tget (s.replayTables (s.findRecords (bad.map (·.toNat)))).blocks b = some r → (r.state = 1 ∨ r.state = 4) →
          (t.blk b).state = 5

/-- R150, R204, R214, R229, R244, R262, R266, R268, R273, R274, R376: stripe timeouts, PFAIL_N and recovery. -/
def Obligations.PortionsPowerFailAndRecovery : Prop := Claims.portionsTimeOut ∧ Claims.pfail ∧ Claims.recovers


/-! ### Losses, repair and patrol -/

/-- R380, R383, R384, R386, R390: a LUN offline for 1 s makes its die lost, with a record; the stripe that failed first is moved, and leaves
the list once no unit of it is valid; the next stripe with a lost member, in the order of R384, is moved and counted. -/
def Claims.lossAndRepair : Prop :=
  ∀ (s : State) (die : BitVec 9) (places : List StripeAt) (warned : List (BitVec 40)),
    let moved (t : State) (n : Nat) : Prop :=
      let staged := s.stripeUse n = 0
      s.stripeUse n ∉ [4, 5, 6] →
        Claims.Moves s t (if staged then 2 else 3) (if staged then 1 else 2) (if staged then 3 else 5) places warned (s.stripeValid n)
    ((tget s.fw.offlineAt die.toNat).isSome = true → s.dieLost die.toNat = false → Claims.Runs (.lunOfflineTimeout die) s fun t =>
      tget t.fw.lostDies die.toNat = some 1 ∧ tget t.fw.lostHours die.toNat = some s.hours ∧ tget t.fw.offlineAt die.toNat = none ∧
        t.fw.stripes = s.fw.stripes ++ [SRec.loss 1 die.toNat s.hours]) ∧
    (s.programsOn = true → s.backgroundOn = true →
      (∀ n at_ rest, s.fw.repairs = (n, at_) :: rest → Claims.Runs (.stripeRepair places warned) s fun t =>
        moved t n ∧ (t.stripeStale n = true → t.fw.repairs = rest ∧ t.fw.repairedEver = s.fw.repairedEver + 1)) ∧
      (∀ n, s.nextRebuild = some n → Claims.Runs (.rebuild places warned) s fun t =>
        moved t n ∧ (t.stripeStale n = true → t.fw.rebuildLast = n ∧
          (t.fw.rebuildDone = s.fw.rebuildDone + 1 ∨ t.fw.rebuildDone = 0 ∧ t.fw.rebuildAt = none))) ∧
      (s.nextRebuild = none → exec (.rebuild places warned) s = .next s))

/-- R392 to R394: a new target of 4 to 16 that the channels allow is planned and moved to while a band of another shape holds a valid
unit, and is the shape at once where there is no such band; in Quiesce and the sleep modes a reshape is suspended. -/
def Claims.reshapes : Prop :=
  ∀ (s : State) (target : BitVec 5) (places : List StripeAt) (warned : List (BitVec 40)),
    let k := target.toNat
    (s.fw.reshapeState = 0 → s.fld fARC_MODE_CUR ∉ [7, 8, 9] → 4 ≤ k → k ≤ 16 → k + 2 ≤ s.goodChannels → k ≠ s.fw.shapeK →
      ((∃ e ∈ s.fw.bands, e.2.state ≠ 2 ∧ e.2.k ≠ k ∧ s.bandEmpty e.1 = false) → Claims.Runs (.reshape target places warned) s fun t =>
        t.fw.reshapeState = 2 ∧ t.fw.reshapeK = k ∧ t.fw.shapeK = s.fw.shapeK ∧
          t.fw.stripes = s.fw.stripes ++ [SRec.reshape 1 k 0 0, SRec.reshape 2 k 0 0]) ∧
      ((∀ e ∈ s.fw.bands, e.2.state = 2) → Claims.Runs (.reshape target places warned) s fun t =>
        t.fw.reshapeState = 0 ∧ t.fw.shapeK = k)) ∧
    (s.fw.reshapeState = 2 → s.fld fARC_MODE_CUR ∈ [7, 8, 9] → Claims.Runs (.reshape target places warned) s fun t =>
      t.fw.reshapeState = 4 ∧ t.fw.reshapeSaved = 2)

/-- The blocks of the copies of the stripe journal have room for what waits, and for every record in force (R389). -/
def Claims.JournalHasRoom (s : State) : Prop :=
  (∀ u ∈ s.fw.copyUsed, u + (s.fw.stripes.length + 255) / 128 ≤ 4 * s.fw.wordlines) ∧
    (s.fw.stripes.length + 255) / 128 * 2 ≤ 4 * s.fw.wordlines

/-- R382, R389, R390, R395 to R397: a lap ends, and the stripes it could not locate go to the repair list; a range pass keeps its
summary; the stripe journal's copies are made with the first writes, one whose program fails stays out while the others take what waits, and
is replaced, each with a record. -/
def Claims.patrolAndJournal : Prop :=
  ∀ (s : State) (found : PassFindings) (first last : BitVec 64) (die : BitVec 9),
    (s.backgroundOn = true → Claims.Runs (.patrolLap found) s fun t =>
      t.fw.patrolLap = s.fw.patrolLap + 1 ∧ t.fw.patrolAt = s.hours ∧ t.fw.lastLap = s.hours - s.fw.patrolAt ∧
        ∀ n ∈ found.unlocated, ∃ r ∈ t.fw.repairs, r.1 = n.toNat) ∧
    (s.backgroundOn = true → Claims.Runs (.rangePass first last found) s fun t =>
      ∃ p, t.fw.lastPass = some p ∧ p.first = first.toNat ∧ p.last = last.toNat ∧ p.checked = found.checked.toNat ∧
        p.pages = found.pages.toNat ∧ p.located = found.located.length ∧ p.notLocated = found.unlocated.length) ∧
    ∀ b, s.dieLost die.toNat = false → s.leastWorn die.toNat = some b → s.fw.copyBad = none →
      (s.fw.copies.length < 3 → (∀ c ∈ s.fw.copies, c.1 / 16 ≠ die.toNat / 16) → Claims.JournalHasRoom s →
        Claims.Runs (.stripeJournalWrite none die) s fun t =>
          t.fw.copies = s.fw.copies ++ [(die.toNat, b % 2 ^ 17)] ∧ SRec.copy s.fw.copies.length die.toNat (b % 2 ^ 14) ∈ t.fw.stripes ∧
            (t.blk b).state = 2 ∧ (t.blk b).use = 6 ∧
            (s.fw.copies ≠ [] → (∀ c ∈ s.fw.copies, s.dieLost c.1 = false) → t.fw.stripesDone = t.fw.stripes.length)) ∧
      (s.fw.copies.length = 3 → (∀ c ∈ s.fw.copies, s.dieLost c.1 = false) → Claims.JournalHasRoom s → ∀ i : Fin 3,
        Claims.Runs (.stripeJournalWrite (some i) die) s fun t =>
          t.fw.copyBad = some i.val ∧ t.fw.copies = s.fw.copies ∧ t.fw.stripesDone = t.fw.stripes.length) ∧
      ∀ i : Fin 3, s.fw.copies.length = 3 → (∀ j c, s.fw.copies[j]? = some c → j ≠ i.val → c.1 / 16 ≠ die.toNat / 16) →
        Claims.JournalHasRoom s → Claims.Runs (.stripeJournalWrite none die) (s.withFw { s.fw with copyBad := some i.val }) fun t =>
          t.fw.copies = s.fw.copies.set i.val (die.toNat, b % 2 ^ 17) ∧ t.fw.copyBad = none ∧
            t.fw.copiesReplaced = s.fw.copiesReplaced + 1 ∧ SRec.copy i.val die.toNat (b % 2 ^ 14) ∈ t.fw.stripes

/-- R380, R382, R383, R384, R386, R389, R390, R392, R393, R394, R395, R396, R397: lost dies, stripe repair, reshape, patrol, range
pass and the stripe journal. -/
def Obligations.LossesRepairAndPatrol : Prop := Claims.lossAndRepair ∧ Claims.reshapes ∧ Claims.patrolAndJournal


/-! ### Sequencers -/

/-- Sequencer `q` can be trained: it serves a channel that is not lost, and is not fenced (R282, R283). -/
def Claims.Trainable (s : State) (q : Nat) : Prop := (s.sq q).lost = false ∧ s.fld (fPSQ_STAT_STATE q) ≠ 6

/-- R281 to R283: `EN` starts the bring-up, `APPLY` takes mode and rate and trains, `FULL` trains, `RETRIM` and the periodic and
temperature events re-trim. -/
def Claims.trainingStarts : Prop :=
  ∀ (s : State) (who : Endpoint) (q : SeqId) (mode : BitVec 2) (mts : BitVec 12), Claims.Trainable s q →
    let busy (t : State) (kind : Nat) : Prop := (t.sq q).training = kind ∧ t.fld (fPSQ_TRAIN_BUSY q) = 1
    (s.fld (fPSQ_CTL_EN q) = 0 → s.ctlStoreFault who.toNat (rPSQ_CTL q) (setBits (s.reg (rPSQ_CTL q)) 0 1 1) = none →
      Claims.RunsThenSettles (.psqBringUp who q) s fun t => busy t 3 ∧ t.fld (fPSQ_CTL_EN q) = 1) ∧
    (s.ctlStoreFault who.toNat (rPSQ_RATE q) (BitVec.ofNat 64 (mode.toNat + mts.toNat * 2 ^ 8 + 2 ^ 20)) = none →
      Claims.RunsThenSettles (.psqApplyRate who q mode mts) s fun t =>
        busy t 2 ∧ t.fld (fPSQ_RATE_MODE q) = mode.toNat ∧ t.fld (fPSQ_RATE_MTS q) = mts.toNat ∧ (t.sq q).offsets = []) ∧
    (s.ctlStoreFault who.toNat (rPSQ_TRAIN q) 1#64 = none →
      Claims.RunsThenSettles (.psqTrainFull who q) s fun t => busy t 2 ∧ (t.sq q).stack = [] ∧ (t.sq q).offsets = []) ∧
    ((s.sq q).training = 0 → s.ctlStoreFault who.toNat (rPSQ_TRAIN q) 2#64 = none →
      Claims.RunsThenSettles (.psqRetrim who q) s fun t => busy t 1 ∧ (t.sq q).offsets = (s.sq q).offsets) ∧
    ((s.sq q).training = 0 → ∀ i ∈ [Instr.retrimPeriodic q, Instr.retrimTemperature q], Claims.Runs i s fun t =>
      busy t 1 ∧ (t.sq q).shadow = (s.sq q).shadow ∧ t = { s with seqs := t.seqs, regs := t.regs })

/-- R281 to R283, R306: a good re-trim ends; the second failure in a row trains; a training that every CE passes ends with `FAIL`
clear, one that none passes loses the channel; a bring-up takes LUNs that do not answer offline. -/
def Claims.trainingEnds : Prop :=
  ∀ (s : State) (q : SeqId) (good : Bool) (luns : BitVec 16) (ceok : BitVec 4),
    ((s.sq q).training = 1 → Claims.Runs (.trainingDone q true ceok luns) s fun t =>
      (t.sq q).training = 0 ∧ (t.sq q).retrimFails = 0 ∧ (t.sq q).trimAt = s.now ∧ t.fld (fPSQ_TRAIN_BUSY q) = 0 ∧
        t.fld (fPSQ_TRAIN_COUNT q) = min (s.fld (fPSQ_TRAIN_COUNT q) + 1) 65535) ∧
    ((s.sq q).training = 1 → (s.sq q).retrimFails = 0 → Claims.Runs (.trainingDone q false ceok luns) s fun t =>
      (t.sq q).training = 0 ∧ (t.sq q).retrimFails = 1 ∧ (t.sq q).trimAt = s.now ∧ t.fld (fPSQ_TRAIN_BUSY q) = 0 ∧
        t.fld (fPSQ_TRAIN_COUNT q) = min (s.fld (fPSQ_TRAIN_COUNT q) + 1) 65535) ∧
    ((s.sq q).training = 1 → 1 ≤ (s.sq q).retrimFails → Claims.Trainable s q → Claims.Runs (.trainingDone q false ceok luns) s fun t =>
      (t.sq q).training = 2 ∧ t.fld (fPSQ_TRAIN_BUSY q) = 1) ∧
    ((s.sq q).training = 2 → ceok = 15#4 → Claims.Runs (.trainingDone q good ceok luns) s fun t =>
      (t.sq q).training = 0 ∧ t.fld (fPSQ_TRAIN_BUSY q) = 0 ∧ t.fld (fPSQ_TRAIN_CEOK q) = 15 ∧ t.fld (fPSQ_TRAIN_FAIL q) = 0) ∧
    ((s.sq q).training = 2 → ceok = 0#4 → Claims.Runs (.trainingDone q good ceok luns) s fun t =>
      (t.sq q).lost = true ∧ (t.sq q).shadow = [] ∧ t.fld (fPSQ_TRAIN_CEOK q) = 0 ∧ t.fld (fPSQ_TRAIN_FAIL q) = 1) ∧
    ((s.sq q).training = 3 → Claims.Runs (.trainingDone q good ceok luns) s fun t =>
      (t.sq q).training = 0 ∧ t.fld (fPSQ_TRAIN_BUSY q) = 0 ∧
        ∀ l, l < 16 → luns.getLsbD l = false → (t.reg (rPSQ_LUNOFF q)).getLsbD (16 + l) = true)

/-- R281, R282, R283, R306: bring-up, rates, training and re-trims of a sequencer. -/
def Obligations.SequencersTrain : Prop := Claims.trainingStarts ∧ Claims.trainingEnds

/-- Sequencer `q` has sent a reply with this status to the request with this tag (R295). -/
def Claims.Replies (t : State) (q tag status : Nat) : Prop :=
  ∃ m ∈ t.net, m.src = 64 + q ∧ m.sub = 0x151 ∧ pGet m.payload 1 1 = status ∧ pGet m.payload 12 4 = tag % 2 ^ 32

/-- While the control clasp passes messages (R114), the request command `i` takes the first message of mailbox 0, of operation `op`:
into the shadow table, or, where R293 refuses it, with a reply at once. -/
def Claims.TakesRequest (s : State) (q : SeqId) (i : Instr) (op : Nat) : Prop :=
  ∀ m rest, s.psqReach q = true → s.box (64 + q) 0 = m :: rest → pGet m.payload 0 1 = op → (s.sq q).shadow.length < 64 →
    (s.fld (fPSQ_STAT_STATE q) ≠ 6 ∨ (s.sq q).lost = true) → (∀ j, j < 8 → s.injArmed j = false) →
    (s.psqRefused q (parseReq s.now m) = none → Claims.Runs i s fun t =>
      t.box (64 + q) 0 = rest ∧ (t.sq q).shadow.length = (s.sq q).shadow.length + 1 ∧
        ∃ r ∈ (t.sq q).shadow, r.op = op ∧ r.tag = pGet m.payload 12 4 ∧ r.ppa = pGet m.payload 4 5 ∧ r.src = m.src) ∧
    (∀ st, s.psqRefused q (parseReq s.now m) = some st → s.epAbsent (pGet m.payload 3 1 % 128) = false → Claims.Runs i s fun t =>
      t.box (64 + q) 0 = rest ∧ (t.sq q).shadow = (s.sq q).shadow ∧ Claims.Replies t q (pGet m.payload 12 4) st)

/-- R114, R292, R293, R302, R306, R351: every operation of R293 is taken so, a read whatever its offset look-up yields. -/
def Claims.requestsAreTaken : Prop :=
  ∀ (s : State) (q : SeqId),
    (∀ lookup, Claims.TakesRequest s q (.psqRead q lookup) 1) ∧
    (∀ x ∈ [(Instr.psqProg q, 2), (.psqErase q, 3), (.psqFeats q, 4), (.psqFeatg q, 5), (.psqStatus q, 6),
      (.psqResetLun q, 7), (.psqParam q, 8)], Claims.TakesRequest s q x.1 x.2) ∧
    ∀ op, 0x20 ≤ op → op ≤ 0x2F → Claims.TakesRequest s q (.psqCustomer q) op

/-- R243, R295, R297 to R299, R302: when the die is ready, a program has put its units into flash, an erase has emptied its block, a
read goes on to its transfers; a failed erase retires the block; a die that times out has its request answered, and is offline
where Reset LUN fails; a held plane is answered with status 7. -/
def Claims.diesAnswer : Prop :=
  ∀ (s : State) (q : SeqId) (lun : BitVec 4) (busy : BitVec 32) (data : List Byte) (r : PsqReq),
    (s.psqReach q = true → s.runningOn q lun.toNat = [r] → s.flt.armed = [] → s.epAbsent r.replyEp = false →
      (r.sensed = false → r.op = 2 → s.badBeads r [] = 0 → Claims.Runs (.dieOperationComplete q lun busy true data []) s fun t =>
        t.fw.flash = r.programUnits.foldl (fun (f : Tab (List Word)) u => tput f u.1 (s.mem.readUnit u.2)) s.fw.flash ∧
          Claims.Replies t q r.tag 0) ∧
      (r.sensed = false → r.op = 3 → Claims.Runs (.dieOperationComplete q lun busy true data []) s fun t =>
        t.ppasIn (blockOf r.ppa) = [] ∧ (∀ p, blockOf p ≠ blockOf r.ppa → tget t.fw.flash p = tget s.fw.flash p) ∧
          Claims.Replies t q r.tag 0) ∧
      (r.sensed = false → r.op = 3 → Claims.Runs (.dieOperationComplete q lun busy false data []) s fun t =>
        (t.blk (blockOf r.ppa)).state = 6 ∧ t.fw.flash = s.fw.flash ∧ Claims.Replies t q r.tag 1) ∧
      (r.sensed = false → r.op = 1 → r.masked ≠ [] → Claims.Runs (.dieOperationComplete q lun busy true data []) s fun t =>
        ∃ x ∈ (t.sq q).shadow, x.tag = r.tag ∧ x.sensed = true ∧ x.busyNs = busy.toNat) ∧
      (Claims.Runs (.dieTimeout q lun true) s fun t => Claims.Replies t q r.tag 3) ∧
      (Claims.Runs (.dieTimeout q lun false) s fun t =>
        Claims.Replies t q r.tag 3 ∧ t.lunOff q lun.toNat = true)) ∧
    (s.psqReach q = true → r ∈ s.lunReqs q lun.toNat → r.phase = 3 → s.epAbsent r.replyEp = false → Claims.Runs (.planeHoldTimeout q lun) s fun t =>
      Claims.Replies t q r.tag 7)

/-- R290, R303, R304, R306: a sequencer that fails is fenced and its channel goes to the lowest spare with its requests, or is lost
where there is none; a spare that has loaded goes on, one that fails its load gives the channel to the next. -/
def Claims.sequencersFail : Prop :=
  ∀ (s : State) (q : SeqId), s.part.seqOn q = true → (s.sq q).lost = false →
    (s.fld (fPSQ_STAT_STATE q) ≠ 6 → s.fld (fPSQ_CTL_CHAN q) ≠ 0x3F → (s.sq q).tookOverAt = none →
      (∀ sp, s.psqSpare = some sp → Claims.Runs (.sequencerFailure q) s fun t =>
        t.fld (fPSQ_STAT_STATE q) = 6 ∧ t.fld (fPSQ_CTL_CHAN q) = 0x3F ∧ t.fld (fPSQ_CTL_CHAN sp) = s.fld (fPSQ_CTL_CHAN q) ∧
          (t.sq sp).loading = true ∧ (t.sq sp).shadow = (s.sq q).shadow ∧ (t.sq q).shadow = []) ∧
      (s.psqSpare = none → Claims.Runs (.sequencerFailure q) s fun t =>
        t.fld (fPSQ_STAT_STATE q) = 6 ∧ (t.sq q).lost = true ∧ (t.sq q).shadow = [])) ∧
    ((s.sq q).loading = true →
      (Claims.Runs (.spareLoadDone q true) s fun t =>
        (t.sq q).loading = false ∧ (t.sq q).tookOverAt = some s.now ∧ t.fld (fPSQ_SIG_LOADED q) = 1 ∧ t.fld (fPSQ_SIG_BAD q) = 0 ∧
          t.fld (fPSQ_STAT_STATE q) ∈ [2, 3, 4]) ∧
      ∀ sp, s.psqSpare = some sp → sp ≠ q.val → Claims.Runs (.spareLoadDone q false) s fun t =>
        t.fld (fPSQ_SIG_LOADED q) = 0 ∧ t.fld (fPSQ_SIG_BAD q) = 1 ∧ (t.sq sp).loading = true)

/-- R114, R243, R290, R292, R293, R295, R297, R298, R299, R302, R303, R304, R306, R351: requests of a sequencer, dies' answers,
and takeover by a spare. -/
def Obligations.SequencersServeAndFail : Prop := Claims.requestsAreTaken ∧ Claims.diesAnswer ∧ Claims.sequencersFail

/-- Sequencer `q` executes a legal microword of `SQ` value `op` (R285, R287). -/
def Claims.MicroLegal (s : State) (q : SeqId) (op : Nat) : Prop :=
  (s.fld (fPSQ_STAT_STATE q) = 2 ∨ s.fld (fPSQ_STAT_STATE q) = 3) ∧ s.fld (fPSQ_SIG_LOADED q) = 1 ∧ microSq (s.microWord q) = op ∧
    microIllegal (s.microWord q) = false ∧ nanoIllegal (s.nanoWord q (microNano (s.microWord q))) = false

/-- R285, R286, R288: where the program counter goes: on, to a branch that is taken, on when a wait ends and to 0x040 where its timer
expires, back in a loop until its counter reaches zero, to a far word, to a subroutine and back; `END` answers the request. -/
def Obligations.MicrowordsSequence : Prop :=
  ∀ (s : State) (q : SeqId) (seen expired : Bool) (status : BitVec 8),
    let w := s.microWord q
    let a := microArg w
    let pc := s.fld (fPSQ_STAT_PC q)
    let taken := s.microCond q (a / 128) (s.nanoWord q (microNano w)) seen
    let at_ (t : State) (x : Int) : Prop := (t.fld (fPSQ_STAT_PC q) : Int) = x % 4096
    (Claims.MicroLegal s q 0 → Claims.Runs (.microNext q seen expired status) s fun t => at_ t (pc + 1)) ∧
    (Claims.MicroLegal s q 1 → Claims.Runs (.microBr q seen expired status) s fun t =>
      at_ t (if taken then pc + argSigned a 7 else pc + 1)) ∧
    (Claims.MicroLegal s q 2 → Claims.Runs (.microWait q seen expired status) s fun t =>
      at_ t (if taken then pc + 1 else if expired then 0x040 else pc)) ∧
    (Claims.MicroLegal s q 3 → nanoBits (s.nanoWord q (microNano w)) 44 1 = 0 → Claims.Runs (.microLoop q seen expired status) s fun t =>
      let c := (tgetD (s.sq q).counters (a / 512) 0 + 65535) % 65536
      tget (t.sq q).counters (a / 512) = some c ∧ at_ t (if c = 0 then pc + 1 else pc + argSigned a 9)) ∧
    (Claims.MicroLegal s q 4 → s.farIllegal q a = false → Claims.Runs (.microFar q seen expired status) s fun t => at_ t (a * 2)) ∧
    (Claims.MicroLegal s q 5 → s.farIllegal q a = false → (s.sq q).stack.length < 4 →
      Claims.Runs (.microCall q seen expired status) s fun t => at_ t (a * 2) ∧ (t.sq q).stack = (pc + 1) :: (s.sq q).stack) ∧
    (∀ x rest, Claims.MicroLegal s q 6 → (s.sq q).stack = x :: rest → Claims.Runs (.microRet q seen expired status) s fun t =>
      at_ t x ∧ (t.sq q).stack = rest) ∧
    (∀ r, Claims.MicroLegal s q 7 → s.psqReach q = true → nanoBits (s.nanoWord q (microNano w)) 49 2 = 0 → s.microReq q = some r →
      s.epAbsent r.replyEp = false → Claims.Runs (.microEnd q seen expired status) s fun t => Claims.Replies t q r.tag (a % 256))


/-! ### Loupe, Assay and the parity engine -/

/-- R317, R325 to R330, R334, R346: a capture joins the slot whose turn it is; a decoded slot has its result word, and its learning
record goes to Assay. -/
def Claims.slots : Prop :=
  ∀ (s : State) (chan : ChanId) (bytes : List Byte) (q : Nat) (r : PsqReq) (w : SlotWork), s.seqOf chan = some q →
    (s.flag (fLPE_CTL_EN chan) = true → (s.sq q).training = 0 → s.claspState (psqClasp q) = clClosed → s.softWaiting chan < 4 →
      s.flt.armed = [] → s.transferring q = some r →
      s.nextTransfer chan r = some (w, false) → Claims.Runs (.slotCapture chan bytes) s fun t =>
        t.fld (fLPE_CNT0_SLOTS chan) = (s.fld (fLPE_CNT0_SLOTS chan) + 1) % 2 ^ 32 ∧
          ∃ r' ∈ (t.sq q).shadow, r'.tag = r.tag ∧ ∃ w' ∈ r'.slots, w'.slot = w.slot ∧
            w'.senses = w.senses ++ [s.capture chan (pageType r.slc r.ppa) bytes]) ∧
    ((s.sq q).shadow.find? (fun r => r.isRead && r.phase == 1 && (s.slotReady chan r).isSome) = some r → s.slotReady chan r = some w →
      (∃ x ∈ r.slots, x.slot ≠ w.slot ∧ x.result = none) → Claims.Runs (.slotDecodeDone chan false) s fun t =>
        (∃ r' ∈ (t.sq q).shadow, r'.tag = r.tag ∧ ∃ w' ∈ r'.slots, w'.slot = w.slot ∧ w'.result.isSome = true) ∧
          t.assay.input = s.assay.input ++
            (if (s.slotOutcome chan r w).frm ≠ 3 ∧ s.flag (fLPE_CTL_LEARN chan) = true then
              [s.learnRecord chan r w (s.slotOutcome chan r w)] else []))

/-- R344 to R346, R351, R353: a record met by a test is counted and changes no entry; one that is accepted updates its entry. -/
def Claims.records : Prop :=
  ∀ (s : State) (r : LearnRec) (rest : List LearnRec), s.assay.input = r :: rest →
    let ix := s.recordEntry r
    let e := s.asyEntry ix
    let ready := s.fld fASY_CTL_LEARN = 1 ∧ s.fld fASY_STAT_READY = 1
    (¬ ready → Claims.Runs (.asyRecord .clean) s fun t =>
      t.assay = { s.assay with input := rest } ∧ t.fld fASY_CNT2_NOTREADY = min (s.fld fASY_CNT2_NOTREADY + 1) 65535) ∧
    (ready → r.selector % 64 ≠ 0 → Claims.Runs (.asyRecord .clean) s fun t =>
      t.assay = { s.assay with input := rest, discarded := s.assay.discarded + 1 } ∧ t.fld fASY_CNT1_SELECT = min (s.fld fASY_CNT1_SELECT + 1) 65535) ∧
    let o := s.readOutcome 0 (tableAddr s ix) .clean .assay 116
    (ready → r.selector % 64 = 0 → o.2 = false → o.1.mem.poisoned (tableAddr s ix) = false →
      ((r.flags % 2 = 1 ∨ e.frozen = true) → Claims.Runs (.asyRecord .clean) s fun t =>
        t.assay = { s.assay with input := rest, discarded := s.assay.discarded + 1 } ∧ t.fld fASY_CNT1_FROZEN = min (s.fld fASY_CNT1_FROZEN + 1) 65535) ∧
      (r.flags % 64 = 0 → e.frozen = false →
        (∀ k ∈ s.recordLevels r, r.offsets.getD (k - 1) 0 = (s.appliedOf ix).getD (k - 1) 0) →
        Claims.Runs (.asyRecord .clean) s fun t =>
          let u := s.asyUpdate e r (s.recordLevels r)
          t.assay.input = rest ∧ t.assay.accepted = s.assay.accepted + 1 ∧ t.fld fASY_CNT0_ACCEPT = (s.fld fASY_CNT0_ACCEPT + 1) % 2 ^ 32 ∧ (t.asyEntry ix).learned = true ∧
            (t.asyEntry ix).n = min 65535 (e.n + 1) ∧ (t.asyEntry ix).o = u.o ∧ (t.asyEntry ix).os = u.os ∧
            (t.asyEntry ix).g = u.g ∧ (t.asyEntry ix).a = u.a ∧ (t.asyEntry ix).r = u.r ∧
            ∀ j, j ≠ ix → t.asyEntry j = s.asyEntry j))

/-- R348 to R350, R352: `LOAD` and `SNAP` begin, and end with the entries as the table holds them, or as the copy; `ACQ` clears every
`N`; freeze, thaw and reseed work on the selected entry, or on each of a die. -/
def Claims.assayCommands : Prop :=
  ∀ (s : State) (who : Endpoint) (allg : Bool),
    let ctl (b : Nat) : Word := setBits (setBits (s.reg rASY_CTL) 1 3 0) b 1 1
    let picked (ix : Nat) : Prop := ix / 64 = s.fld fASY_ESEL_DIE ∧ (allg = true ∨ ix % 64 = s.fld fASY_ESEL_GROUP)
    let entry (i : Instr) (op : Nat) (f : AsyEntry → AsyEntry) : Prop :=
      s.ctlStoreFault who.toNat rASY_ECMD (BitVec.ofNat 64 (op + 8 * b2n allg)) = none → Claims.RunsThenSettles i s fun t =>
        ∀ ix, (picked ix → t.asyEntry ix = f (s.asyEntry ix)) ∧ (¬ picked ix → t.asyEntry ix = s.asyEntry ix)
    (s.ctlStoreFault who.toNat rASY_CTL (ctl 1) = none → s.fld fASY_STAT_READY = 0 → s.fld fASY_STAT_BUSY = 0 →
      Claims.RunsThenSettles (.asyLoad who) s fun t => t.assay = { s.assay with work := 1 } ∧ t.fld fASY_STAT_BUSY = 1) ∧
    (s.assay.work = 1 ∨ s.assay.work = 3 → s.fw.lostDies = [] → s.fw.offlineAt = [] → Claims.Runs .asyLoadDone s fun t =>
      t.assay.work = 0 ∧ (s.assay.work = 3 → t.fld fASY_CTL_LEARN = 1) ∧ t.fld fASY_STAT_BUSY = 0 ∧ t.fld fASY_STAT_READY = 1 ∧
        ∀ ix, ix < 32768 → t.asyEntry ix = s.asyFromTable ix) ∧
    (s.ctlStoreFault who.toNat rASY_CTL (ctl 2) = none → s.fld fASY_STAT_BUSY = 0 → Claims.RunsThenSettles (.asySnap who) s fun t =>
      t.assay = { s.assay with work := 2 } ∧ t.fld fASY_STAT_BUSY = 1 ∧ t.fld fASY_STAT_SNAPOK = 0) ∧
    (s.assay.work = 2 → s.fld fASY_STAT_READY = 1 → Claims.Runs .asySnapDone s fun t =>
      t.assay = { s.assay with work := 0, saved := s.assay.entries, savedHours := s.hours } ∧ t.fld fASY_STAT_BUSY = 0 ∧
        t.fld fASY_STAT_SNAPOK = 1 ∧
        ∀ ix k, ix < 32768 → k < 4 → t.mem.read (copyAddr s ix + 8 * k) 8 = ((s.asyEntry ix).words.getD k 0#64).toNat) ∧
    (s.ctlStoreFault who.toNat rASY_CTL (ctl 3) = none → Claims.RunsThenSettles (.asyAcq who) s fun t =>
      ∀ ix, t.asyEntry ix = { s.asyEntry ix with n := 0 }) ∧
    entry (.asyFreeze who allg) 1 (fun e => { e with frozen := true }) ∧ entry (.asyThaw who allg) 2 (fun e => { e with frozen := false }) ∧
    entry (.asyReseed who allg) 3 (fun _ => AsyEntry.zero)

/-- R317, R325, R326, R327, R328, R329, R330, R334, R344, R345, R346, R348, R349, R350, R351, R352, R353: slots captured and
decoded, learning records and the commands of Assay. -/
def Obligations.SlotsAndAssay : Prop := Claims.slots ∧ Claims.records ∧ Claims.assayCommands

/-- The first message of the parity engine's mailbox 0 is a valid job of operation `op`, and there is room for it to run; no bead
that it reads is poisoned (R373, R402). -/
def Claims.ParityJob (s : State) (op : Nat) (m : Msg) (rest : List Msg) : Prop :=
  s.box 115 0 = m :: rest ∧ (parseParReq m).op = op ∧ s.fld fPAR_CTL_EN = 1 ∧ s.par.length < s.fld fPAR_CFG_SLOTS ∧
    s.parValid (parseParReq m) = true ∧ ∀ i ∈ (parseParReq m).reads, s.mem.spanPoisoned ((parseParReq m).at i) = false

/-- R370, R371, R373, R374: `ENC` writes P and Q of the data members; `REC1` and `REC2` rebuild the data members that P, or P and Q, were
made of; `CHECK` finds a consistent stripe to be so and counts what mismatches; the oldest job is answered; an invalid job is
answered with status 2. -/
def Obligations.ParityIsEncodedRebuiltAndChecked : Prop :=
  ∀ (s : State) (m : Msg) (rest : List Msg),
    let r := parseParReq m
    let P := r.k
    let Q := r.k + 1
    let span (t : State) (i : Nat) : List Word := t.mem.span (r.at i)
    let done (t : State) : Prop := t.par = s.par ++ [r.job 0] ∧ t.box 115 0 = rest
    (Claims.ParityJob s 1 m rest → r.at P ≠ r.at Q → Claims.Runs (.parEnc []) s fun t =>
      span t P = sumP (s.parData r []) ∧ span t Q = sumQ (s.parData r []) ∧ done t) ∧
    (∀ x : List Word, x.length = 520 → Claims.ParityJob s 2 m rest → r.a < r.k →
      (r.present P = true ∧ span s P = xorSpan x (sumP (s.parData r [r.a])) ∨
        r.present P = false ∧ span s Q = xorSpan (scaleSpan (gfPow r.a) x) (sumQ (s.parData r [r.a]))) →
      Claims.Runs (.parRec1 []) s fun t => span t r.a = x ∧ done t) ∧
    (∀ x y : List Word, x.length = 520 → y.length = 520 → Claims.ParityJob s 3 m rest → r.b < r.k → r.at r.a ≠ r.at r.b →
      span s P = xorSpan (xorSpan x y) (sumP (s.parData r [r.a, r.b])) →
      span s Q = xorSpan (xorSpan (scaleSpan (gfPow r.a) x) (scaleSpan (gfPow r.b) y)) (sumQ (s.parData r [r.a, r.b])) →
      Claims.Runs (.parRec2 []) s fun t => span t r.a = x ∧ span t r.b = y ∧ done t) ∧
    (Claims.ParityJob s 4 m rest → span s P = sumP (s.parData r []) → span s Q = sumQ (s.parData r []) →
      Claims.Runs (.parCheck []) s fun t => t.mem = s.mem ∧ t.par = s.par ++ [{ r.job 0 with located := 0xFF }]) ∧
    (Claims.ParityJob s 4 m rest → s.parMismatches r ≠ [] → s.fld fPAR_CTL_CHKSTOP = 0 → Claims.Runs (.parCheck []) s fun t =>
      t.mem = s.mem ∧ ∃ j, t.par = s.par ++ [j] ∧ j.status = 1 ∧ j.offsets = (s.parMismatches r).length) ∧
    (s.box 115 0 = m :: rest → s.fld fPAR_CTL_EN = 1 → s.par.length < s.fld fPAR_CFG_SLOTS → s.parValid r = false →
      s.epAbsent r.ep = false →
      ∀ x ∈ [(Instr.parEnc [], 1), (.parRec1 [], 2), (.parRec2 [], 3), (.parCheck [], 4)], r.op = x.2 →
        Claims.Runs x.1 s fun t => t.box 115 0 = rest ∧ t.mem = s.mem ∧ t.par = s.par ∧ ∃ y, t.net = s.net ++ [y] ∧ y.src = 115 ∧
          y.dst = r.ep ∧ y.sub = 0x171 ∧ pGet y.payload 1 1 = 2 ∧ pGet y.payload 8 4 = r.tag) ∧
    ∀ j l, s.par = j :: l → s.epAbsent j.replyEp = false → Claims.Runs .parJobDone s fun t =>
      t.par = l ∧ ∃ y, t.net = s.net ++ [y] ∧ y.src = 115 ∧ y.dst = j.replyEp ∧ y.mbx = j.replyMbx ∧ y.sub = 0x171 ∧
        pGet y.payload 1 1 = j.status % 256


/-! ### Signet -/

/-- The oldest request of `src` at Signet asks for `service` with payload `p`; Signet is not in its error state, and the sender is
there to be answered (R449, R470). -/
def Claims.Asked (s : State) (src service : Nat) (p : BitVec 512) : Prop :=
  (∃ m rest, takeFirst (fun (m : Msg) => decide (m.src = src) && decide (m.sub = 0x1A0)) (s.box 112 0) = some (m, rest) ∧
    m.payload = p) ∧ pGet p 0 1 = service ∧ s.fld fSIG_STAT_ERR = 0 ∧ s.epAbsent src = false

/-- Signet has answered `src`: mailbox 15, sub-operation 0x003, with the service, the status and the request's tag, and the request is
gone from its mailbox. -/
def Claims.Served (s t : State) (src service status : Nat) (p : BitVec 512) : Prop :=
  (∃ m ∈ t.net, m.src = 112 ∧ m.dst = src ∧ m.mbx = 15 ∧ m.sub = 0x003 ∧ pGet m.payload 0 1 = service ∧ pGet m.payload 1 1 = status ∧
    pGet m.payload 4 4 = pGet p 4 4) ∧ (t.box 112 0).length + 1 = (s.box 112 0).length

/-- Every media key is replaced: a key made before is no longer the range's (R460, R471, R473). -/
def Claims.KeysReplaced (s t : State) : Prop := ∀ r, r < 320 → tgetD t.sig.gens r 0 = tgetD s.sig.gens r 0 + 1

/-- R41, R449, R457, R469, R470, R473, R477: what each service does. -/
def Claims.services : Prop :=
  ∀ (s : State) (src : Endpoint) (p : BitVec 512) (failed : BitVec 8) (ats : List StripeAt),
    let a := src.toNat
    (Claims.Asked s a 1 p → Claims.Runs (.svcRandom src) s fun t => Claims.Served s t a 1 0 p) ∧
    (Claims.Asked s a 2 p → Claims.Runs (.svcSecsend src) s fun t =>
      Claims.Served s t a 2 (if pGet p 10 1 ∈ [0x00, 0x01, 0x02, 0xE8, 0xF0] then 0 else 2) p) ∧
    (Claims.Asked s a 3 p → pGet p 10 1 = 0 → Claims.Runs (.svcSecrecv src) s fun t =>
      Claims.Served s t a 3 0 p ∧ ∃ m ∈ t.net, m.src = 112 ∧ m.dst = a ∧ pGet m.payload 8 4 = min 13 (pGet p 12 4)) ∧
    (Claims.Asked s a 4 p → Claims.Runs (.svcMgmt src) s fun t => Claims.Served s t a 4 0 p) ∧
    (Claims.Asked s a 5 p → pGet p 8 1 = 1 → Claims.Runs (.svcNskey src) s fun t =>
      let k := pGet p 9 1
      Claims.Served s t a 5 0 p ∧ tgetD t.sig.gens k 0 = tgetD s.sig.gens k 0 + 1 ∧ sHas t.sig.loaded k = true ∧
        ∃ r, tget t.sig.ranges k = some r ∧ r.valid = true ∧ r.nsx = k ∧ r.readEnabled = false ∧ r.writeEnabled = false) ∧
    (Claims.Asked s a 5 p → pGet p 8 1 ∉ [1, 2, 3] → Claims.Runs (.svcNskey src) s fun t =>
      Claims.Served s t a 5 2 p ∧ t.sig = s.sig) ∧
    (Claims.Asked s a 6 p → s.sig.sanState = 1 → s.fld fARC_MODE_CUR = 6 → s.sig.sanKeysDone = false →
      Claims.Runs (.svcSanstep src true [] ats) s fun t =>
        Claims.Served s t a 6 0 p ∧ t.sig.sanKeysDone = true ∧ Claims.KeysReplaced s t ∧ t.readLocks = s.readLocks ∧
          t.writeLocks = s.writeLocks) ∧
    (Claims.Asked s a 6 p → s.sig.sanState ≠ 1 → Claims.Runs (.svcSanstep src true [] ats) s fun t =>
      Claims.Served s t a 6 1 p ∧ t.sig = s.sig) ∧
    (Claims.Asked s a 7 p → pGet p 8 1 < 54 → Claims.Runs (.svcReload src) s fun t =>
      Claims.Served s t a 7 0 p ∧ sHas t.sig.reload (pGet p 8 1) = true) ∧
    (Claims.Asked s a 8 p → s.keyInUse = true → Claims.Runs (.svcSelftest src failed) s fun t =>
      Claims.Served s t a 8 1 p ∧ t.fld fSIG_STAT_ERR = 0) ∧
    (Claims.Asked s a 8 p → s.keyInUse = false → failed = 0#8 → Claims.Runs (.svcSelftest src failed) s fun t =>
      Claims.Served s t a 8 0 p ∧ t.fld fSIG_STAT_ERR = 0) ∧
    (Claims.Asked s a 8 p → s.keyInUse = false → failed ≠ 0#8 → Claims.Runs (.svcSelftest src failed) s fun t =>
      Claims.Served s t a 8 4 p ∧ t.fld fSIG_STAT_ERR = 1 ∧ t.fld fSIG_STAT_STFAIL = failed.toNat ∧ t.sig.loaded = []) ∧
    (Claims.Asked s a 9 p → s.fld fARC_MODE_CUR = 1 → s.sig.readyGiven = false → isHealth (pGet p 8 1) = true → s.sig.sanState ≠ 1 →
      s.ns = [] → Claims.Runs (.svcReady src) s fun t =>
        Claims.Served s t a 9 0 p ∧ t.sig.readyGiven = true ∧ t.fld fARC_MODE_CUR = pGet p 8 1 ∧ t.fld fARC_MODE_HEALTH = pGet p 8 1 ∧
          t.fld fARC_MODE_CAUSE = 1) ∧
    (s.fld fSIG_STAT_ERR = 0 → Claims.Runs .entropyHealthFail s fun t =>
      t.fld fSIG_STAT_ERR = 1 ∧ t.fld fSIG_STAT_STFAIL = 6 ∧ t.sig.loaded = [] ∧ t.fld fFLT_STAT_FATAL = 1)

/-- Opal has answered with a status (R457; its code is the model's choice, log entry 74). -/
def Claims.OpalSays (s t : State) (st : Nat) : Prop := t.sig.outbox = s.sig.outbox ++ [(0x01, [BitVec.ofNat 8 st])]

/-- R455 to R460, R471: a session opens with a right PIN, and a wrong one counts; what the methods of a session do; a session that ends,
or times out, leaves nothing of an uncommitted transaction. -/
def Claims.opal : Prop :=
  ∀ (s : State) (auth : BitVec 7) (pin : BitVec 256) (write : Bool) (o : OpalSession) (r : BitVec 9) (rl wl : Bool),
    let a := auth.toNat
    let x := s.auth a
    s.fld fSIG_STAT_ERR = 0 →
    (s.sig.opal = none → a ≤ 70 → (a < 2 ∨ s.sig.locking = true) → x.barred = false → x.enabled = true → s.sidBlocked a = false →
      (Config.pinDigest a pin = x.pin → Claims.Runs (.opalStartSession auth pin write) s fun t =>
        Claims.OpalSays s t 0 ∧ (t.auth a).tries = 0 ∧ t.fld fSIG_SESS_OPAL = 1 ∧
          ∃ o, t.sig.opal = some o ∧ o.authority = a ∧ o.writable = write ∧ o.inTx = false) ∧
      (Config.pinDigest a pin ≠ x.pin → Claims.Runs (.opalStartSession auth pin write) s fun t =>
        Claims.OpalSays s t 1 ∧ (t.auth a).tries = min 255 (x.tries + 1) ∧ t.sig.opal = none)) ∧
    (Claims.Runs (.opalMethod .blockSid) s fun t => Claims.OpalSays s t 0 ∧ t.sig.blockSid = true) ∧
    (∀ m, s.sig.opal = none → m ≠ OpalMethod.blockSid → Claims.Runs (.opalMethod m) s fun t =>
      t = { s with sig := { s.sig with outbox := s.sig.outbox ++ [(0x01, [1#8])] } }) ∧
    (s.sig.opal = some o → isAdmin o.authority = true → o.writable = true →
      (∀ y, r.toNat < 320 → s.range r.toNat = some y → y.readEnabled = true → y.writeEnabled = true →
        Claims.Runs (.opalMethod (.setLocks r (some rl) (some wl))) s fun t =>
          Claims.OpalSays s t 0 ∧ t.readLocked r.toNat = rl ∧ t.writeLocked r.toNat = wl ∧
            ((rl || wl) = false → sHas t.sig.loaded r.toNat = true)) ∧
      (∀ y, s.range r.toNat = some y → o.inTx = false → Claims.Runs (.opalMethod (.genKey r)) s fun t =>
        Claims.OpalSays s t 0 ∧ tgetD t.sig.gens r.toNat 0 = tgetD s.sig.gens r.toNat 0 + 1)) ∧
    (s.sig.opal = some o → o.authority = a → o.writable = true → Claims.Runs (.opalMethod (.setPin auth pin)) s fun t =>
      Claims.OpalSays s t 0 ∧ (t.auth a).pin = Config.pinDigest a pin) ∧
    (s.sig.opal = some o → o.inTx = false → Claims.Runs (.opalMethod .startTransaction) s fun t =>
      Claims.OpalSays s t 0 ∧ ∃ o', t.sig.opal = some o' ∧ o'.inTx = true ∧ o'.savedRanges = s.sig.ranges ∧
        o'.savedAuth = s.sig.auths ∧ o'.savedData = s.sig.dataStore) ∧
    (s.sig.opal = some o → o.inTx = true →
      (Claims.Runs (.opalMethod (.endTransaction false)) s fun t =>
        Claims.OpalSays s t 0 ∧ t.sig.ranges = o.savedRanges ∧ t.sig.auths = o.savedAuth ∧ t.sig.dataStore = o.savedData ∧
          ∃ o', t.sig.opal = some o' ∧ o'.inTx = false) ∧
      Claims.Runs .opalSessionTimeout s fun t => t.sig.ranges = o.savedRanges ∧ t.sig.auths = o.savedAuth ∧ t.sig.opal = none) ∧
    (s.sig.opal = some o → Claims.Runs (.opalMethod .endSession) s fun t =>
      Claims.OpalSays s t 0 ∧ t.sig.opal = none ∧ t.fld fSIG_SESS_OPAL = 0) ∧
    (s.sig.opal = some o → o.authority = 1 → Claims.Runs (.opalMethod .psidRevert) s fun t =>
      Claims.OpalSays s t 0 ∧ Claims.KeysReplaced s t ∧ t.sig.opal = none ∧ t.sig.locking = false ∧ t.sig.auths = []) ∧
    (Claims.Runs .opalSessionTimeout s fun t => t.sig.opal = none ∧ t.fld fSIG_SESS_OPAL = 0)

/-- R41, R449, R455, R456, R457, R458, R459, R460, R469, R470, R471, R473, R477: signet's services and the Opal session. -/
def Obligations.SignetServesAndOpal : Prop := Claims.services ∧ Claims.opal

/-- A message reaches Signet: over a bus that serves it, or through the firmware, which ROM Recovery does not run (R462, R536, R539). -/
def Claims.Reaches (s : State) : Carrier → Prop
  | .bus => s.fld fPWR_STAT_STATE ∉ [2, 3, 4]
  | .host => s.fld fARC_MODE_CUR ≠ 0

/-- The answer of a keyed session, by the way the message came. -/
def Claims.KsSays (s t : State) (code : Nat) (body : List Byte) : Carrier → Prop
  | .bus => t.mgmt.out = s.mgmt.out ++ [BusEvent.vendor code body]
  | .host => t.sig.outbox = s.sig.outbox ++ [(0xF0, BitVec.ofNat 8 code :: body)]

/-- R463, R464, R466, R470: a session opens for a key that is not barred, with a fresh challenge, while none is
open (an exchange not yet proved gives way, log entry 174); a right proof gives the privileges that
key and request share; a wrong one ends the attempt and counts against the key. -/
def Claims.keyedOpening : Prop :=
  ∀ (s : State) (via : Carrier) (id : BitVec 3) (privs : BitVec 5) (nr : BitVec 256) (proof : BitVec 384) (k : KSession) (key : KsKey),
    Claims.Reaches s via → s.fld fSIG_STAT_ERR = 0 →
    ((∀ j, s.sig.ks = some j → j.proved = false) → tget s.sig.keys id.toNat = some key → key.barredUntil ≤ s.now → Claims.Runs (.ksOpen via id privs nr) s fun t =>
      ∃ nd : BitVec 256, t.sig.ks = some ⟨id.toNat, privs.toNat, nr, nd, 0, false, 0, 0, s.now⟩ ∧
        Claims.KsSays s t 0x81 (bytesOf nd.toNat 32 ++ s.identity) via) ∧
    (s.sig.ks = some k → k.proved = true → Claims.Runs (.ksOpen via id privs nr) s fun t =>
      t.sig.ks = s.sig.ks ∧ Claims.KsSays s t 0xFF [2#8] via) ∧
    (s.sig.ks = some k → tget s.sig.keys k.keyId = some key → k.proved = false →
      (∀ g, proof = Config.hmac384 (bytesOf key.key.toNat 32) (s.proofText k) → (k.requested &&& key.mask).testBit 2 = false →
        (k.requested &&& key.mask).testBit 4 = false →
        g = (k.requested &&& key.mask) % 4 + (k.requested &&& key.mask) / 8 % 2 * 8 →
        Claims.Runs (.ksProve via proof) s fun t =>
          t.sig.ks = some { k with granted := g, proved := true, lastAt := s.now } ∧ t.fld fSIG_SESS_KS = 1 ∧
            tget t.sig.keys k.keyId = some { key with fails := 0, barredUntil := 0 } ∧
            Claims.KsSays s t 0x82 (bytesOf g 1 ++ bytesOf 300 4) via) ∧
      (proof ≠ Config.hmac384 (bytesOf key.key.toNat 32) (s.proofText k) → Claims.Runs (.ksProve via proof) s fun t =>
        t.sig.ks = none ∧ t.fld fSIG_SESS_FAILS = min (s.fld fSIG_SESS_FAILS + 1) 65535 ∧ Claims.KsSays s t 0xFF [5#8] via ∧
          ∃ key', tget t.sig.keys k.keyId = some key' ∧ key'.fails = key.fails + 1 ∧
            (key.fails + 1 = 5 → key'.barredUntil = s.now + 60000000000)))

/-- The session is open and proved, the message is its next one, with a good MAC, and the privilege it needs is granted. -/
def Claims.KsMessage (s : State) (via : Carrier) (seq : BitVec 32) (k : KSession) (priv : Option Nat) : Prop :=
  Claims.Reaches s via ∧ s.fld fSIG_STAT_ERR = 0 ∧ s.sig.ks = some k ∧ k.proved = true ∧ seq.toNat = k.inSeq + 1 ∧
    ∀ b, priv = some b → k.granted.testBit b = true

/-- The session has answered with success, its next number and these bytes. -/
def Claims.KsDone (s t : State) (via : Carrier) (k : KSession) (body : List Byte) : Prop :=
  Claims.KsSays s t 0x83 (bytesOf (k.outSeq + 1) 4 ++ body) via

/-- R464, R465, R471, R472, R489: what the messages of a session do; one with a bad MAC ends it. -/
def Claims.keyedMessages : Prop :=
  ∀ (s : State) (via : Carrier) (seq : BitVec 32) (k : KSession) (id : BitVec 3) (v : BitVec 256) (mask : BitVec 5) (it : BitVec 32)
    (pub : BitVec 384) (on rae ok : Bool) (setting : BitVec 512) (lid lsp : BitVec 8) (off len : BitVec 32),
    let u : State := { s with sig := { s.sig with ks := some { k with inSeq := seq.toNat, outSeq := k.outSeq + 1, lastAt := s.now } } }
    (Claims.KsMessage s via seq k none → Claims.Runs (.ksClose via seq true) s fun t =>
      t.sig.ks = none ∧ t.fld fSIG_SESS_KS = 0 ∧ Claims.KsDone s t via k []) ∧
    (∀ i ∈ [Instr.ksClose via seq false, .ksLogRead via seq false lid lsp rae off len, .ksDrain via seq false, .ksRelease via seq false,
      .ksInject via seq false setting, .ksRevoke via seq false id, .ksApprovedMode via seq false on, .ksZeroise via seq false,
      .ksPsidRead via seq false], Claims.KsMessage s via seq k none → Claims.Runs i s fun t =>
        t.sig.ks = none ∧ Claims.KsSays s t 0xFF [1#8] via) ∧
    (∀ i ∈ [Instr.ksIdleTimeout, .ksLifetimeExpiry], s.sig.ks = some k → Claims.Runs i s fun t =>
      t.sig.ks = none ∧ t.fld fSIG_SESS_KS = 0 ∧ t.fld fSIG_SESS_PRIV = 0) ∧
    (∀ w l, Claims.KsMessage s via seq k (some 0) → 0xC0 ≤ lid.toNat →
      u.readPage true lid.toNat lsp.toNat rae off.toNat len.toNat = some (w, l) →
      Claims.Runs (.ksLogRead via seq true lid lsp rae off len) s fun t => Claims.KsDone s t via k l) ∧
    (Claims.KsMessage s via seq k (some 1) → Claims.Healthy s → Claims.Runs (.ksDrain via seq true) s fun t =>
      t.fld fARC_MODE_CUR = 7 ∧ t.fld fARC_MODE_CAUSE = 0xC ∧ t.hqe.drained = true ∧ Claims.KsDone s t via k []) ∧
    (Claims.KsMessage s via seq k (some 1) → s.fld fARC_MODE_CUR = 7 → s.boot.act = none → Claims.Runs (.ksRelease via seq true) s fun t =>
      t.fld fARC_MODE_CUR = s.fld fARC_MODE_HEALTH ∧ Claims.KsDone s t via k []) ∧
    (Claims.KsMessage s via seq k (some 2) → s.fld fARC_MODE_CUR = 0xA → s.epAbsent (s.fld fSIG_NOTE_DST) = false →
      Claims.Runs (.ksInject via seq true setting) s fun t =>
        (∃ m ∈ t.net, m.src = 112 ∧ m.dst = s.fld fSIG_NOTE_DST ∧ m.sub = 0x1A2 ∧ m.payload = setting) ∧ Claims.KsDone s t via k []) ∧
    (Claims.KsMessage s via seq k (some 3) →
      (2 ≤ id.toNat → mask.toNat < 16 → mask.toNat &&& k.granted = mask.toNat →
        Claims.Runs (.ksEnrol via seq true (.key id v mask it)) s fun t =>
          tget t.sig.keys id.toNat = some ⟨v, mask.toNat, it.toNat, 0, 0⟩ ∧ Claims.KsDone s t via k []) ∧
      ((s.sig.imageKey = none ∨ ok = true) → Claims.Runs (.ksEnrol via seq true (.image pub ok)) s fun t =>
        t.sig.imageKey = some pub ∧ t.sig.imageKeyOld = s.sig.imageKey ∧ Claims.KsDone s t via k []) ∧
      (2 ≤ id.toNat → id.toNat ≠ k.keyId → (tget s.sig.keys id.toNat).isSome = true → Claims.Runs (.ksRevoke via seq true id) s fun t =>
        tget t.sig.keys id.toNat = none ∧ Claims.KsDone s t via k []) ∧
      (s.sig.approved ≠ on → Claims.Runs (.ksApprovedMode via seq true on) s fun t =>
        t.sig.approved = on ∧ t.fld fSIG_STAT_APPROVED = b2n on ∧ Claims.KeysReplaced s t ∧ (∀ j, 2 ≤ j → tget t.sig.keys j = none) ∧
          Claims.KsDone s t via k []) ∧
      (s.sig.approved = on → Claims.Runs (.ksApprovedMode via seq true on) s fun t =>
        Claims.KsDone s t via k [] ∧ t.sig.gens = s.sig.gens) ∧
      Claims.Runs (.ksZeroise via seq true) s fun t =>
        Claims.KeysReplaced s t ∧ (∀ j, 2 ≤ j → tget t.sig.keys j = none) ∧ t.sig.opal = none ∧ t.sig.auths = [] ∧
          Claims.KsDone s t via k []) ∧
    (Claims.KsMessage s via seq k (some 4) → Claims.Runs (.ksPsidRead via seq true) s fun t => Claims.KsDone s t via k Config.psid)

/-- R463, R464, R465, R466, R470, R471, R472, R489: keyed sessions open, are proved and serve their messages. -/
def Obligations.KeyedSessions : Prop := Claims.keyedOpening ∧ Claims.keyedMessages

/-- The SPDM responder serves a request: it reaches Signet outside ROM Recovery, with no error state (R467, R470, R559). -/
def Claims.SpdmServes (s : State) (via : Carrier) : Prop :=
  Claims.Reaches s via ∧ s.fld fARC_MODE_CUR ≠ 0 ∧ s.fld fSIG_STAT_ERR = 0

def Claims.SpdmSays (s t : State) (code : Nat) (body : List Byte) : Carrier → Prop
  | .bus => t.mgmt.out = s.mgmt.out ++ [BusEvent.spdm code body]
  | .host => t.sig.outbox = s.sig.outbox ++ [(0xE8, BitVec.ofNat 8 code :: body)]

/-- R467, R468: the SPDM requests. Their codes and layouts are the model's choice (log entry 74). -/
def Obligations.SpdmResponds : Prop :=
  ∀ (s : State) (via : Carrier) (asym hash : BitVec 32) (slot : BitVec 2) (off len : BitVec 16) (nonce : BitVec 256) (c : List Byte)
    (k : KSession), Claims.SpdmServes s via →
    let sp := s.sig.spdm
    (Claims.Runs (.spdmGetVersion via) s fun t =>
      t.sig.spdm = ⟨true, false, false, sp.chains⟩ ∧ Claims.SpdmSays s t 0x04 [0#8, 1#8, 0#8, 0x12#8] via) ∧
    (sp.version = true → Claims.Runs (.spdmGetCapabilities via 0x12#8) s fun t =>
      t.sig.spdm = ⟨true, true, false, sp.chains⟩ ∧ Claims.SpdmSays s t 0x61 (bytesOf 16 1 ++ bytesOf 0x16 4) via) ∧
    (sp.capabilities = true → asym.getLsbD 7 = true → hash.getLsbD 1 = true →
      Claims.Runs (.spdmNegotiateAlgorithms via asym hash) s fun t =>
        t.sig.spdm = ⟨true, true, true, sp.chains⟩ ∧
          Claims.SpdmSays s t 0x63 (bytesOf 1 1 ++ bytesOf 0x04 4 ++ bytesOf 0x80 4 ++ bytesOf 0x02 4) via) ∧
    (sp.algorithms = false → ∀ i ∈ [Instr.spdmGetDigests via, .spdmGetCertificate via slot off len, .spdmChallenge via slot nonce 0#8,
      .spdmGetMeasurements via 1#8 true nonce, .spdmSetCertificate via slot c true], Claims.Runs i s fun t =>
        Claims.SpdmSays s t 0x7F [4#8] via ∧ t.sig.spdm = sp) ∧
    (sp.algorithms = true →
      (Claims.Runs (.spdmGetDigests via) s fun t => ∃ body, Claims.SpdmSays s t 0x01 body via ∧
        body.head? = some (BitVec.ofNat 8 (1 + 2 * b2n (s.spdmChain 1).isSome + 4 * b2n (s.spdmChain 2).isSome +
          8 * b2n (s.spdmChain 3).isSome))) ∧
      (s.spdmChain slot.toNat = some c → off.toNat ≤ c.length → Claims.Runs (.spdmGetCertificate via slot off len) s fun t =>
        let part := (c.drop off.toNat).take len.toNat
        Claims.SpdmSays s t 0x02 (bytesOf part.length 2 ++ bytesOf (c.length - off.toNat - part.length) 2 ++ part) via) ∧
      (s.spdmChain slot.toNat = some c → Claims.Runs (.spdmChallenge via slot nonce 0#8) s fun t => ∃ own : List Byte,
        own.length = 32 ∧
          let l := digestBytes (Config.sha384 c) ++ own ++ [0#8, 0#8]
          Claims.SpdmSays s t 0x03 (l ++ beBytes 96 (Config.identitySign (bytesOf nonce.toNat 32 ++ l)).toNat) via) ∧
      (Claims.Runs (.spdmGetMeasurements via 0#8 false nonce) s fun t =>
        Claims.SpdmSays s t 0x60 (bytesOf 9 1 ++ bytesOf 0 1 ++ bytesOf 0 3) via) ∧
      (Claims.Runs (.spdmGetMeasurements via 1#8 false nonce) s fun t =>
        Claims.SpdmSays s t 0x60 (bytesOf 0 1 ++ bytesOf 1 1 ++ bytesOf 55 3 ++ measureBlock (1, Config.romDigest)) via) ∧
      (slot ≠ 0#2 → s.sig.ks = some k → k.proved = true → k.granted.testBit 3 = true → Claims.Runs (.spdmSetCertificate via slot c true) s fun t =>
        t.sig.spdm.chains = tput sp.chains slot.toNat c ∧ Claims.SpdmSays s t 0x6E [BitVec.ofNat 8 slot.toNat] via) ∧
      (s.sig.ks = none → Claims.Runs (.spdmSetCertificate via slot c true) s fun t =>
        t.sig.spdm = sp ∧ Claims.SpdmSays s t 0x7F [1#8] via))


/-! ### The management bus -/

def Claims.BusSays (s t : State) (e : BusEvent) : Prop := t.mgmt.out = s.mgmt.out ++ [e]

/-- R536, R559: the control commands of the management endpoint, which a device that sleeps or wakes does not acknowledge. -/
def Claims.mctp : Prop :=
  ∀ (s : State) (op : BitVec 2) (eid type selector : BitVec 8),
    (s.fld fPWR_STAT_STATE = 2 ∨ s.fld fPWR_STAT_STATE = 3 → ∀ i ∈ [Instr.mctpSetEndpointId op eid, .mctpGetEndpointId,
      .mctpGetVersionSupport type, .mctpGetMessageTypeSupport, .mctpGetVendorMessageSupport selector],
      Claims.Runs i s fun t => t = { s with mgmt := { s.mgmt with out := s.mgmt.out ++ [BusEvent.nack] } }) ∧
    (s.fld fPWR_STAT_STATE ∉ [2, 3, 4] →
      (op.toNat < 2 → eid ≠ 0#8 → eid ≠ 0xFF#8 → Claims.Runs (.mctpSetEndpointId op eid) s fun t =>
        t.mgmt.eid = eid.toNat ∧ Claims.BusSays s t (.control 1 0 [0#8, eid, 0#8])) ∧
      (2 ≤ op.toNat → Claims.Runs (.mctpSetEndpointId op eid) s fun t =>
        t.mgmt.eid = s.mgmt.eid ∧ Claims.BusSays s t (.control 1 2 [])) ∧
      (Claims.Runs .mctpGetEndpointId s fun t => Claims.BusSays s t (.control 2 0 [BitVec.ofNat 8 s.mgmt.eid, 0#8, 0#8])) ∧
      (Claims.Runs (.mctpGetVersionSupport 0#8) s fun t => Claims.BusSays s t (.control 4 0 [1#8, 0xF1#8, 0xF3#8, 0xFF#8, 0#8])) ∧
      (type ∉ [0x00#8, 0x04#8, 0x05#8, 0x7E#8, 0xFF#8] → Claims.Runs (.mctpGetVersionSupport type) s fun t =>
        Claims.BusSays s t (.control 4 0x80 [])) ∧
      (Claims.Runs .mctpGetMessageTypeSupport s fun t => Claims.BusSays s t (.control 5 0 [4#8, 0x00#8, 0x04#8, 0x05#8, 0x7E#8])) ∧
      (Claims.Runs (.mctpGetVendorMessageSupport 0#8) s fun t =>
        Claims.BusSays s t (.control 6 0 ([0xFF#8, 0#8] ++ beBytes 2 Config.vendorId.toNat ++ [0#8, 0#8]))) ∧
      (selector ≠ 0#8 → Claims.Runs (.mctpGetVendorMessageSupport selector) s fun t => Claims.BusSays s t (.control 6 2 [])))

/-- R558 to R560: the NVMe-MI commands on the bus; in ROM Recovery each is answered with Internal Error. -/
def Claims.nvmeMi : Prop :=
  ∀ (s : State) (n0 n1 : BitVec 32) (cmd : NvmeCmd) (op : BitVec 8) (tunnelled : Bool), s.fld fPWR_STAT_STATE ∉ [2, 3, 4] →
    (s.fld fARC_MODE_CUR = 0 → ∀ x ∈ [(Instr.miReadDataStructure n0, 0), (.miSubsystemHealthPoll, 1), (.miControllerHealthPoll n0, 2),
      (.miConfigurationGet n0, 4), (.miConfigurationSet n0 n1, 3), (.miTunnelledAdmin cmd, 256 + cmdOp cmd)],
      Claims.Runs x.1 s fun t => Claims.BusSays s t (.mi x.2 2 [0#8, 0#8, 0#8])) ∧
    (s.fld fARC_MODE_CUR ≠ 0 →
      (n0.toNat / 2 ^ 24 = 0 → Claims.Runs (.miReadDataStructure n0) s fun t =>
        Claims.BusSays s t (.mi 0 0 (bytesOf 32 3 ++ padTo 32 [1#8, 1#8, 2#8]))) ∧
      (5 ≤ n0.toNat / 2 ^ 24 → Claims.Runs (.miReadDataStructure n0) s fun t => Claims.BusSays s t (.mi 0 4 [0#8, 0#8, 0#8])) ∧
      (Claims.Runs .miSubsystemHealthPoll s fun t => ∃ l : List Byte, Claims.BusSays s t (.mi 1 0 ([0#8, 0#8, 0#8] ++ l)) ∧ l.length = 8 ∧
        l.getD 1 0#8 = BitVec.ofNat 8 (255 - s.criticalWarning) ∧ l.getD 3 0#8 = BitVec.ofNat 8 s.percentageUsed) ∧
      (n0.toNat % 65536 ≤ 1 → Claims.Runs (.miControllerHealthPoll n0) s fun t => ∃ l : List Byte,
        Claims.BusSays s t (.mi 2 0 ([0#8, 0#8, 1#8] ++ l)) ∧ l.length = 16 ∧ l.getD 0 0#8 = 1#8 ∧
          l.getD 8 0#8 = BitVec.ofNat 8 s.criticalWarning) ∧
      (n0.toNat % 256 = 1 → Claims.Runs (.miConfigurationGet n0) s fun t => Claims.BusSays s t (.mi 4 0 (bytesOf s.mgmt.freq 3))) ∧
      (n0.toNat % 256 = 3 → Claims.Runs (.miConfigurationGet n0) s fun t => Claims.BusSays s t (.mi 4 0 (bytesOf s.mgmt.unit 3))) ∧
      (n0.toNat % 256 = 1 → 1 ≤ n0.toNat / 256 % 16 → n0.toNat / 256 % 16 ≤ 3 → Claims.Runs (.miConfigurationSet n0 n1) s fun t =>
        t.mgmt.freq = n0.toNat / 256 % 16 ∧ Claims.BusSays s t (.mi 3 0 [0#8, 0#8, 0#8])) ∧
      (n0.toNat % 256 = 3 → n1.toNat % 65536 ≠ 64 → Claims.Runs (.miConfigurationSet n0 n1) s fun t =>
        t.mgmt.unit = s.mgmt.unit ∧ Claims.BusSays s t (.mi 3 4 [0#8, 0#8, 0#8])) ∧
      (∀ l dw0, cmdOp cmd = 0x0A → s.featureAnswer cmd = .ok (l, dw0) → Claims.Runs (.miTunnelledAdmin cmd) s fun t =>
        Claims.BusSays s t (.mi (256 + 0x0A) 0 ([0#8, 0#8, 0#8] ++ (bytesOf dw0 4 ++ zeros 4 ++ bytesOf 0 4 ++ l)))) ∧
      (cmdOp cmd ∉ [0x02, 0x06, 0x0A] → Claims.Runs (.miTunnelledAdmin cmd) s fun t =>
        Claims.BusSays s t (.mi (256 + cmdOp cmd) 3 [0#8, 0#8, 0#8])) ∧
      (miAccepted op.toNat tunnelled = false → Claims.Runs (.nvmeMiInvalidOpcode op tunnelled) s fun t =>
        Claims.BusSays s t (.mi (op.toNat + 256 * b2n tunnelled) 3 [0#8, 0#8, 0#8])))

/-- R126, R560: NVMe-MI in band. -/
def Claims.nvmeMiInBand : Prop :=
  ∀ (s : State) (slot : SlotId) (e : Slot),
    let k := slot.toNat
    (Claims.AdminCommand s k 0x1D e → e.cmd.dw10.toNat % 256 = 3 → e.cmd.dw11.toNat % 256 = 1 → 1 ≤ e.cmd.dw11.toNat / 256 % 16 →
      e.cmd.dw11.toNat / 256 % 16 ≤ 3 → Claims.Runs (.nvmeMiSend slot) s fun t =>
        Claims.Posts s t k 0 0 0 ∧ t.mgmt.freq = e.cmd.dw11.toNat / 256 % 16) ∧
    (Claims.AdminCommand s k 0x1D e → e.cmd.dw10.toNat % 256 ≠ 3 → Claims.Runs (.nvmeMiSend slot) s fun t =>
      Claims.Posts s t k 0 3 0 ∧ t.mgmt = s.mgmt) ∧
    (Claims.AdminCommand s k 0x1E e → e.cmd.dw10.toNat % 256 = 4 → e.cmd.dw11.toNat % 256 = 1 → Claims.Runs (.nvmeMiReceive slot) s fun t =>
      Claims.Posts s t k 0 (s.mgmt.freq * 256) 0) ∧
    (Claims.AdminCommand s k 0x1E e → e.cmd.dw10.toNat % 256 = 1 → s.decideBeads (s.fld fHQE_GRANT_ACLASS) 1 = .grant →
      Claims.Runs (.nvmeMiReceive slot) s fun t => Claims.Returns t k 1)

/-- R126, R536, R558, R559, R560: mCTP control, NVMe-MI on the bus and NVMe-MI in band. -/
def Obligations.ManagementIsServed : Prop := Claims.mctp ∧ Claims.nvmeMi ∧ Claims.nvmeMiInBand

/-! ### Reset and the invariant -/

/-- The single registers whose reset value the register tables of spec/ give as other than zero: offset from 0x04_0000_0000, value. -/
def Claims.resetWords : List (Nat × Word) :=
  [(0x0, 0x211#64), (0x10010, 0x3FE000#64), (0x10018, 100#64), (0x10020, 100#64), (0x30008, 1#64), (0x30010, 0x2500000A#64),
   (0x30018, 0x84021#64), (0x30020, 0x800000000000#64), (0x40010, 0x20004001000#64), (0x50008, 0x12#64), (0x500020, 8#64),
   (0x500028, 0x2040080224#64), (0x500030, 0x4B00642018#64), (0x510028, 8#64), (0x520000, 3#64), (0x520008, 0x180C800000000#64),
   (0x520048, 0x3E80040#64), (0x530000, 0x3204#64), (0x550100, 0xF#64), (0x550118, 2#64), (0x550138, 0x10064#64), (0x560010, 3#64),
   (0x560018, 0x4000FFFF#64), (0x560020, 720#64), (0x560028, 0x226BBAD0#64), (0x560030, 0xA4#64), (0x570000, 0x182#64)]

/-- The same for the registers of each sequencer's block and of each Loupe channel's, from the block's base. -/
def Claims.resetOfSequencer : List (Nat × Word) :=
  [(0x20, 0xBB803E803E80190#64), (0x28, 0x3203E800C8#64), (0x30, 1#64), (0x68, 0x14#64)]
def Claims.resetOfChannel : List (Nat × Word) :=
  [(0, 0x3E#64), (8, 0xA0633#64), (0x10, 0xA5A137#64), (0x18, 0x23#64), (0x20, 0x10800FA#64), (0x28, 8#64), (0x30, 0x1470503008#64),
   (0x38, 0x96#64)]

/-- Registers that reset to zero, one or more of each block that has such. -/
def Claims.resetZeros : List Nat :=
  [0x40, 0x48, 0x30000, 0x30028, 0x40008, 0x50000, 0x500000, 0x510000, 0x540000, 0x550000, 0x560000, 0x570008, 0x580000, 0x590000]

/-- R31 and the register tables, R47, R64, R104, R114, R178: right after reset every register holds its reset value, every clasp is
open, every general register of every core is zero with poison clear, `tnow` and `icount` are 0, the pool is disabled, nothing is in
the Chain or in a mailbox, and no command waits. (The values of the part, log entry 3, are not among these.) -/
def Obligations.ResetLeavesTheSpecsValues : Prop :=
  (∀ e ∈ Claims.resetWords, State.reset.reg e.1 = e.2) ∧
  (∀ o ∈ Claims.resetZeros, State.reset.reg o = 0#64) ∧
  (∀ q, q < 34 → ∀ e ∈ Claims.resetOfSequencer, State.reset.reg (0x100000 + q * 0x10000 + e.1) = e.2) ∧
  (∀ n, n < 32 → ∀ e ∈ Claims.resetOfChannel, State.reset.reg (0x400000 + n * 0x4000 + e.1) = e.2) ∧
  (∀ c, c < 76 → State.reset.fld (fCLP_STAT_STATE c) = 0) ∧
  (∀ k, k < 54 → State.reset.reg (0x10100 + 16 * k) = 0x4444444444444444#64) ∧
  (∀ n r, (State.reset.core n).get r = ⟨0#64, false⟩ ∧ (State.reset.core n).cr.icount = 0#64 ∧
    (State.reset.core n).cr.hkeep0 = 0#64 ∧ (State.reset.core n).cr.hkeep1 = 0#64 ∧ (State.reset.core n).tx.isOpen = false) ∧
  (∀ b ep, State.reset.granted b ep = false) ∧ State.reset.flag fBPM_CTL_EN = false ∧
  State.reset.now = 0 ∧ State.reset.net = [] ∧ (∀ e m, State.reset.box e m = []) ∧ State.reset.pending = []

/-- The block's invariant: memory is in its one canonical form, so that equal memories are equal data. -/
def Claims.Inv (s : State) : Prop := s.mem.wf = true

/-- The invariant holds right after reset. -/
def Obligations.TheInvariantHoldsAtReset : Prop := Claims.Inv State.reset

/-- Whatever command a step takes, or none, it keeps the memory in its canonical form; and no step changes which part the device is
or how much DRAM it carries (R2, R34). -/
def Obligations.EveryStepKeepsTheInvariant : Prop :=
  ∀ s t : State, step s = .next t → (Claims.Inv s → Claims.Inv t) ∧ t.part = s.part ∧ t.dramMiB = s.dramMiB
end

