-- ==== Sys2Proof/Laws/State.lean ====
section
/-! SUPPORT. What each update of the state leaves alone, field by field, so that no proof unfolds a record update. -/

namespace Sys2Proof.Machine

open Sys2Proof

@[simp] theorem State.tick_pending (s : State) : s.tick.pending = s.pending := rfl
@[simp] theorem State.tick_part (s : State) : s.tick.part = s.part := rfl
@[simp] theorem State.tick_dramMiB (s : State) : s.tick.dramMiB = s.dramMiB := rfl
@[simp] theorem State.tick_now (s : State) : s.tick.now = s.now := rfl
@[simp] theorem State.tick_modeGo (s : State) : s.tick.modeGo = s.modeGo := rfl
@[simp] theorem State.tick_regs (s : State) : s.tick.regs = s.regs := rfl
@[simp] theorem State.tick_mem (s : State) : s.tick.mem = s.mem := rfl
@[simp] theorem State.tick_cores (s : State) : s.tick.cores = s.cores := rfl
@[simp] theorem State.tick_entries (s : State) : s.tick.entries = s.entries := rfl
@[simp] theorem State.tick_net (s : State) : s.tick.net = s.net := rfl
@[simp] theorem State.tick_mbox (s : State) : s.tick.mbox = s.mbox := rfl
@[simp] theorem State.tick_txSeq (s : State) : s.tick.txSeq = s.txSeq := rfl
@[simp] theorem State.tick_rxSeq (s : State) : s.tick.rxSeq = s.rxSeq := rfl
@[simp] theorem State.tick_hkeys (s : State) : s.tick.hkeys = s.hkeys := rfl
@[simp] theorem State.tick_hkeyLow (s : State) : s.tick.hkeyLow = s.hkeyLow := rfl
@[simp] theorem State.tick_clasps (s : State) : s.tick.clasps = s.clasps := rfl
@[simp] theorem State.tick_pool (s : State) : s.tick.pool = s.pool := rfl
@[simp] theorem State.tick_map (s : State) : s.tick.map = s.map := rfl
@[simp] theorem State.tick_evr (s : State) : s.tick.evr = s.evr := rfl
@[simp] theorem State.tick_mec (s : State) : s.tick.mec = s.mec := rfl
@[simp] theorem State.tick_flt (s : State) : s.tick.flt = s.flt := rfl
@[simp] theorem State.tick_hqe (s : State) : s.tick.hqe = s.hqe := rfl
@[simp] theorem State.tick_ns (s : State) : s.tick.ns = s.ns := rfl
@[simp] theorem State.tick_seqs (s : State) : s.tick.seqs = s.seqs := rfl
@[simp] theorem State.tick_assay (s : State) : s.tick.assay = s.assay := rfl
@[simp] theorem State.tick_par (s : State) : s.tick.par = s.par := rfl
@[simp] theorem State.tick_fw (s : State) : s.tick.fw = s.fw := rfl
@[simp] theorem State.tick_sig (s : State) : s.tick.sig = s.sig := rfl
@[simp] theorem State.tick_boot (s : State) : s.tick.boot = s.boot := rfl
@[simp] theorem State.tick_lkt (s : State) : s.tick.lkt = s.lkt := rfl
@[simp] theorem State.tick_pwr (s : State) : s.tick.pwr = s.pwr := rfl
@[simp] theorem State.tick_mgmt (s : State) : s.tick.mgmt = s.mgmt := rfl

@[simp] theorem State.setReg_pending (s : State) (o : Nat) (w : Word) : (s.setReg o w).pending = s.pending := rfl
@[simp] theorem State.setReg_free (s : State) (o : Nat) (w : Word) : (s.setReg o w).free = s.free := rfl
@[simp] theorem State.setReg_part (s : State) (o : Nat) (w : Word) : (s.setReg o w).part = s.part := rfl
@[simp] theorem State.setReg_dramMiB (s : State) (o : Nat) (w : Word) : (s.setReg o w).dramMiB = s.dramMiB := rfl
@[simp] theorem State.setReg_now (s : State) (o : Nat) (w : Word) : (s.setReg o w).now = s.now := rfl
@[simp] theorem State.setReg_modeGo (s : State) (o : Nat) (w : Word) : (s.setReg o w).modeGo = s.modeGo := rfl
@[simp] theorem State.setReg_mem (s : State) (o : Nat) (w : Word) : (s.setReg o w).mem = s.mem := rfl
@[simp] theorem State.setReg_cores (s : State) (o : Nat) (w : Word) : (s.setReg o w).cores = s.cores := rfl
@[simp] theorem State.setReg_entries (s : State) (o : Nat) (w : Word) : (s.setReg o w).entries = s.entries := rfl
@[simp] theorem State.setReg_net (s : State) (o : Nat) (w : Word) : (s.setReg o w).net = s.net := rfl
@[simp] theorem State.setReg_mbox (s : State) (o : Nat) (w : Word) : (s.setReg o w).mbox = s.mbox := rfl
@[simp] theorem State.setReg_txSeq (s : State) (o : Nat) (w : Word) : (s.setReg o w).txSeq = s.txSeq := rfl
@[simp] theorem State.setReg_rxSeq (s : State) (o : Nat) (w : Word) : (s.setReg o w).rxSeq = s.rxSeq := rfl
@[simp] theorem State.setReg_hkeys (s : State) (o : Nat) (w : Word) : (s.setReg o w).hkeys = s.hkeys := rfl
@[simp] theorem State.setReg_hkeyLow (s : State) (o : Nat) (w : Word) : (s.setReg o w).hkeyLow = s.hkeyLow := rfl
@[simp] theorem State.setReg_clasps (s : State) (o : Nat) (w : Word) : (s.setReg o w).clasps = s.clasps := rfl
@[simp] theorem State.setReg_pool (s : State) (o : Nat) (w : Word) : (s.setReg o w).pool = s.pool := rfl
@[simp] theorem State.setReg_map (s : State) (o : Nat) (w : Word) : (s.setReg o w).map = s.map := rfl
@[simp] theorem State.setReg_evr (s : State) (o : Nat) (w : Word) : (s.setReg o w).evr = s.evr := rfl
@[simp] theorem State.setReg_mec (s : State) (o : Nat) (w : Word) : (s.setReg o w).mec = s.mec := rfl
@[simp] theorem State.setReg_flt (s : State) (o : Nat) (w : Word) : (s.setReg o w).flt = s.flt := rfl
@[simp] theorem State.setReg_hqe (s : State) (o : Nat) (w : Word) : (s.setReg o w).hqe = s.hqe := rfl
@[simp] theorem State.setReg_ns (s : State) (o : Nat) (w : Word) : (s.setReg o w).ns = s.ns := rfl
@[simp] theorem State.setReg_seqs (s : State) (o : Nat) (w : Word) : (s.setReg o w).seqs = s.seqs := rfl
@[simp] theorem State.setReg_assay (s : State) (o : Nat) (w : Word) : (s.setReg o w).assay = s.assay := rfl
@[simp] theorem State.setReg_par (s : State) (o : Nat) (w : Word) : (s.setReg o w).par = s.par := rfl
@[simp] theorem State.setReg_fw (s : State) (o : Nat) (w : Word) : (s.setReg o w).fw = s.fw := rfl
@[simp] theorem State.setReg_sig (s : State) (o : Nat) (w : Word) : (s.setReg o w).sig = s.sig := rfl
@[simp] theorem State.setReg_boot (s : State) (o : Nat) (w : Word) : (s.setReg o w).boot = s.boot := rfl
@[simp] theorem State.setReg_lkt (s : State) (o : Nat) (w : Word) : (s.setReg o w).lkt = s.lkt := rfl
@[simp] theorem State.setReg_pwr (s : State) (o : Nat) (w : Word) : (s.setReg o w).pwr = s.pwr := rfl
@[simp] theorem State.setReg_mgmt (s : State) (o : Nat) (w : Word) : (s.setReg o w).mgmt = s.mgmt := rfl

@[simp] theorem State.setFld_pending (s : State) (f : Fld) (v : Nat) : (s.setFld f v).pending = s.pending := rfl
@[simp] theorem State.setFld_free (s : State) (f : Fld) (v : Nat) : (s.setFld f v).free = s.free := rfl
@[simp] theorem State.setFld_part (s : State) (f : Fld) (v : Nat) : (s.setFld f v).part = s.part := rfl
@[simp] theorem State.setFld_dramMiB (s : State) (f : Fld) (v : Nat) : (s.setFld f v).dramMiB = s.dramMiB := rfl
@[simp] theorem State.setFld_now (s : State) (f : Fld) (v : Nat) : (s.setFld f v).now = s.now := rfl
@[simp] theorem State.setFld_modeGo (s : State) (f : Fld) (v : Nat) : (s.setFld f v).modeGo = s.modeGo := rfl
@[simp] theorem State.setFld_mem (s : State) (f : Fld) (v : Nat) : (s.setFld f v).mem = s.mem := rfl
@[simp] theorem State.setFld_cores (s : State) (f : Fld) (v : Nat) : (s.setFld f v).cores = s.cores := rfl
@[simp] theorem State.setFld_entries (s : State) (f : Fld) (v : Nat) : (s.setFld f v).entries = s.entries := rfl
@[simp] theorem State.setFld_net (s : State) (f : Fld) (v : Nat) : (s.setFld f v).net = s.net := rfl
@[simp] theorem State.setFld_mbox (s : State) (f : Fld) (v : Nat) : (s.setFld f v).mbox = s.mbox := rfl
@[simp] theorem State.setFld_txSeq (s : State) (f : Fld) (v : Nat) : (s.setFld f v).txSeq = s.txSeq := rfl
@[simp] theorem State.setFld_rxSeq (s : State) (f : Fld) (v : Nat) : (s.setFld f v).rxSeq = s.rxSeq := rfl
@[simp] theorem State.setFld_hkeys (s : State) (f : Fld) (v : Nat) : (s.setFld f v).hkeys = s.hkeys := rfl
@[simp] theorem State.setFld_hkeyLow (s : State) (f : Fld) (v : Nat) : (s.setFld f v).hkeyLow = s.hkeyLow := rfl
@[simp] theorem State.setFld_clasps (s : State) (f : Fld) (v : Nat) : (s.setFld f v).clasps = s.clasps := rfl
@[simp] theorem State.setFld_pool (s : State) (f : Fld) (v : Nat) : (s.setFld f v).pool = s.pool := rfl
@[simp] theorem State.setFld_map (s : State) (f : Fld) (v : Nat) : (s.setFld f v).map = s.map := rfl
@[simp] theorem State.setFld_evr (s : State) (f : Fld) (v : Nat) : (s.setFld f v).evr = s.evr := rfl
@[simp] theorem State.setFld_mec (s : State) (f : Fld) (v : Nat) : (s.setFld f v).mec = s.mec := rfl
@[simp] theorem State.setFld_flt (s : State) (f : Fld) (v : Nat) : (s.setFld f v).flt = s.flt := rfl
@[simp] theorem State.setFld_hqe (s : State) (f : Fld) (v : Nat) : (s.setFld f v).hqe = s.hqe := rfl
@[simp] theorem State.setFld_ns (s : State) (f : Fld) (v : Nat) : (s.setFld f v).ns = s.ns := rfl
@[simp] theorem State.setFld_seqs (s : State) (f : Fld) (v : Nat) : (s.setFld f v).seqs = s.seqs := rfl
@[simp] theorem State.setFld_assay (s : State) (f : Fld) (v : Nat) : (s.setFld f v).assay = s.assay := rfl
@[simp] theorem State.setFld_par (s : State) (f : Fld) (v : Nat) : (s.setFld f v).par = s.par := rfl
@[simp] theorem State.setFld_fw (s : State) (f : Fld) (v : Nat) : (s.setFld f v).fw = s.fw := rfl
@[simp] theorem State.setFld_sig (s : State) (f : Fld) (v : Nat) : (s.setFld f v).sig = s.sig := rfl
@[simp] theorem State.setFld_boot (s : State) (f : Fld) (v : Nat) : (s.setFld f v).boot = s.boot := rfl
@[simp] theorem State.setFld_lkt (s : State) (f : Fld) (v : Nat) : (s.setFld f v).lkt = s.lkt := rfl
@[simp] theorem State.setFld_pwr (s : State) (f : Fld) (v : Nat) : (s.setFld f v).pwr = s.pwr := rfl
@[simp] theorem State.setFld_mgmt (s : State) (f : Fld) (v : Nat) : (s.setFld f v).mgmt = s.mgmt := rfl

@[simp] theorem State.incSat_pending (s : State) (f : Fld) (k : Nat) : (s.incSat f k).pending = s.pending := rfl
@[simp] theorem State.incSat_free (s : State) (f : Fld) (k : Nat) : (s.incSat f k).free = s.free := rfl
@[simp] theorem State.incSat_part (s : State) (f : Fld) (k : Nat) : (s.incSat f k).part = s.part := rfl
@[simp] theorem State.incSat_dramMiB (s : State) (f : Fld) (k : Nat) : (s.incSat f k).dramMiB = s.dramMiB := rfl
@[simp] theorem State.incSat_now (s : State) (f : Fld) (k : Nat) : (s.incSat f k).now = s.now := rfl
@[simp] theorem State.incSat_modeGo (s : State) (f : Fld) (k : Nat) : (s.incSat f k).modeGo = s.modeGo := rfl
@[simp] theorem State.incSat_mem (s : State) (f : Fld) (k : Nat) : (s.incSat f k).mem = s.mem := rfl
@[simp] theorem State.incSat_cores (s : State) (f : Fld) (k : Nat) : (s.incSat f k).cores = s.cores := rfl
@[simp] theorem State.incSat_entries (s : State) (f : Fld) (k : Nat) : (s.incSat f k).entries = s.entries := rfl
@[simp] theorem State.incSat_net (s : State) (f : Fld) (k : Nat) : (s.incSat f k).net = s.net := rfl
@[simp] theorem State.incSat_mbox (s : State) (f : Fld) (k : Nat) : (s.incSat f k).mbox = s.mbox := rfl
@[simp] theorem State.incSat_txSeq (s : State) (f : Fld) (k : Nat) : (s.incSat f k).txSeq = s.txSeq := rfl
@[simp] theorem State.incSat_rxSeq (s : State) (f : Fld) (k : Nat) : (s.incSat f k).rxSeq = s.rxSeq := rfl
@[simp] theorem State.incSat_hkeys (s : State) (f : Fld) (k : Nat) : (s.incSat f k).hkeys = s.hkeys := rfl
@[simp] theorem State.incSat_hkeyLow (s : State) (f : Fld) (k : Nat) : (s.incSat f k).hkeyLow = s.hkeyLow := rfl
@[simp] theorem State.incSat_clasps (s : State) (f : Fld) (k : Nat) : (s.incSat f k).clasps = s.clasps := rfl
@[simp] theorem State.incSat_pool (s : State) (f : Fld) (k : Nat) : (s.incSat f k).pool = s.pool := rfl
@[simp] theorem State.incSat_map (s : State) (f : Fld) (k : Nat) : (s.incSat f k).map = s.map := rfl
@[simp] theorem State.incSat_evr (s : State) (f : Fld) (k : Nat) : (s.incSat f k).evr = s.evr := rfl
@[simp] theorem State.incSat_mec (s : State) (f : Fld) (k : Nat) : (s.incSat f k).mec = s.mec := rfl
@[simp] theorem State.incSat_flt (s : State) (f : Fld) (k : Nat) : (s.incSat f k).flt = s.flt := rfl
@[simp] theorem State.incSat_hqe (s : State) (f : Fld) (k : Nat) : (s.incSat f k).hqe = s.hqe := rfl
@[simp] theorem State.incSat_ns (s : State) (f : Fld) (k : Nat) : (s.incSat f k).ns = s.ns := rfl
@[simp] theorem State.incSat_seqs (s : State) (f : Fld) (k : Nat) : (s.incSat f k).seqs = s.seqs := rfl
@[simp] theorem State.incSat_assay (s : State) (f : Fld) (k : Nat) : (s.incSat f k).assay = s.assay := rfl
@[simp] theorem State.incSat_par (s : State) (f : Fld) (k : Nat) : (s.incSat f k).par = s.par := rfl
@[simp] theorem State.incSat_fw (s : State) (f : Fld) (k : Nat) : (s.incSat f k).fw = s.fw := rfl
@[simp] theorem State.incSat_sig (s : State) (f : Fld) (k : Nat) : (s.incSat f k).sig = s.sig := rfl
@[simp] theorem State.incSat_boot (s : State) (f : Fld) (k : Nat) : (s.incSat f k).boot = s.boot := rfl
@[simp] theorem State.incSat_lkt (s : State) (f : Fld) (k : Nat) : (s.incSat f k).lkt = s.lkt := rfl
@[simp] theorem State.incSat_pwr (s : State) (f : Fld) (k : Nat) : (s.incSat f k).pwr = s.pwr := rfl
@[simp] theorem State.incSat_mgmt (s : State) (f : Fld) (k : Nat) : (s.incSat f k).mgmt = s.mgmt := rfl

@[simp] theorem State.incWrap_pending (s : State) (f : Fld) (k : Nat) : (s.incWrap f k).pending = s.pending := rfl
@[simp] theorem State.incWrap_free (s : State) (f : Fld) (k : Nat) : (s.incWrap f k).free = s.free := rfl
@[simp] theorem State.incWrap_part (s : State) (f : Fld) (k : Nat) : (s.incWrap f k).part = s.part := rfl
@[simp] theorem State.incWrap_dramMiB (s : State) (f : Fld) (k : Nat) : (s.incWrap f k).dramMiB = s.dramMiB := rfl
@[simp] theorem State.incWrap_now (s : State) (f : Fld) (k : Nat) : (s.incWrap f k).now = s.now := rfl
@[simp] theorem State.incWrap_modeGo (s : State) (f : Fld) (k : Nat) : (s.incWrap f k).modeGo = s.modeGo := rfl
@[simp] theorem State.incWrap_mem (s : State) (f : Fld) (k : Nat) : (s.incWrap f k).mem = s.mem := rfl
@[simp] theorem State.incWrap_cores (s : State) (f : Fld) (k : Nat) : (s.incWrap f k).cores = s.cores := rfl
@[simp] theorem State.incWrap_entries (s : State) (f : Fld) (k : Nat) : (s.incWrap f k).entries = s.entries := rfl
@[simp] theorem State.incWrap_net (s : State) (f : Fld) (k : Nat) : (s.incWrap f k).net = s.net := rfl
@[simp] theorem State.incWrap_mbox (s : State) (f : Fld) (k : Nat) : (s.incWrap f k).mbox = s.mbox := rfl
@[simp] theorem State.incWrap_txSeq (s : State) (f : Fld) (k : Nat) : (s.incWrap f k).txSeq = s.txSeq := rfl
@[simp] theorem State.incWrap_rxSeq (s : State) (f : Fld) (k : Nat) : (s.incWrap f k).rxSeq = s.rxSeq := rfl
@[simp] theorem State.incWrap_hkeys (s : State) (f : Fld) (k : Nat) : (s.incWrap f k).hkeys = s.hkeys := rfl
@[simp] theorem State.incWrap_hkeyLow (s : State) (f : Fld) (k : Nat) : (s.incWrap f k).hkeyLow = s.hkeyLow := rfl
@[simp] theorem State.incWrap_clasps (s : State) (f : Fld) (k : Nat) : (s.incWrap f k).clasps = s.clasps := rfl
@[simp] theorem State.incWrap_pool (s : State) (f : Fld) (k : Nat) : (s.incWrap f k).pool = s.pool := rfl
@[simp] theorem State.incWrap_map (s : State) (f : Fld) (k : Nat) : (s.incWrap f k).map = s.map := rfl
@[simp] theorem State.incWrap_evr (s : State) (f : Fld) (k : Nat) : (s.incWrap f k).evr = s.evr := rfl
@[simp] theorem State.incWrap_mec (s : State) (f : Fld) (k : Nat) : (s.incWrap f k).mec = s.mec := rfl
@[simp] theorem State.incWrap_flt (s : State) (f : Fld) (k : Nat) : (s.incWrap f k).flt = s.flt := rfl
@[simp] theorem State.incWrap_hqe (s : State) (f : Fld) (k : Nat) : (s.incWrap f k).hqe = s.hqe := rfl
@[simp] theorem State.incWrap_ns (s : State) (f : Fld) (k : Nat) : (s.incWrap f k).ns = s.ns := rfl
@[simp] theorem State.incWrap_seqs (s : State) (f : Fld) (k : Nat) : (s.incWrap f k).seqs = s.seqs := rfl
@[simp] theorem State.incWrap_assay (s : State) (f : Fld) (k : Nat) : (s.incWrap f k).assay = s.assay := rfl
@[simp] theorem State.incWrap_par (s : State) (f : Fld) (k : Nat) : (s.incWrap f k).par = s.par := rfl
@[simp] theorem State.incWrap_fw (s : State) (f : Fld) (k : Nat) : (s.incWrap f k).fw = s.fw := rfl
@[simp] theorem State.incWrap_sig (s : State) (f : Fld) (k : Nat) : (s.incWrap f k).sig = s.sig := rfl
@[simp] theorem State.incWrap_boot (s : State) (f : Fld) (k : Nat) : (s.incWrap f k).boot = s.boot := rfl
@[simp] theorem State.incWrap_lkt (s : State) (f : Fld) (k : Nat) : (s.incWrap f k).lkt = s.lkt := rfl
@[simp] theorem State.incWrap_pwr (s : State) (f : Fld) (k : Nat) : (s.incWrap f k).pwr = s.pwr := rfl
@[simp] theorem State.incWrap_mgmt (s : State) (f : Fld) (k : Nat) : (s.incWrap f k).mgmt = s.mgmt := rfl

@[simp] theorem State.setCore_pending (s : State) (n : Nat) (c : Core) : (s.setCore n c).pending = s.pending := rfl
@[simp] theorem State.setCore_free (s : State) (n : Nat) (c : Core) : (s.setCore n c).free = s.free := rfl
@[simp] theorem State.setCore_part (s : State) (n : Nat) (c : Core) : (s.setCore n c).part = s.part := rfl
@[simp] theorem State.setCore_dramMiB (s : State) (n : Nat) (c : Core) : (s.setCore n c).dramMiB = s.dramMiB := rfl
@[simp] theorem State.setCore_now (s : State) (n : Nat) (c : Core) : (s.setCore n c).now = s.now := rfl
@[simp] theorem State.setCore_modeGo (s : State) (n : Nat) (c : Core) : (s.setCore n c).modeGo = s.modeGo := rfl
@[simp] theorem State.setCore_regs (s : State) (n : Nat) (c : Core) : (s.setCore n c).regs = s.regs := rfl
@[simp] theorem State.setCore_mem (s : State) (n : Nat) (c : Core) : (s.setCore n c).mem = s.mem := rfl
@[simp] theorem State.setCore_entries (s : State) (n : Nat) (c : Core) : (s.setCore n c).entries = s.entries := rfl
@[simp] theorem State.setCore_net (s : State) (n : Nat) (c : Core) : (s.setCore n c).net = s.net := rfl
@[simp] theorem State.setCore_mbox (s : State) (n : Nat) (c : Core) : (s.setCore n c).mbox = s.mbox := rfl
@[simp] theorem State.setCore_txSeq (s : State) (n : Nat) (c : Core) : (s.setCore n c).txSeq = s.txSeq := rfl
@[simp] theorem State.setCore_rxSeq (s : State) (n : Nat) (c : Core) : (s.setCore n c).rxSeq = s.rxSeq := rfl
@[simp] theorem State.setCore_hkeys (s : State) (n : Nat) (c : Core) : (s.setCore n c).hkeys = s.hkeys := rfl
@[simp] theorem State.setCore_hkeyLow (s : State) (n : Nat) (c : Core) : (s.setCore n c).hkeyLow = s.hkeyLow := rfl
@[simp] theorem State.setCore_clasps (s : State) (n : Nat) (c : Core) : (s.setCore n c).clasps = s.clasps := rfl
@[simp] theorem State.setCore_pool (s : State) (n : Nat) (c : Core) : (s.setCore n c).pool = s.pool := rfl
@[simp] theorem State.setCore_map (s : State) (n : Nat) (c : Core) : (s.setCore n c).map = s.map := rfl
@[simp] theorem State.setCore_evr (s : State) (n : Nat) (c : Core) : (s.setCore n c).evr = s.evr := rfl
@[simp] theorem State.setCore_mec (s : State) (n : Nat) (c : Core) : (s.setCore n c).mec = s.mec := rfl
@[simp] theorem State.setCore_flt (s : State) (n : Nat) (c : Core) : (s.setCore n c).flt = s.flt := rfl
@[simp] theorem State.setCore_hqe (s : State) (n : Nat) (c : Core) : (s.setCore n c).hqe = s.hqe := rfl
@[simp] theorem State.setCore_ns (s : State) (n : Nat) (c : Core) : (s.setCore n c).ns = s.ns := rfl
@[simp] theorem State.setCore_seqs (s : State) (n : Nat) (c : Core) : (s.setCore n c).seqs = s.seqs := rfl
@[simp] theorem State.setCore_assay (s : State) (n : Nat) (c : Core) : (s.setCore n c).assay = s.assay := rfl
@[simp] theorem State.setCore_par (s : State) (n : Nat) (c : Core) : (s.setCore n c).par = s.par := rfl
@[simp] theorem State.setCore_fw (s : State) (n : Nat) (c : Core) : (s.setCore n c).fw = s.fw := rfl
@[simp] theorem State.setCore_sig (s : State) (n : Nat) (c : Core) : (s.setCore n c).sig = s.sig := rfl
@[simp] theorem State.setCore_boot (s : State) (n : Nat) (c : Core) : (s.setCore n c).boot = s.boot := rfl
@[simp] theorem State.setCore_lkt (s : State) (n : Nat) (c : Core) : (s.setCore n c).lkt = s.lkt := rfl
@[simp] theorem State.setCore_pwr (s : State) (n : Nat) (c : Core) : (s.setCore n c).pwr = s.pwr := rfl
@[simp] theorem State.setCore_mgmt (s : State) (n : Nat) (c : Core) : (s.setCore n c).mgmt = s.mgmt := rfl

@[simp] theorem State.setBox_pending (s : State) (ep m : Nat) (l : List Msg) : (s.setBox ep m l).pending = s.pending := rfl
@[simp] theorem State.setBox_free (s : State) (ep m : Nat) (l : List Msg) : (s.setBox ep m l).free = s.free := rfl
@[simp] theorem State.setBox_part (s : State) (ep m : Nat) (l : List Msg) : (s.setBox ep m l).part = s.part := rfl
@[simp] theorem State.setBox_dramMiB (s : State) (ep m : Nat) (l : List Msg) : (s.setBox ep m l).dramMiB = s.dramMiB := rfl
@[simp] theorem State.setBox_now (s : State) (ep m : Nat) (l : List Msg) : (s.setBox ep m l).now = s.now := rfl
@[simp] theorem State.setBox_modeGo (s : State) (ep m : Nat) (l : List Msg) : (s.setBox ep m l).modeGo = s.modeGo := rfl
@[simp] theorem State.setBox_regs (s : State) (ep m : Nat) (l : List Msg) : (s.setBox ep m l).regs = s.regs := rfl
@[simp] theorem State.setBox_mem (s : State) (ep m : Nat) (l : List Msg) : (s.setBox ep m l).mem = s.mem := rfl
@[simp] theorem State.setBox_cores (s : State) (ep m : Nat) (l : List Msg) : (s.setBox ep m l).cores = s.cores := rfl
@[simp] theorem State.setBox_entries (s : State) (ep m : Nat) (l : List Msg) : (s.setBox ep m l).entries = s.entries := rfl
@[simp] theorem State.setBox_net (s : State) (ep m : Nat) (l : List Msg) : (s.setBox ep m l).net = s.net := rfl
@[simp] theorem State.setBox_txSeq (s : State) (ep m : Nat) (l : List Msg) : (s.setBox ep m l).txSeq = s.txSeq := rfl
@[simp] theorem State.setBox_rxSeq (s : State) (ep m : Nat) (l : List Msg) : (s.setBox ep m l).rxSeq = s.rxSeq := rfl
@[simp] theorem State.setBox_hkeys (s : State) (ep m : Nat) (l : List Msg) : (s.setBox ep m l).hkeys = s.hkeys := rfl
@[simp] theorem State.setBox_hkeyLow (s : State) (ep m : Nat) (l : List Msg) : (s.setBox ep m l).hkeyLow = s.hkeyLow := rfl
@[simp] theorem State.setBox_clasps (s : State) (ep m : Nat) (l : List Msg) : (s.setBox ep m l).clasps = s.clasps := rfl
@[simp] theorem State.setBox_pool (s : State) (ep m : Nat) (l : List Msg) : (s.setBox ep m l).pool = s.pool := rfl
@[simp] theorem State.setBox_map (s : State) (ep m : Nat) (l : List Msg) : (s.setBox ep m l).map = s.map := rfl
@[simp] theorem State.setBox_evr (s : State) (ep m : Nat) (l : List Msg) : (s.setBox ep m l).evr = s.evr := rfl
@[simp] theorem State.setBox_mec (s : State) (ep m : Nat) (l : List Msg) : (s.setBox ep m l).mec = s.mec := rfl
@[simp] theorem State.setBox_flt (s : State) (ep m : Nat) (l : List Msg) : (s.setBox ep m l).flt = s.flt := rfl
@[simp] theorem State.setBox_hqe (s : State) (ep m : Nat) (l : List Msg) : (s.setBox ep m l).hqe = s.hqe := rfl
@[simp] theorem State.setBox_ns (s : State) (ep m : Nat) (l : List Msg) : (s.setBox ep m l).ns = s.ns := rfl
@[simp] theorem State.setBox_seqs (s : State) (ep m : Nat) (l : List Msg) : (s.setBox ep m l).seqs = s.seqs := rfl
@[simp] theorem State.setBox_assay (s : State) (ep m : Nat) (l : List Msg) : (s.setBox ep m l).assay = s.assay := rfl
@[simp] theorem State.setBox_par (s : State) (ep m : Nat) (l : List Msg) : (s.setBox ep m l).par = s.par := rfl
@[simp] theorem State.setBox_fw (s : State) (ep m : Nat) (l : List Msg) : (s.setBox ep m l).fw = s.fw := rfl
@[simp] theorem State.setBox_sig (s : State) (ep m : Nat) (l : List Msg) : (s.setBox ep m l).sig = s.sig := rfl
@[simp] theorem State.setBox_boot (s : State) (ep m : Nat) (l : List Msg) : (s.setBox ep m l).boot = s.boot := rfl
@[simp] theorem State.setBox_lkt (s : State) (ep m : Nat) (l : List Msg) : (s.setBox ep m l).lkt = s.lkt := rfl
@[simp] theorem State.setBox_pwr (s : State) (ep m : Nat) (l : List Msg) : (s.setBox ep m l).pwr = s.pwr := rfl
@[simp] theorem State.setBox_mgmt (s : State) (ep m : Nat) (l : List Msg) : (s.setBox ep m l).mgmt = s.mgmt := rfl

@[simp] theorem State.chainSend_pending (s : State) (a b m u : Nat) (p : BitVec 512) : (s.chainSend a b m u p).pending = s.pending := rfl
@[simp] theorem State.chainSend_free (s : State) (a b m u : Nat) (p : BitVec 512) : (s.chainSend a b m u p).free = s.free := rfl
@[simp] theorem State.chainSend_part (s : State) (a b m u : Nat) (p : BitVec 512) : (s.chainSend a b m u p).part = s.part := rfl
@[simp] theorem State.chainSend_dramMiB (s : State) (a b m u : Nat) (p : BitVec 512) : (s.chainSend a b m u p).dramMiB = s.dramMiB := rfl
@[simp] theorem State.chainSend_now (s : State) (a b m u : Nat) (p : BitVec 512) : (s.chainSend a b m u p).now = s.now := rfl
@[simp] theorem State.chainSend_modeGo (s : State) (a b m u : Nat) (p : BitVec 512) : (s.chainSend a b m u p).modeGo = s.modeGo := rfl
@[simp] theorem State.chainSend_regs (s : State) (a b m u : Nat) (p : BitVec 512) : (s.chainSend a b m u p).regs = s.regs := rfl
@[simp] theorem State.chainSend_mem (s : State) (a b m u : Nat) (p : BitVec 512) : (s.chainSend a b m u p).mem = s.mem := rfl
@[simp] theorem State.chainSend_cores (s : State) (a b m u : Nat) (p : BitVec 512) : (s.chainSend a b m u p).cores = s.cores := rfl
@[simp] theorem State.chainSend_entries (s : State) (a b m u : Nat) (p : BitVec 512) : (s.chainSend a b m u p).entries = s.entries := rfl
@[simp] theorem State.chainSend_mbox (s : State) (a b m u : Nat) (p : BitVec 512) : (s.chainSend a b m u p).mbox = s.mbox := rfl
@[simp] theorem State.chainSend_rxSeq (s : State) (a b m u : Nat) (p : BitVec 512) : (s.chainSend a b m u p).rxSeq = s.rxSeq := rfl
@[simp] theorem State.chainSend_hkeys (s : State) (a b m u : Nat) (p : BitVec 512) : (s.chainSend a b m u p).hkeys = s.hkeys := rfl
@[simp] theorem State.chainSend_hkeyLow (s : State) (a b m u : Nat) (p : BitVec 512) : (s.chainSend a b m u p).hkeyLow = s.hkeyLow := rfl
@[simp] theorem State.chainSend_clasps (s : State) (a b m u : Nat) (p : BitVec 512) : (s.chainSend a b m u p).clasps = s.clasps := rfl
@[simp] theorem State.chainSend_pool (s : State) (a b m u : Nat) (p : BitVec 512) : (s.chainSend a b m u p).pool = s.pool := rfl
@[simp] theorem State.chainSend_map (s : State) (a b m u : Nat) (p : BitVec 512) : (s.chainSend a b m u p).map = s.map := rfl
@[simp] theorem State.chainSend_evr (s : State) (a b m u : Nat) (p : BitVec 512) : (s.chainSend a b m u p).evr = s.evr := rfl
@[simp] theorem State.chainSend_mec (s : State) (a b m u : Nat) (p : BitVec 512) : (s.chainSend a b m u p).mec = s.mec := rfl
@[simp] theorem State.chainSend_flt (s : State) (a b m u : Nat) (p : BitVec 512) : (s.chainSend a b m u p).flt = s.flt := rfl
@[simp] theorem State.chainSend_hqe (s : State) (a b m u : Nat) (p : BitVec 512) : (s.chainSend a b m u p).hqe = s.hqe := rfl
@[simp] theorem State.chainSend_ns (s : State) (a b m u : Nat) (p : BitVec 512) : (s.chainSend a b m u p).ns = s.ns := rfl
@[simp] theorem State.chainSend_seqs (s : State) (a b m u : Nat) (p : BitVec 512) : (s.chainSend a b m u p).seqs = s.seqs := rfl
@[simp] theorem State.chainSend_assay (s : State) (a b m u : Nat) (p : BitVec 512) : (s.chainSend a b m u p).assay = s.assay := rfl
@[simp] theorem State.chainSend_par (s : State) (a b m u : Nat) (p : BitVec 512) : (s.chainSend a b m u p).par = s.par := rfl
@[simp] theorem State.chainSend_fw (s : State) (a b m u : Nat) (p : BitVec 512) : (s.chainSend a b m u p).fw = s.fw := rfl
@[simp] theorem State.chainSend_sig (s : State) (a b m u : Nat) (p : BitVec 512) : (s.chainSend a b m u p).sig = s.sig := rfl
@[simp] theorem State.chainSend_boot (s : State) (a b m u : Nat) (p : BitVec 512) : (s.chainSend a b m u p).boot = s.boot := rfl
@[simp] theorem State.chainSend_lkt (s : State) (a b m u : Nat) (p : BitVec 512) : (s.chainSend a b m u p).lkt = s.lkt := rfl
@[simp] theorem State.chainSend_pwr (s : State) (a b m u : Nat) (p : BitVec 512) : (s.chainSend a b m u p).pwr = s.pwr := rfl
@[simp] theorem State.chainSend_mgmt (s : State) (a b m u : Nat) (p : BitVec 512) : (s.chainSend a b m u p).mgmt = s.mgmt := rfl

@[simp] theorem State.withMem_pending (s : State) (m : Mem) : (s.withMem m).pending = s.pending := rfl
@[simp] theorem State.withMem_free (s : State) (m : Mem) : (s.withMem m).free = s.free := rfl
@[simp] theorem State.withMem_part (s : State) (m : Mem) : (s.withMem m).part = s.part := rfl
@[simp] theorem State.withMem_dramMiB (s : State) (m : Mem) : (s.withMem m).dramMiB = s.dramMiB := rfl
@[simp] theorem State.withMem_now (s : State) (m : Mem) : (s.withMem m).now = s.now := rfl
@[simp] theorem State.withMem_modeGo (s : State) (m : Mem) : (s.withMem m).modeGo = s.modeGo := rfl
@[simp] theorem State.withMem_regs (s : State) (m : Mem) : (s.withMem m).regs = s.regs := rfl
@[simp] theorem State.withMem_cores (s : State) (m : Mem) : (s.withMem m).cores = s.cores := rfl
@[simp] theorem State.withMem_entries (s : State) (m : Mem) : (s.withMem m).entries = s.entries := rfl
@[simp] theorem State.withMem_net (s : State) (m : Mem) : (s.withMem m).net = s.net := rfl
@[simp] theorem State.withMem_mbox (s : State) (m : Mem) : (s.withMem m).mbox = s.mbox := rfl
@[simp] theorem State.withMem_txSeq (s : State) (m : Mem) : (s.withMem m).txSeq = s.txSeq := rfl
@[simp] theorem State.withMem_rxSeq (s : State) (m : Mem) : (s.withMem m).rxSeq = s.rxSeq := rfl
@[simp] theorem State.withMem_hkeys (s : State) (m : Mem) : (s.withMem m).hkeys = s.hkeys := rfl
@[simp] theorem State.withMem_hkeyLow (s : State) (m : Mem) : (s.withMem m).hkeyLow = s.hkeyLow := rfl
@[simp] theorem State.withMem_clasps (s : State) (m : Mem) : (s.withMem m).clasps = s.clasps := rfl
@[simp] theorem State.withMem_pool (s : State) (m : Mem) : (s.withMem m).pool = s.pool := rfl
@[simp] theorem State.withMem_map (s : State) (m : Mem) : (s.withMem m).map = s.map := rfl
@[simp] theorem State.withMem_evr (s : State) (m : Mem) : (s.withMem m).evr = s.evr := rfl
@[simp] theorem State.withMem_mec (s : State) (m : Mem) : (s.withMem m).mec = s.mec := rfl
@[simp] theorem State.withMem_flt (s : State) (m : Mem) : (s.withMem m).flt = s.flt := rfl
@[simp] theorem State.withMem_hqe (s : State) (m : Mem) : (s.withMem m).hqe = s.hqe := rfl
@[simp] theorem State.withMem_ns (s : State) (m : Mem) : (s.withMem m).ns = s.ns := rfl
@[simp] theorem State.withMem_seqs (s : State) (m : Mem) : (s.withMem m).seqs = s.seqs := rfl
@[simp] theorem State.withMem_assay (s : State) (m : Mem) : (s.withMem m).assay = s.assay := rfl
@[simp] theorem State.withMem_par (s : State) (m : Mem) : (s.withMem m).par = s.par := rfl
@[simp] theorem State.withMem_fw (s : State) (m : Mem) : (s.withMem m).fw = s.fw := rfl
@[simp] theorem State.withMem_sig (s : State) (m : Mem) : (s.withMem m).sig = s.sig := rfl
@[simp] theorem State.withMem_boot (s : State) (m : Mem) : (s.withMem m).boot = s.boot := rfl
@[simp] theorem State.withMem_lkt (s : State) (m : Mem) : (s.withMem m).lkt = s.lkt := rfl
@[simp] theorem State.withMem_pwr (s : State) (m : Mem) : (s.withMem m).pwr = s.pwr := rfl
@[simp] theorem State.withMem_mgmt (s : State) (m : Mem) : (s.withMem m).mgmt = s.mgmt := rfl

@[simp] theorem State.withFw_pending (s : State) (f : Fw) : (s.withFw f).pending = s.pending := rfl
@[simp] theorem State.withFw_free (s : State) (f : Fw) : (s.withFw f).free = s.free := rfl
@[simp] theorem State.withFw_part (s : State) (f : Fw) : (s.withFw f).part = s.part := rfl
@[simp] theorem State.withFw_dramMiB (s : State) (f : Fw) : (s.withFw f).dramMiB = s.dramMiB := rfl
@[simp] theorem State.withFw_now (s : State) (f : Fw) : (s.withFw f).now = s.now := rfl
@[simp] theorem State.withFw_modeGo (s : State) (f : Fw) : (s.withFw f).modeGo = s.modeGo := rfl
@[simp] theorem State.withFw_regs (s : State) (f : Fw) : (s.withFw f).regs = s.regs := rfl
@[simp] theorem State.withFw_mem (s : State) (f : Fw) : (s.withFw f).mem = s.mem := rfl
@[simp] theorem State.withFw_cores (s : State) (f : Fw) : (s.withFw f).cores = s.cores := rfl
@[simp] theorem State.withFw_entries (s : State) (f : Fw) : (s.withFw f).entries = s.entries := rfl
@[simp] theorem State.withFw_net (s : State) (f : Fw) : (s.withFw f).net = s.net := rfl
@[simp] theorem State.withFw_mbox (s : State) (f : Fw) : (s.withFw f).mbox = s.mbox := rfl
@[simp] theorem State.withFw_txSeq (s : State) (f : Fw) : (s.withFw f).txSeq = s.txSeq := rfl
@[simp] theorem State.withFw_rxSeq (s : State) (f : Fw) : (s.withFw f).rxSeq = s.rxSeq := rfl
@[simp] theorem State.withFw_hkeys (s : State) (f : Fw) : (s.withFw f).hkeys = s.hkeys := rfl
@[simp] theorem State.withFw_hkeyLow (s : State) (f : Fw) : (s.withFw f).hkeyLow = s.hkeyLow := rfl
@[simp] theorem State.withFw_clasps (s : State) (f : Fw) : (s.withFw f).clasps = s.clasps := rfl
@[simp] theorem State.withFw_pool (s : State) (f : Fw) : (s.withFw f).pool = s.pool := rfl
@[simp] theorem State.withFw_map (s : State) (f : Fw) : (s.withFw f).map = s.map := rfl
@[simp] theorem State.withFw_evr (s : State) (f : Fw) : (s.withFw f).evr = s.evr := rfl
@[simp] theorem State.withFw_mec (s : State) (f : Fw) : (s.withFw f).mec = s.mec := rfl
@[simp] theorem State.withFw_flt (s : State) (f : Fw) : (s.withFw f).flt = s.flt := rfl
@[simp] theorem State.withFw_hqe (s : State) (f : Fw) : (s.withFw f).hqe = s.hqe := rfl
@[simp] theorem State.withFw_ns (s : State) (f : Fw) : (s.withFw f).ns = s.ns := rfl
@[simp] theorem State.withFw_seqs (s : State) (f : Fw) : (s.withFw f).seqs = s.seqs := rfl
@[simp] theorem State.withFw_assay (s : State) (f : Fw) : (s.withFw f).assay = s.assay := rfl
@[simp] theorem State.withFw_par (s : State) (f : Fw) : (s.withFw f).par = s.par := rfl
@[simp] theorem State.withFw_sig (s : State) (f : Fw) : (s.withFw f).sig = s.sig := rfl
@[simp] theorem State.withFw_boot (s : State) (f : Fw) : (s.withFw f).boot = s.boot := rfl
@[simp] theorem State.withFw_lkt (s : State) (f : Fw) : (s.withFw f).lkt = s.lkt := rfl
@[simp] theorem State.withFw_pwr (s : State) (f : Fw) : (s.withFw f).pwr = s.pwr := rfl
@[simp] theorem State.withFw_mgmt (s : State) (f : Fw) : (s.withFw f).mgmt = s.mgmt := rfl

@[simp] theorem State.withSig_pending (s : State) (g : Sig) : (s.withSig g).pending = s.pending := rfl
@[simp] theorem State.withSig_free (s : State) (g : Sig) : (s.withSig g).free = s.free := rfl
@[simp] theorem State.withSig_part (s : State) (g : Sig) : (s.withSig g).part = s.part := rfl
@[simp] theorem State.withSig_dramMiB (s : State) (g : Sig) : (s.withSig g).dramMiB = s.dramMiB := rfl
@[simp] theorem State.withSig_now (s : State) (g : Sig) : (s.withSig g).now = s.now := rfl
@[simp] theorem State.withSig_modeGo (s : State) (g : Sig) : (s.withSig g).modeGo = s.modeGo := rfl
@[simp] theorem State.withSig_regs (s : State) (g : Sig) : (s.withSig g).regs = s.regs := rfl
@[simp] theorem State.withSig_mem (s : State) (g : Sig) : (s.withSig g).mem = s.mem := rfl
@[simp] theorem State.withSig_cores (s : State) (g : Sig) : (s.withSig g).cores = s.cores := rfl
@[simp] theorem State.withSig_entries (s : State) (g : Sig) : (s.withSig g).entries = s.entries := rfl
@[simp] theorem State.withSig_net (s : State) (g : Sig) : (s.withSig g).net = s.net := rfl
@[simp] theorem State.withSig_mbox (s : State) (g : Sig) : (s.withSig g).mbox = s.mbox := rfl
@[simp] theorem State.withSig_txSeq (s : State) (g : Sig) : (s.withSig g).txSeq = s.txSeq := rfl
@[simp] theorem State.withSig_rxSeq (s : State) (g : Sig) : (s.withSig g).rxSeq = s.rxSeq := rfl
@[simp] theorem State.withSig_hkeys (s : State) (g : Sig) : (s.withSig g).hkeys = s.hkeys := rfl
@[simp] theorem State.withSig_hkeyLow (s : State) (g : Sig) : (s.withSig g).hkeyLow = s.hkeyLow := rfl
@[simp] theorem State.withSig_clasps (s : State) (g : Sig) : (s.withSig g).clasps = s.clasps := rfl
@[simp] theorem State.withSig_pool (s : State) (g : Sig) : (s.withSig g).pool = s.pool := rfl
@[simp] theorem State.withSig_map (s : State) (g : Sig) : (s.withSig g).map = s.map := rfl
@[simp] theorem State.withSig_evr (s : State) (g : Sig) : (s.withSig g).evr = s.evr := rfl
@[simp] theorem State.withSig_mec (s : State) (g : Sig) : (s.withSig g).mec = s.mec := rfl
@[simp] theorem State.withSig_flt (s : State) (g : Sig) : (s.withSig g).flt = s.flt := rfl
@[simp] theorem State.withSig_hqe (s : State) (g : Sig) : (s.withSig g).hqe = s.hqe := rfl
@[simp] theorem State.withSig_ns (s : State) (g : Sig) : (s.withSig g).ns = s.ns := rfl
@[simp] theorem State.withSig_seqs (s : State) (g : Sig) : (s.withSig g).seqs = s.seqs := rfl
@[simp] theorem State.withSig_assay (s : State) (g : Sig) : (s.withSig g).assay = s.assay := rfl
@[simp] theorem State.withSig_par (s : State) (g : Sig) : (s.withSig g).par = s.par := rfl
@[simp] theorem State.withSig_fw (s : State) (g : Sig) : (s.withSig g).fw = s.fw := rfl
@[simp] theorem State.withSig_boot (s : State) (g : Sig) : (s.withSig g).boot = s.boot := rfl
@[simp] theorem State.withSig_lkt (s : State) (g : Sig) : (s.withSig g).lkt = s.lkt := rfl
@[simp] theorem State.withSig_pwr (s : State) (g : Sig) : (s.withSig g).pwr = s.pwr := rfl
@[simp] theorem State.withSig_mgmt (s : State) (g : Sig) : (s.withSig g).mgmt = s.mgmt := rfl

@[simp] theorem State.withLkt_pending (s : State) (l : Lkt) : (s.withLkt l).pending = s.pending := rfl
@[simp] theorem State.withLkt_free (s : State) (l : Lkt) : (s.withLkt l).free = s.free := rfl
@[simp] theorem State.withLkt_part (s : State) (l : Lkt) : (s.withLkt l).part = s.part := rfl
@[simp] theorem State.withLkt_dramMiB (s : State) (l : Lkt) : (s.withLkt l).dramMiB = s.dramMiB := rfl
@[simp] theorem State.withLkt_now (s : State) (l : Lkt) : (s.withLkt l).now = s.now := rfl
@[simp] theorem State.withLkt_modeGo (s : State) (l : Lkt) : (s.withLkt l).modeGo = s.modeGo := rfl
@[simp] theorem State.withLkt_regs (s : State) (l : Lkt) : (s.withLkt l).regs = s.regs := rfl
@[simp] theorem State.withLkt_mem (s : State) (l : Lkt) : (s.withLkt l).mem = s.mem := rfl
@[simp] theorem State.withLkt_cores (s : State) (l : Lkt) : (s.withLkt l).cores = s.cores := rfl
@[simp] theorem State.withLkt_entries (s : State) (l : Lkt) : (s.withLkt l).entries = s.entries := rfl
@[simp] theorem State.withLkt_net (s : State) (l : Lkt) : (s.withLkt l).net = s.net := rfl
@[simp] theorem State.withLkt_mbox (s : State) (l : Lkt) : (s.withLkt l).mbox = s.mbox := rfl
@[simp] theorem State.withLkt_txSeq (s : State) (l : Lkt) : (s.withLkt l).txSeq = s.txSeq := rfl
@[simp] theorem State.withLkt_rxSeq (s : State) (l : Lkt) : (s.withLkt l).rxSeq = s.rxSeq := rfl
@[simp] theorem State.withLkt_hkeys (s : State) (l : Lkt) : (s.withLkt l).hkeys = s.hkeys := rfl
@[simp] theorem State.withLkt_hkeyLow (s : State) (l : Lkt) : (s.withLkt l).hkeyLow = s.hkeyLow := rfl
@[simp] theorem State.withLkt_clasps (s : State) (l : Lkt) : (s.withLkt l).clasps = s.clasps := rfl
@[simp] theorem State.withLkt_pool (s : State) (l : Lkt) : (s.withLkt l).pool = s.pool := rfl
@[simp] theorem State.withLkt_map (s : State) (l : Lkt) : (s.withLkt l).map = s.map := rfl
@[simp] theorem State.withLkt_evr (s : State) (l : Lkt) : (s.withLkt l).evr = s.evr := rfl
@[simp] theorem State.withLkt_mec (s : State) (l : Lkt) : (s.withLkt l).mec = s.mec := rfl
@[simp] theorem State.withLkt_flt (s : State) (l : Lkt) : (s.withLkt l).flt = s.flt := rfl
@[simp] theorem State.withLkt_hqe (s : State) (l : Lkt) : (s.withLkt l).hqe = s.hqe := rfl
@[simp] theorem State.withLkt_ns (s : State) (l : Lkt) : (s.withLkt l).ns = s.ns := rfl
@[simp] theorem State.withLkt_seqs (s : State) (l : Lkt) : (s.withLkt l).seqs = s.seqs := rfl
@[simp] theorem State.withLkt_assay (s : State) (l : Lkt) : (s.withLkt l).assay = s.assay := rfl
@[simp] theorem State.withLkt_par (s : State) (l : Lkt) : (s.withLkt l).par = s.par := rfl
@[simp] theorem State.withLkt_fw (s : State) (l : Lkt) : (s.withLkt l).fw = s.fw := rfl
@[simp] theorem State.withLkt_sig (s : State) (l : Lkt) : (s.withLkt l).sig = s.sig := rfl
@[simp] theorem State.withLkt_boot (s : State) (l : Lkt) : (s.withLkt l).boot = s.boot := rfl
@[simp] theorem State.withLkt_pwr (s : State) (l : Lkt) : (s.withLkt l).pwr = s.pwr := rfl
@[simp] theorem State.withLkt_mgmt (s : State) (l : Lkt) : (s.withLkt l).mgmt = s.mgmt := rfl

@[simp] theorem State.withPwr_pending (s : State) (p : Pwr) : (s.withPwr p).pending = s.pending := rfl
@[simp] theorem State.withPwr_free (s : State) (p : Pwr) : (s.withPwr p).free = s.free := rfl
@[simp] theorem State.withPwr_part (s : State) (p : Pwr) : (s.withPwr p).part = s.part := rfl
@[simp] theorem State.withPwr_dramMiB (s : State) (p : Pwr) : (s.withPwr p).dramMiB = s.dramMiB := rfl
@[simp] theorem State.withPwr_now (s : State) (p : Pwr) : (s.withPwr p).now = s.now := rfl
@[simp] theorem State.withPwr_modeGo (s : State) (p : Pwr) : (s.withPwr p).modeGo = s.modeGo := rfl
@[simp] theorem State.withPwr_regs (s : State) (p : Pwr) : (s.withPwr p).regs = s.regs := rfl
@[simp] theorem State.withPwr_mem (s : State) (p : Pwr) : (s.withPwr p).mem = s.mem := rfl
@[simp] theorem State.withPwr_cores (s : State) (p : Pwr) : (s.withPwr p).cores = s.cores := rfl
@[simp] theorem State.withPwr_entries (s : State) (p : Pwr) : (s.withPwr p).entries = s.entries := rfl
@[simp] theorem State.withPwr_net (s : State) (p : Pwr) : (s.withPwr p).net = s.net := rfl
@[simp] theorem State.withPwr_mbox (s : State) (p : Pwr) : (s.withPwr p).mbox = s.mbox := rfl
@[simp] theorem State.withPwr_txSeq (s : State) (p : Pwr) : (s.withPwr p).txSeq = s.txSeq := rfl
@[simp] theorem State.withPwr_rxSeq (s : State) (p : Pwr) : (s.withPwr p).rxSeq = s.rxSeq := rfl
@[simp] theorem State.withPwr_hkeys (s : State) (p : Pwr) : (s.withPwr p).hkeys = s.hkeys := rfl
@[simp] theorem State.withPwr_hkeyLow (s : State) (p : Pwr) : (s.withPwr p).hkeyLow = s.hkeyLow := rfl
@[simp] theorem State.withPwr_clasps (s : State) (p : Pwr) : (s.withPwr p).clasps = s.clasps := rfl
@[simp] theorem State.withPwr_pool (s : State) (p : Pwr) : (s.withPwr p).pool = s.pool := rfl
@[simp] theorem State.withPwr_map (s : State) (p : Pwr) : (s.withPwr p).map = s.map := rfl
@[simp] theorem State.withPwr_evr (s : State) (p : Pwr) : (s.withPwr p).evr = s.evr := rfl
@[simp] theorem State.withPwr_mec (s : State) (p : Pwr) : (s.withPwr p).mec = s.mec := rfl
@[simp] theorem State.withPwr_flt (s : State) (p : Pwr) : (s.withPwr p).flt = s.flt := rfl
@[simp] theorem State.withPwr_hqe (s : State) (p : Pwr) : (s.withPwr p).hqe = s.hqe := rfl
@[simp] theorem State.withPwr_ns (s : State) (p : Pwr) : (s.withPwr p).ns = s.ns := rfl
@[simp] theorem State.withPwr_seqs (s : State) (p : Pwr) : (s.withPwr p).seqs = s.seqs := rfl
@[simp] theorem State.withPwr_assay (s : State) (p : Pwr) : (s.withPwr p).assay = s.assay := rfl
@[simp] theorem State.withPwr_par (s : State) (p : Pwr) : (s.withPwr p).par = s.par := rfl
@[simp] theorem State.withPwr_fw (s : State) (p : Pwr) : (s.withPwr p).fw = s.fw := rfl
@[simp] theorem State.withPwr_sig (s : State) (p : Pwr) : (s.withPwr p).sig = s.sig := rfl
@[simp] theorem State.withPwr_boot (s : State) (p : Pwr) : (s.withPwr p).boot = s.boot := rfl
@[simp] theorem State.withPwr_lkt (s : State) (p : Pwr) : (s.withPwr p).lkt = s.lkt := rfl
@[simp] theorem State.withPwr_mgmt (s : State) (p : Pwr) : (s.withPwr p).mgmt = s.mgmt := rfl

@[simp] theorem State.withBoot_pending (s : State) (b : Boot) : (s.withBoot b).pending = s.pending := rfl
@[simp] theorem State.withBoot_free (s : State) (b : Boot) : (s.withBoot b).free = s.free := rfl
@[simp] theorem State.withBoot_part (s : State) (b : Boot) : (s.withBoot b).part = s.part := rfl
@[simp] theorem State.withBoot_dramMiB (s : State) (b : Boot) : (s.withBoot b).dramMiB = s.dramMiB := rfl
@[simp] theorem State.withBoot_now (s : State) (b : Boot) : (s.withBoot b).now = s.now := rfl
@[simp] theorem State.withBoot_modeGo (s : State) (b : Boot) : (s.withBoot b).modeGo = s.modeGo := rfl
@[simp] theorem State.withBoot_regs (s : State) (b : Boot) : (s.withBoot b).regs = s.regs := rfl
@[simp] theorem State.withBoot_mem (s : State) (b : Boot) : (s.withBoot b).mem = s.mem := rfl
@[simp] theorem State.withBoot_cores (s : State) (b : Boot) : (s.withBoot b).cores = s.cores := rfl
@[simp] theorem State.withBoot_entries (s : State) (b : Boot) : (s.withBoot b).entries = s.entries := rfl
@[simp] theorem State.withBoot_net (s : State) (b : Boot) : (s.withBoot b).net = s.net := rfl
@[simp] theorem State.withBoot_mbox (s : State) (b : Boot) : (s.withBoot b).mbox = s.mbox := rfl
@[simp] theorem State.withBoot_txSeq (s : State) (b : Boot) : (s.withBoot b).txSeq = s.txSeq := rfl
@[simp] theorem State.withBoot_rxSeq (s : State) (b : Boot) : (s.withBoot b).rxSeq = s.rxSeq := rfl
@[simp] theorem State.withBoot_hkeys (s : State) (b : Boot) : (s.withBoot b).hkeys = s.hkeys := rfl
@[simp] theorem State.withBoot_hkeyLow (s : State) (b : Boot) : (s.withBoot b).hkeyLow = s.hkeyLow := rfl
@[simp] theorem State.withBoot_clasps (s : State) (b : Boot) : (s.withBoot b).clasps = s.clasps := rfl
@[simp] theorem State.withBoot_pool (s : State) (b : Boot) : (s.withBoot b).pool = s.pool := rfl
@[simp] theorem State.withBoot_map (s : State) (b : Boot) : (s.withBoot b).map = s.map := rfl
@[simp] theorem State.withBoot_evr (s : State) (b : Boot) : (s.withBoot b).evr = s.evr := rfl
@[simp] theorem State.withBoot_mec (s : State) (b : Boot) : (s.withBoot b).mec = s.mec := rfl
@[simp] theorem State.withBoot_flt (s : State) (b : Boot) : (s.withBoot b).flt = s.flt := rfl
@[simp] theorem State.withBoot_hqe (s : State) (b : Boot) : (s.withBoot b).hqe = s.hqe := rfl
@[simp] theorem State.withBoot_ns (s : State) (b : Boot) : (s.withBoot b).ns = s.ns := rfl
@[simp] theorem State.withBoot_seqs (s : State) (b : Boot) : (s.withBoot b).seqs = s.seqs := rfl
@[simp] theorem State.withBoot_assay (s : State) (b : Boot) : (s.withBoot b).assay = s.assay := rfl
@[simp] theorem State.withBoot_par (s : State) (b : Boot) : (s.withBoot b).par = s.par := rfl
@[simp] theorem State.withBoot_fw (s : State) (b : Boot) : (s.withBoot b).fw = s.fw := rfl
@[simp] theorem State.withBoot_sig (s : State) (b : Boot) : (s.withBoot b).sig = s.sig := rfl
@[simp] theorem State.withBoot_lkt (s : State) (b : Boot) : (s.withBoot b).lkt = s.lkt := rfl
@[simp] theorem State.withBoot_pwr (s : State) (b : Boot) : (s.withBoot b).pwr = s.pwr := rfl
@[simp] theorem State.withBoot_mgmt (s : State) (b : Boot) : (s.withBoot b).mgmt = s.mgmt := rfl

@[simp] theorem State.setSq_pending (s : State) (q : Nat) (e : Seq) : (s.setSq q e).pending = s.pending := rfl
@[simp] theorem State.setSq_free (s : State) (q : Nat) (e : Seq) : (s.setSq q e).free = s.free := rfl
@[simp] theorem State.setSq_part (s : State) (q : Nat) (e : Seq) : (s.setSq q e).part = s.part := rfl
@[simp] theorem State.setSq_dramMiB (s : State) (q : Nat) (e : Seq) : (s.setSq q e).dramMiB = s.dramMiB := rfl
@[simp] theorem State.setSq_now (s : State) (q : Nat) (e : Seq) : (s.setSq q e).now = s.now := rfl
@[simp] theorem State.setSq_modeGo (s : State) (q : Nat) (e : Seq) : (s.setSq q e).modeGo = s.modeGo := rfl
@[simp] theorem State.setSq_regs (s : State) (q : Nat) (e : Seq) : (s.setSq q e).regs = s.regs := rfl
@[simp] theorem State.setSq_mem (s : State) (q : Nat) (e : Seq) : (s.setSq q e).mem = s.mem := rfl
@[simp] theorem State.setSq_cores (s : State) (q : Nat) (e : Seq) : (s.setSq q e).cores = s.cores := rfl
@[simp] theorem State.setSq_entries (s : State) (q : Nat) (e : Seq) : (s.setSq q e).entries = s.entries := rfl
@[simp] theorem State.setSq_net (s : State) (q : Nat) (e : Seq) : (s.setSq q e).net = s.net := rfl
@[simp] theorem State.setSq_mbox (s : State) (q : Nat) (e : Seq) : (s.setSq q e).mbox = s.mbox := rfl
@[simp] theorem State.setSq_txSeq (s : State) (q : Nat) (e : Seq) : (s.setSq q e).txSeq = s.txSeq := rfl
@[simp] theorem State.setSq_rxSeq (s : State) (q : Nat) (e : Seq) : (s.setSq q e).rxSeq = s.rxSeq := rfl
@[simp] theorem State.setSq_hkeys (s : State) (q : Nat) (e : Seq) : (s.setSq q e).hkeys = s.hkeys := rfl
@[simp] theorem State.setSq_hkeyLow (s : State) (q : Nat) (e : Seq) : (s.setSq q e).hkeyLow = s.hkeyLow := rfl
@[simp] theorem State.setSq_clasps (s : State) (q : Nat) (e : Seq) : (s.setSq q e).clasps = s.clasps := rfl
@[simp] theorem State.setSq_pool (s : State) (q : Nat) (e : Seq) : (s.setSq q e).pool = s.pool := rfl
@[simp] theorem State.setSq_map (s : State) (q : Nat) (e : Seq) : (s.setSq q e).map = s.map := rfl
@[simp] theorem State.setSq_evr (s : State) (q : Nat) (e : Seq) : (s.setSq q e).evr = s.evr := rfl
@[simp] theorem State.setSq_mec (s : State) (q : Nat) (e : Seq) : (s.setSq q e).mec = s.mec := rfl
@[simp] theorem State.setSq_flt (s : State) (q : Nat) (e : Seq) : (s.setSq q e).flt = s.flt := rfl
@[simp] theorem State.setSq_hqe (s : State) (q : Nat) (e : Seq) : (s.setSq q e).hqe = s.hqe := rfl
@[simp] theorem State.setSq_ns (s : State) (q : Nat) (e : Seq) : (s.setSq q e).ns = s.ns := rfl
@[simp] theorem State.setSq_assay (s : State) (q : Nat) (e : Seq) : (s.setSq q e).assay = s.assay := rfl
@[simp] theorem State.setSq_par (s : State) (q : Nat) (e : Seq) : (s.setSq q e).par = s.par := rfl
@[simp] theorem State.setSq_fw (s : State) (q : Nat) (e : Seq) : (s.setSq q e).fw = s.fw := rfl
@[simp] theorem State.setSq_sig (s : State) (q : Nat) (e : Seq) : (s.setSq q e).sig = s.sig := rfl
@[simp] theorem State.setSq_boot (s : State) (q : Nat) (e : Seq) : (s.setSq q e).boot = s.boot := rfl
@[simp] theorem State.setSq_lkt (s : State) (q : Nat) (e : Seq) : (s.setSq q e).lkt = s.lkt := rfl
@[simp] theorem State.setSq_pwr (s : State) (q : Nat) (e : Seq) : (s.setSq q e).pwr = s.pwr := rfl
@[simp] theorem State.setSq_mgmt (s : State) (q : Nat) (e : Seq) : (s.setSq q e).mgmt = s.mgmt := rfl

@[simp] theorem State.setSlot_pending (s : State) (k : Nat) (e : Slot) : (s.setSlot k e).pending = s.pending := rfl
@[simp] theorem State.setSlot_free (s : State) (k : Nat) (e : Slot) : (s.setSlot k e).free = s.free := rfl
@[simp] theorem State.setSlot_part (s : State) (k : Nat) (e : Slot) : (s.setSlot k e).part = s.part := rfl
@[simp] theorem State.setSlot_dramMiB (s : State) (k : Nat) (e : Slot) : (s.setSlot k e).dramMiB = s.dramMiB := rfl
@[simp] theorem State.setSlot_now (s : State) (k : Nat) (e : Slot) : (s.setSlot k e).now = s.now := rfl
@[simp] theorem State.setSlot_modeGo (s : State) (k : Nat) (e : Slot) : (s.setSlot k e).modeGo = s.modeGo := rfl
@[simp] theorem State.setSlot_regs (s : State) (k : Nat) (e : Slot) : (s.setSlot k e).regs = s.regs := rfl
@[simp] theorem State.setSlot_mem (s : State) (k : Nat) (e : Slot) : (s.setSlot k e).mem = s.mem := rfl
@[simp] theorem State.setSlot_cores (s : State) (k : Nat) (e : Slot) : (s.setSlot k e).cores = s.cores := rfl
@[simp] theorem State.setSlot_entries (s : State) (k : Nat) (e : Slot) : (s.setSlot k e).entries = s.entries := rfl
@[simp] theorem State.setSlot_net (s : State) (k : Nat) (e : Slot) : (s.setSlot k e).net = s.net := rfl
@[simp] theorem State.setSlot_mbox (s : State) (k : Nat) (e : Slot) : (s.setSlot k e).mbox = s.mbox := rfl
@[simp] theorem State.setSlot_txSeq (s : State) (k : Nat) (e : Slot) : (s.setSlot k e).txSeq = s.txSeq := rfl
@[simp] theorem State.setSlot_rxSeq (s : State) (k : Nat) (e : Slot) : (s.setSlot k e).rxSeq = s.rxSeq := rfl
@[simp] theorem State.setSlot_hkeys (s : State) (k : Nat) (e : Slot) : (s.setSlot k e).hkeys = s.hkeys := rfl
@[simp] theorem State.setSlot_hkeyLow (s : State) (k : Nat) (e : Slot) : (s.setSlot k e).hkeyLow = s.hkeyLow := rfl
@[simp] theorem State.setSlot_clasps (s : State) (k : Nat) (e : Slot) : (s.setSlot k e).clasps = s.clasps := rfl
@[simp] theorem State.setSlot_pool (s : State) (k : Nat) (e : Slot) : (s.setSlot k e).pool = s.pool := rfl
@[simp] theorem State.setSlot_map (s : State) (k : Nat) (e : Slot) : (s.setSlot k e).map = s.map := rfl
@[simp] theorem State.setSlot_evr (s : State) (k : Nat) (e : Slot) : (s.setSlot k e).evr = s.evr := rfl
@[simp] theorem State.setSlot_mec (s : State) (k : Nat) (e : Slot) : (s.setSlot k e).mec = s.mec := rfl
@[simp] theorem State.setSlot_flt (s : State) (k : Nat) (e : Slot) : (s.setSlot k e).flt = s.flt := rfl
@[simp] theorem State.setSlot_ns (s : State) (k : Nat) (e : Slot) : (s.setSlot k e).ns = s.ns := rfl
@[simp] theorem State.setSlot_seqs (s : State) (k : Nat) (e : Slot) : (s.setSlot k e).seqs = s.seqs := rfl
@[simp] theorem State.setSlot_assay (s : State) (k : Nat) (e : Slot) : (s.setSlot k e).assay = s.assay := rfl
@[simp] theorem State.setSlot_par (s : State) (k : Nat) (e : Slot) : (s.setSlot k e).par = s.par := rfl
@[simp] theorem State.setSlot_fw (s : State) (k : Nat) (e : Slot) : (s.setSlot k e).fw = s.fw := rfl
@[simp] theorem State.setSlot_sig (s : State) (k : Nat) (e : Slot) : (s.setSlot k e).sig = s.sig := rfl
@[simp] theorem State.setSlot_boot (s : State) (k : Nat) (e : Slot) : (s.setSlot k e).boot = s.boot := rfl
@[simp] theorem State.setSlot_lkt (s : State) (k : Nat) (e : Slot) : (s.setSlot k e).lkt = s.lkt := rfl
@[simp] theorem State.setSlot_pwr (s : State) (k : Nat) (e : Slot) : (s.setSlot k e).pwr = s.pwr := rfl
@[simp] theorem State.setSlot_mgmt (s : State) (k : Nat) (e : Slot) : (s.setSlot k e).mgmt = s.mgmt := rfl

@[simp] theorem State.setBead_pending (s : State) (b : Nat) (e : Bead) : (s.setBead b e).pending = s.pending := rfl
@[simp] theorem State.setBead_free (s : State) (b : Nat) (e : Bead) : (s.setBead b e).free = s.free := rfl
@[simp] theorem State.setBead_part (s : State) (b : Nat) (e : Bead) : (s.setBead b e).part = s.part := rfl
@[simp] theorem State.setBead_dramMiB (s : State) (b : Nat) (e : Bead) : (s.setBead b e).dramMiB = s.dramMiB := rfl
@[simp] theorem State.setBead_now (s : State) (b : Nat) (e : Bead) : (s.setBead b e).now = s.now := rfl
@[simp] theorem State.setBead_modeGo (s : State) (b : Nat) (e : Bead) : (s.setBead b e).modeGo = s.modeGo := rfl
@[simp] theorem State.setBead_regs (s : State) (b : Nat) (e : Bead) : (s.setBead b e).regs = s.regs := rfl
@[simp] theorem State.setBead_mem (s : State) (b : Nat) (e : Bead) : (s.setBead b e).mem = s.mem := rfl
@[simp] theorem State.setBead_cores (s : State) (b : Nat) (e : Bead) : (s.setBead b e).cores = s.cores := rfl
@[simp] theorem State.setBead_entries (s : State) (b : Nat) (e : Bead) : (s.setBead b e).entries = s.entries := rfl
@[simp] theorem State.setBead_net (s : State) (b : Nat) (e : Bead) : (s.setBead b e).net = s.net := rfl
@[simp] theorem State.setBead_mbox (s : State) (b : Nat) (e : Bead) : (s.setBead b e).mbox = s.mbox := rfl
@[simp] theorem State.setBead_txSeq (s : State) (b : Nat) (e : Bead) : (s.setBead b e).txSeq = s.txSeq := rfl
@[simp] theorem State.setBead_rxSeq (s : State) (b : Nat) (e : Bead) : (s.setBead b e).rxSeq = s.rxSeq := rfl
@[simp] theorem State.setBead_hkeys (s : State) (b : Nat) (e : Bead) : (s.setBead b e).hkeys = s.hkeys := rfl
@[simp] theorem State.setBead_hkeyLow (s : State) (b : Nat) (e : Bead) : (s.setBead b e).hkeyLow = s.hkeyLow := rfl
@[simp] theorem State.setBead_clasps (s : State) (b : Nat) (e : Bead) : (s.setBead b e).clasps = s.clasps := rfl
@[simp] theorem State.setBead_map (s : State) (b : Nat) (e : Bead) : (s.setBead b e).map = s.map := rfl
@[simp] theorem State.setBead_evr (s : State) (b : Nat) (e : Bead) : (s.setBead b e).evr = s.evr := rfl
@[simp] theorem State.setBead_mec (s : State) (b : Nat) (e : Bead) : (s.setBead b e).mec = s.mec := rfl
@[simp] theorem State.setBead_flt (s : State) (b : Nat) (e : Bead) : (s.setBead b e).flt = s.flt := rfl
@[simp] theorem State.setBead_hqe (s : State) (b : Nat) (e : Bead) : (s.setBead b e).hqe = s.hqe := rfl
@[simp] theorem State.setBead_ns (s : State) (b : Nat) (e : Bead) : (s.setBead b e).ns = s.ns := rfl
@[simp] theorem State.setBead_seqs (s : State) (b : Nat) (e : Bead) : (s.setBead b e).seqs = s.seqs := rfl
@[simp] theorem State.setBead_assay (s : State) (b : Nat) (e : Bead) : (s.setBead b e).assay = s.assay := rfl
@[simp] theorem State.setBead_par (s : State) (b : Nat) (e : Bead) : (s.setBead b e).par = s.par := rfl
@[simp] theorem State.setBead_fw (s : State) (b : Nat) (e : Bead) : (s.setBead b e).fw = s.fw := rfl
@[simp] theorem State.setBead_sig (s : State) (b : Nat) (e : Bead) : (s.setBead b e).sig = s.sig := rfl
@[simp] theorem State.setBead_boot (s : State) (b : Nat) (e : Bead) : (s.setBead b e).boot = s.boot := rfl
@[simp] theorem State.setBead_lkt (s : State) (b : Nat) (e : Bead) : (s.setBead b e).lkt = s.lkt := rfl
@[simp] theorem State.setBead_pwr (s : State) (b : Nat) (e : Bead) : (s.setBead b e).pwr = s.pwr := rfl
@[simp] theorem State.setBead_mgmt (s : State) (b : Nat) (e : Bead) : (s.setBead b e).mgmt = s.mgmt := rfl

@[simp] theorem State.alert_pending (s : State) : s.alert.pending = s.pending := rfl
@[simp] theorem State.alert_free (s : State) : s.alert.free = s.free := rfl
@[simp] theorem State.alert_part (s : State) : s.alert.part = s.part := rfl
@[simp] theorem State.alert_dramMiB (s : State) : s.alert.dramMiB = s.dramMiB := rfl
@[simp] theorem State.alert_now (s : State) : s.alert.now = s.now := rfl
@[simp] theorem State.alert_modeGo (s : State) : s.alert.modeGo = s.modeGo := rfl
@[simp] theorem State.alert_mem (s : State) : s.alert.mem = s.mem := rfl
@[simp] theorem State.alert_cores (s : State) : s.alert.cores = s.cores := rfl
@[simp] theorem State.alert_entries (s : State) : s.alert.entries = s.entries := rfl
@[simp] theorem State.alert_net (s : State) : s.alert.net = s.net := rfl
@[simp] theorem State.alert_mbox (s : State) : s.alert.mbox = s.mbox := rfl
@[simp] theorem State.alert_txSeq (s : State) : s.alert.txSeq = s.txSeq := rfl
@[simp] theorem State.alert_rxSeq (s : State) : s.alert.rxSeq = s.rxSeq := rfl
@[simp] theorem State.alert_hkeys (s : State) : s.alert.hkeys = s.hkeys := rfl
@[simp] theorem State.alert_hkeyLow (s : State) : s.alert.hkeyLow = s.hkeyLow := rfl
@[simp] theorem State.alert_clasps (s : State) : s.alert.clasps = s.clasps := rfl
@[simp] theorem State.alert_pool (s : State) : s.alert.pool = s.pool := rfl
@[simp] theorem State.alert_map (s : State) : s.alert.map = s.map := rfl
@[simp] theorem State.alert_evr (s : State) : s.alert.evr = s.evr := rfl
@[simp] theorem State.alert_mec (s : State) : s.alert.mec = s.mec := rfl
@[simp] theorem State.alert_flt (s : State) : s.alert.flt = s.flt := rfl
@[simp] theorem State.alert_hqe (s : State) : s.alert.hqe = s.hqe := rfl
@[simp] theorem State.alert_ns (s : State) : s.alert.ns = s.ns := rfl
@[simp] theorem State.alert_seqs (s : State) : s.alert.seqs = s.seqs := rfl
@[simp] theorem State.alert_assay (s : State) : s.alert.assay = s.assay := rfl
@[simp] theorem State.alert_par (s : State) : s.alert.par = s.par := rfl
@[simp] theorem State.alert_fw (s : State) : s.alert.fw = s.fw := rfl
@[simp] theorem State.alert_sig (s : State) : s.alert.sig = s.sig := rfl
@[simp] theorem State.alert_boot (s : State) : s.alert.boot = s.boot := rfl
@[simp] theorem State.alert_lkt (s : State) : s.alert.lkt = s.lkt := rfl
@[simp] theorem State.alert_pwr (s : State) : s.alert.pwr = s.pwr := rfl
@[simp] theorem State.alert_mgmt (s : State) : s.alert.mgmt = s.mgmt := rfl

@[simp] theorem State.setCfs_pending (s : State) : s.setCfs.pending = s.pending := rfl
@[simp] theorem State.setCfs_free (s : State) : s.setCfs.free = s.free := rfl
@[simp] theorem State.setCfs_part (s : State) : s.setCfs.part = s.part := rfl
@[simp] theorem State.setCfs_dramMiB (s : State) : s.setCfs.dramMiB = s.dramMiB := rfl
@[simp] theorem State.setCfs_now (s : State) : s.setCfs.now = s.now := rfl
@[simp] theorem State.setCfs_modeGo (s : State) : s.setCfs.modeGo = s.modeGo := rfl
@[simp] theorem State.setCfs_mem (s : State) : s.setCfs.mem = s.mem := rfl
@[simp] theorem State.setCfs_cores (s : State) : s.setCfs.cores = s.cores := rfl
@[simp] theorem State.setCfs_entries (s : State) : s.setCfs.entries = s.entries := rfl
@[simp] theorem State.setCfs_net (s : State) : s.setCfs.net = s.net := rfl
@[simp] theorem State.setCfs_mbox (s : State) : s.setCfs.mbox = s.mbox := rfl
@[simp] theorem State.setCfs_txSeq (s : State) : s.setCfs.txSeq = s.txSeq := rfl
@[simp] theorem State.setCfs_rxSeq (s : State) : s.setCfs.rxSeq = s.rxSeq := rfl
@[simp] theorem State.setCfs_hkeys (s : State) : s.setCfs.hkeys = s.hkeys := rfl
@[simp] theorem State.setCfs_hkeyLow (s : State) : s.setCfs.hkeyLow = s.hkeyLow := rfl
@[simp] theorem State.setCfs_clasps (s : State) : s.setCfs.clasps = s.clasps := rfl
@[simp] theorem State.setCfs_pool (s : State) : s.setCfs.pool = s.pool := rfl
@[simp] theorem State.setCfs_map (s : State) : s.setCfs.map = s.map := rfl
@[simp] theorem State.setCfs_evr (s : State) : s.setCfs.evr = s.evr := rfl
@[simp] theorem State.setCfs_mec (s : State) : s.setCfs.mec = s.mec := rfl
@[simp] theorem State.setCfs_flt (s : State) : s.setCfs.flt = s.flt := rfl
@[simp] theorem State.setCfs_ns (s : State) : s.setCfs.ns = s.ns := rfl
@[simp] theorem State.setCfs_seqs (s : State) : s.setCfs.seqs = s.seqs := rfl
@[simp] theorem State.setCfs_assay (s : State) : s.setCfs.assay = s.assay := rfl
@[simp] theorem State.setCfs_par (s : State) : s.setCfs.par = s.par := rfl
@[simp] theorem State.setCfs_fw (s : State) : s.setCfs.fw = s.fw := rfl
@[simp] theorem State.setCfs_sig (s : State) : s.setCfs.sig = s.sig := rfl
@[simp] theorem State.setCfs_boot (s : State) : s.setCfs.boot = s.boot := rfl
@[simp] theorem State.setCfs_lkt (s : State) : s.setCfs.lkt = s.lkt := rfl
@[simp] theorem State.setCfs_pwr (s : State) : s.setCfs.pwr = s.pwr := rfl
@[simp] theorem State.setCfs_mgmt (s : State) : s.setCfs.mgmt = s.mgmt := rfl

/-! ### The fields that an update does touch -/

@[simp] theorem State.withMem_mem (s : State) (m : Mem) : (s.withMem m).mem = m := rfl
@[simp] theorem State.withFw_fw (s : State) (f : Fw) : (s.withFw f).fw = f := rfl
@[simp] theorem State.withSig_sig (s : State) (g : Sig) : (s.withSig g).sig = g := rfl
@[simp] theorem State.withLkt_lkt (s : State) (l : Lkt) : (s.withLkt l).lkt = l := rfl
@[simp] theorem State.withPwr_pwr (s : State) (p : Pwr) : (s.withPwr p).pwr = p := rfl
@[simp] theorem State.withBoot_boot (s : State) (b : Boot) : (s.withBoot b).boot = b := rfl
@[simp] theorem State.tick_free (s : State) : s.tick.free = s.free + 1 := rfl

end Sys2Proof.Machine
end

