-- ==== Sys2Proof/Laws/Tab.lean ====
section
/-! SUPPORT. The laws of the sparse tables: what is read after a write or a removal, and that both keep the rising order. -/

namespace Sys2Proof.Machine

theorem tget_tput {α : Type} (t : Tab α) (k j : Nat) (v : α) : tget (tput t k v) j = if k = j then some v else tget t j := by
  induction t with
  | nil => simp [tput, tget]
  | cons e t ih =>
    obtain ⟨i, w⟩ := e
    unfold tput
    split
    · subst i; simp only [tget]; split <;> simp_all
    · split
      · simp only [tget]
      · simp only [tget, ih]
        by_cases hk : k = j <;> by_cases hi : i = j <;> simp_all

@[simp] theorem tget_tput_self {α : Type} (t : Tab α) (k : Nat) (v : α) : tget (tput t k v) k = some v := by
  simp [tget_tput]

theorem tget_tput_ne {α : Type} (t : Tab α) {k j : Nat} (v : α) (h : k ≠ j) : tget (tput t k v) j = tget t j := by
  simp [tget_tput, h]

@[simp] theorem tgetD_tput_self {α : Type} (t : Tab α) (k : Nat) (v d : α) : tgetD (tput t k v) k d = v := by
  simp [tgetD]

theorem tgetD_tput_ne {α : Type} (t : Tab α) {k j : Nat} (v d : α) (h : k ≠ j) :
    tgetD (tput t k v) j d = tgetD t j d := by
  simp [tgetD, tget_tput_ne t v h]

/-- A removal leaves every other entry. -/
theorem tget_tdel_ne {α : Type} (t : Tab α) {k j : Nat} (h : k ≠ j) : tget (tdel t k) j = tget t j := by
  induction t with
  | nil => rfl
  | cons e t ih =>
    obtain ⟨i, w⟩ := e
    unfold tdel
    split
    · subst i; simp [tget, h, ih]
    · simp only [tget, ih]

/-- What is removed is gone. -/
@[simp] theorem tget_tdel_self {α : Type} (t : Tab α) (k : Nat) : tget (tdel t k) k = none := by
  induction t with
  | nil => rfl
  | cons e t ih =>
    obtain ⟨i, w⟩ := e
    unfold tdel
    split
    · exact ih
    · simp [tget, *]

/-! ### The canonical form -/

theorem tabAbove_mono {α : Type} {a b : Nat} (h : a ≤ b) (t : Tab α) (ht : tabAbove b t = true) : tabAbove a t = true := by
  cases t with
  | nil => rfl
  | cons e t =>
    simp only [tabAbove, Bool.and_eq_true, decide_eq_true_eq] at *
    exact ⟨by omega, ht.2⟩

theorem tabWf_of_above {α : Type} {a : Nat} (t : Tab α) (h : tabAbove a t = true) : tabWf t = true := by
  cases t with
  | nil => rfl
  | cons e t =>
    simp only [tabAbove, Bool.and_eq_true] at h
    exact h.2

theorem tabAbove_tput {α : Type} (t : Tab α) {a k : Nat} (v : α) (hk : a < k) (h : tabAbove a t = true) :
    tabAbove a (tput t k v) = true := by
  induction t generalizing a with
  | nil => simp [tput, tabAbove, hk]
  | cons e t ih =>
    obtain ⟨j, w⟩ := e
    simp only [tabAbove, Bool.and_eq_true, decide_eq_true_eq] at h
    unfold tput
    split
    · subst j; simp [tabAbove, hk, h.2]
    · split
      · simp [tabAbove, h.2, *]
      · have hj : j < k := by omega
        simp [tabAbove, h.1, ih hj h.2]

/-- Entering a value keeps the canonical form. -/
theorem tabWf_tput {α : Type} (t : Tab α) (k : Nat) (v : α) (h : tabWf t = true) : tabWf (tput t k v) = true := by
  cases t with
  | nil => rfl
  | cons e t =>
    obtain ⟨j, w⟩ := e
    simp only [tabWf] at h
    unfold tput
    split
    · subst j; exact h
    · split
      · simp [tabWf, tabAbove, *]
      · simp only [tabWf]
        exact tabAbove_tput t v (by omega) h

theorem tabAbove_tdel {α : Type} (t : Tab α) {a : Nat} (k : Nat) (h : tabAbove a t = true) : tabAbove a (tdel t k) = true := by
  induction t generalizing a with
  | nil => rfl
  | cons e t ih =>
    obtain ⟨j, w⟩ := e
    simp only [tabAbove, Bool.and_eq_true, decide_eq_true_eq] at h
    unfold tdel
    split
    · exact ih (tabAbove_mono (by omega) t h.2)
    · simp [tabAbove, h.1, ih h.2]

/-- Removing an entry keeps the canonical form. -/
theorem tabWf_tdel {α : Type} (t : Tab α) (k : Nat) (h : tabWf t = true) : tabWf (tdel t k) = true := by
  cases t with
  | nil => rfl
  | cons e t =>
    obtain ⟨j, w⟩ := e
    simp only [tabWf] at h
    unfold tdel
    split
    · exact tabWf_of_above _ (tabAbove_tdel t k h)
    · exact tabAbove_tdel t k h

theorem tabAbove_filter {α : Type} (t : Tab α) {a : Nat} (p : Nat × α → Bool) (h : tabAbove a t = true) :
    tabAbove a (t.filter p) = true := by
  induction t generalizing a with
  | nil => rfl
  | cons e t ih =>
    obtain ⟨j, w⟩ := e
    simp only [tabAbove, Bool.and_eq_true, decide_eq_true_eq] at h
    simp only [List.filter]
    split
    · simp [tabAbove, h.1, ih h.2]
    · exact ih (tabAbove_mono (by omega) t h.2)

/-- Keeping some of the entries keeps the canonical form. -/
theorem tabWf_filter {α : Type} (t : Tab α) (p : Nat × α → Bool) (h : tabWf t = true) : tabWf (t.filter p) = true := by
  cases t with
  | nil => rfl
  | cons e t =>
    obtain ⟨j, w⟩ := e
    simp only [tabWf] at h
    simp only [List.filter]
    split
    · exact tabAbove_filter t p h
    · exact tabWf_of_above _ (tabAbove_filter t p h)

/-- Setting or clearing a mark keeps the canonical form. -/
theorem tabWf_sSet (t : Tab Unit) (k : Nat) (b : Bool) (h : tabWf t = true) : tabWf (sSet t k b) = true := by
  cases b
  · exact tabWf_tdel t k h
  · exact tabWf_tput t k () h

end Sys2Proof.Machine
end

