-- ==== Sys2Proof/Laws/Bits.lean ====
section
/-! SUPPORT. Bit fields of a double, and reading a register or a field after another was written. -/

namespace Sys2Proof.Machine

open Sys2Proof

/-! ### Bit fields -/

theorem testBit_bits (w : Word) (lo n i : Nat) : (bits w lo n).testBit i = (decide (i < n) && w.getLsbD (lo + i)) := by
  simp [bits, Nat.testBit_mod_two_pow, Nat.testBit_shiftRight, BitVec.getLsbD]

theorem testBit_mask (lo n i : Nat) : (fieldMask lo n).getLsbD i = (decide (i < 64) && decide (lo ≤ i) && decide (i < lo + n)) := by
  simp only [fieldMask, BitVec.getLsbD_ofNat, Nat.testBit_shiftLeft, Nat.testBit_two_pow_sub_one]
  by_cases h : lo ≤ i
  · have e : decide (i - lo < n) = decide (i < lo + n) := by rw [decide_eq_decide]; omega
    simp [h, e]
  · simp [h]

theorem getLsbD_setBits (w : Word) (lo n v i : Nat) (hi : i < 64) :
    (setBits w lo n v).getLsbD i = if lo ≤ i ∧ i < lo + n then v.testBit (i - lo) else w.getLsbD i := by
  simp only [setBits, BitVec.getLsbD_or, BitVec.getLsbD_and, BitVec.getLsbD_not, testBit_mask, BitVec.getLsbD_ofNat,
    Nat.testBit_shiftLeft, Nat.testBit_mod_two_pow]
  by_cases h1 : lo ≤ i
  · by_cases h2 : i < lo + n
    · have h3 : i - lo < n := by omega
      simp [hi, h1, h2, h3]
    · have h3 : ¬ i - lo < n := by omega
      simp [hi, h1, h2, h3]
  · simp [hi, h1]

/-- A field reads back what was put there. -/
theorem bits_setBits_self (w : Word) (lo n v : Nat) (h : lo + n ≤ 64) : bits (setBits w lo n v) lo n = v % 2 ^ n := by
  apply Nat.eq_of_testBit_eq
  intro i
  rw [testBit_bits, Nat.testBit_mod_two_pow]
  by_cases hi : i < n
  · rw [getLsbD_setBits _ _ _ _ _ (by omega)]
    simp [hi]
  · simp [hi]

/-- A field that does not meet the one written keeps its value. -/
theorem bits_setBits_ne (w : Word) (lo n v lo' n' : Nat) (h : lo' + n' ≤ lo ∨ lo + n ≤ lo') :
    bits (setBits w lo n v) lo' n' = bits w lo' n' := by
  apply Nat.eq_of_testBit_eq
  intro i
  simp only [testBit_bits]
  by_cases hi : i < n'
  · by_cases h64 : lo' + i < 64
    · rw [getLsbD_setBits _ _ _ _ _ h64, if_neg (by omega)]
    · simp only [BitVec.getLsbD_of_ge _ _ (Nat.le_of_not_lt h64)]
  · simp [hi]

theorem bit_setBits (w : Word) (lo n v i : Nat) (hi : i < 64) :
    bit (setBits w lo n v) i = if lo ≤ i ∧ i < lo + n then v.testBit (i - lo) else bit w i :=
  getLsbD_setBits w lo n v i hi

theorem bits_lt (w : Word) (lo n : Nat) : bits w lo n < 2 ^ n := Nat.mod_lt _ (Nat.two_pow_pos n)

theorem bits_zero (lo n : Nat) : bits 0#64 lo n = 0 := by simp [bits]

/-! ### Registers -/

theorem reg_setReg (s : State) (o o' : Nat) (w : Word) :
    (s.setReg o w).reg o' = if o = o' then w else s.reg o' := by
  by_cases h : o = o'
  · simp [State.reg, State.setReg, h]
  · simp [State.reg, State.setReg, tget_tput, h]

@[simp] theorem reg_setReg_self (s : State) (o : Nat) (w : Word) : (s.setReg o w).reg o = w := by simp [reg_setReg]

theorem reg_setReg_ne (s : State) {o o' : Nat} (w : Word) (h : o ≠ o') : (s.setReg o w).reg o' = s.reg o' := by
  simp [reg_setReg, h]

/-- A register is read from the register table and the part alone. -/
theorem reg_congr {s t : State} (hr : t.regs = s.regs) (hp : t.part = s.part) (o : Nat) : t.reg o = s.reg o := by
  unfold State.reg; rw [hr, hp]

theorem reg_setFld_ne (s : State) (f : Fld) (v o : Nat) (h : f.off ≠ o) : (s.setFld f v).reg o = s.reg o :=
  reg_setReg_ne s _ h

@[simp] theorem reg_setFld_self (s : State) (f : Fld) (v : Nat) :
    (s.setFld f v).reg f.off = setBits (s.reg f.off) f.lo f.width v := reg_setReg_self ..

@[simp] theorem fld_setFld_self (s : State) (f : Fld) (v : Nat) (h : f.lo + f.width ≤ 64) :
    (s.setFld f v).fld f = v % 2 ^ f.width := by
  simp [State.fld, bits_setBits_self _ _ _ _ h]

/-- A field keeps its value where another register, or a field that does not meet it, is written. -/
theorem fld_setFld_ne (s : State) (f g : Fld) (v : Nat)
    (h : f.off ≠ g.off ∨ g.lo + g.width ≤ f.lo ∨ f.lo + f.width ≤ g.lo) : (s.setFld f v).fld g = s.fld g := by
  by_cases ho : f.off = g.off
  · have h' : g.lo + g.width ≤ f.lo ∨ f.lo + f.width ≤ g.lo := by
      rcases h with h | h
      · exact absurd ho h
      · exact h
    simp only [State.fld, ← ho, reg_setFld_self]
    exact bits_setBits_ne _ _ _ _ _ _ h'
  · simp [State.fld, reg_setFld_ne _ _ _ _ ho]

theorem fld_setReg_ne (s : State) (o : Nat) (w : Word) (g : Fld) (h : o ≠ g.off) : (s.setReg o w).fld g = s.fld g := by
  simp [State.fld, reg_setReg_ne s w h]

@[simp] theorem fld_setReg_self (s : State) (g : Fld) (w : Word) : (s.setReg g.off w).fld g = bits w g.lo g.width := by
  simp [State.fld]

theorem flag_setFld_ne (s : State) (f g : Fld) (v : Nat)
    (h : f.off ≠ g.off ∨ g.lo + g.width ≤ f.lo ∨ f.lo + f.width ≤ g.lo) : (s.setFld f v).flag g = s.flag g := by
  simp [State.flag, fld_setFld_ne s f g v h]

@[simp] theorem flag_setFld_self (s : State) (f : Fld) (v : Nat) (h : f.lo + f.width ≤ 64) :
    (s.setFld f v).flag f = (v % 2 ^ f.width != 0) := by
  simp [State.flag, h]

theorem flag_eq_true {s : State} {f : Fld} : s.flag f = true ↔ s.fld f ≠ 0 := by simp [State.flag]

theorem flag_eq_false {s : State} {f : Fld} : s.flag f = false ↔ s.fld f = 0 := by simp [State.flag]

end Sys2Proof.Machine
end

