-- ==== Sys2Proof/Laws/Log.lean ====
section
/-! SUPPORT. Logging an event record, and what it leaves alone: it touches the recorder, its registers and, for a notice, the
Chain, and nothing else. -/

namespace Sys2Proof.Machine

open Sys2Proof

/-- From `s` to `t` nothing changes but the recorder, its registers, the codewords it writes in the Locket, and the messages
that a notice adds to the Chain. -/
structure EvrOnly (s t : State) : Prop where
  same : t = { s with regs := t.regs, evr := t.evr, net := t.net, txSeq := t.txSeq, lkt := t.lkt }
  regs : ∀ o, ¬(0x570000 ≤ o ∧ o < 0x580000) → t.reg o = s.reg o

namespace EvrOnly

theorem refl (s : State) : EvrOnly s s := ⟨rfl, fun _ _ => rfl⟩

theorem trans {s t u : State} (h : EvrOnly s t) (k : EvrOnly t u) : EvrOnly s u :=
  ⟨by have e := k.same; rw [h.same] at e; exact e, fun o ho => (k.regs o ho).trans (h.regs o ho)⟩

theorem setFld (s : State) (f : Fld) (v : Nat) (h : 0x570000 ≤ f.off ∧ f.off < 0x580000) : EvrOnly s (s.setFld f v) :=
  ⟨rfl, fun o ho => reg_setFld_ne s f v o (fun e => ho (e ▸ h))⟩

theorem withEvr (s : State) (e : Evr) : EvrOnly s { s with evr := e } := ⟨rfl, fun _ _ => rfl⟩

theorem chainSend (s : State) (a b m u : Nat) (p : BitVec 512) : EvrOnly s (s.chainSend a b m u p) := ⟨rfl, fun _ _ => rfl⟩

theorem foldl {α : Type} (f : State → α → State) (hf : ∀ t a, EvrOnly t (f t a)) (l : List α) (s : State) :
    EvrOnly s (l.foldl f s) := by
  induction l generalizing s with
  | nil => exact refl s
  | cons a l ih => exact (hf s a).trans (ih (f s a))

theorem foldl_pair {α : Type} (f : State × List Record → α → State × List Record)
    (hf : ∀ t a, EvrOnly t.1 (f t a).1) (l : List α) (x : State × List Record) : EvrOnly x.1 (l.foldl f x).1 := by
  induction l generalizing x with
  | nil => exact refl x.1
  | cons a l ih => exact (hf x a).trans (ih (f x a))

theorem withLkt (s : State) (e : Evr) (l : Lkt) : EvrOnly s { s with evr := e, lkt := l } := ⟨rfl, fun _ _ => rfl⟩

theorem counterWord (s : State) : EvrOnly s s.counterWord := withLkt s _ _

theorem showPending (s : State) : EvrOnly s s.showPending := setFld s fEVR_STAT_PPEND _ (by decide)

theorem nextNumber (s : State) : EvrOnly s s.nextNumber := by
  unfold State.nextNumber
  refine (setFld s fEVR_NEXT_SEQ (s.fld fEVR_NEXT_SEQ + 1) (by decide)).trans ?_
  dsimp only
  split
  · exact (withEvr _ _).trans (counterWord _)
  · exact refl _

theorem dropped (s : State) (n : Nat) : EvrOnly s (s.dropped n) :=
  (setFld s fEVR_STAT_DROPPED _ (by decide)).trans (withEvr _ _)

theorem persist (s : State) (r : Record) : EvrOnly s (s.persist r) := by
  unfold State.persist
  split
  · exact (withEvr s _).trans (showPending _)
  · exact refl s

theorem acceptAll (s : State) (ds : List Draft) : EvrOnly s (s.acceptAll ds).1 := by
  unfold State.acceptAll
  dsimp only
  split
  · split
    · exact dropped s _
    · refine EvrOnly.trans ?_ (foldl_pair _ (fun a d => ?_) ds _)
      · exact withEvr s _
      · exact (((nextNumber a.1).trans (withEvr _ _)).trans (setFld _ fEVR_STAT_COUNT _ (by decide))).trans (persist _ _)
  split
  · exact foldl_pair _ (fun a d => ((nextNumber a.1).trans (withEvr _ _)).trans (persist _ _)) ds (s, [])
  · exact dropped s _

theorem alert (s : State) : EvrOnly s s.alert := setFld s fEVR_STAT_ALERT 1 (by decide)

theorem alertFor (s : State) (r : Record) : EvrOnly s (s.alertFor r) := by
  unfold State.alertFor
  split
  · exact alert s
  · exact refl s

theorem logQuiet (s : State) (ds : List Draft) : EvrOnly s (s.logQuiet ds) := by
  unfold State.logQuiet
  dsimp only
  split
  · exact refl s
  · exact (acceptAll s ds).trans (foldl _ alertFor _ _)

theorem evrNotice (s : State) (r : Record) : EvrOnly s (s.evrNotice r) := by
  unfold State.evrNotice
  dsimp only
  split
  · split
    · exact logQuiet s _
    · exact chainSend s _ _ _ _ _
  · exact refl s

theorem logAll (s : State) (ds : List Draft) : EvrOnly s (s.logAll ds) := by
  unfold State.logAll
  dsimp only
  split
  · exact refl s
  · exact (acceptAll s ds).trans (foldl _ (fun t r => (alertFor t r).trans (evrNotice _ r)) _ _)

theorem hwSend (s : State) (a b m u : Nat) (p : BitVec 512) : EvrOnly s (s.hwSend a b m u p) := by
  unfold State.hwSend
  split
  · exact logAll s _
  · exact chainSend s _ _ _ _ _

theorem faultTold (s : State) (k u : Nat) (i m : Bool) (r a : Nat) : EvrOnly s (s.faultTold k u i m r a) := by
  unfold State.faultTold
  dsimp only
  refine EvrOnly.trans (t := if s.flag fFLT_NOTE_EN = true then _ else s) ?_ (logAll _ _)
  split
  · exact hwSend s _ _ _ _ _
  · exact refl s

theorem tell (s : State) (v : Nat) (e : Told) (a : Nat) : EvrOnly s (s.tell v e a) := logAll s _

theorem secRecord (s : State) (e a : Nat) : EvrOnly s (s.secRecord e a) := logAll s _

end EvrOnly

/-! ### Field by field -/

theorem State.logAll_evrOnly (s : State) (ds : List Draft) : EvrOnly s (s.logAll ds) := EvrOnly.logAll s _
@[simp] theorem State.logAll_pending (s : State) (ds : List Draft) : (s.logAll ds).pending = s.pending :=
  (congrArg State.pending (State.logAll_evrOnly s ds).same).trans rfl
@[simp] theorem State.logAll_free (s : State) (ds : List Draft) : (s.logAll ds).free = s.free :=
  (congrArg State.free (State.logAll_evrOnly s ds).same).trans rfl
@[simp] theorem State.logAll_part (s : State) (ds : List Draft) : (s.logAll ds).part = s.part :=
  (congrArg State.part (State.logAll_evrOnly s ds).same).trans rfl
@[simp] theorem State.logAll_dramMiB (s : State) (ds : List Draft) : (s.logAll ds).dramMiB = s.dramMiB :=
  (congrArg State.dramMiB (State.logAll_evrOnly s ds).same).trans rfl
@[simp] theorem State.logAll_now (s : State) (ds : List Draft) : (s.logAll ds).now = s.now :=
  (congrArg State.now (State.logAll_evrOnly s ds).same).trans rfl
@[simp] theorem State.logAll_mem (s : State) (ds : List Draft) : (s.logAll ds).mem = s.mem :=
  (congrArg State.mem (State.logAll_evrOnly s ds).same).trans rfl
@[simp] theorem State.logAll_cores (s : State) (ds : List Draft) : (s.logAll ds).cores = s.cores :=
  (congrArg State.cores (State.logAll_evrOnly s ds).same).trans rfl
@[simp] theorem State.logAll_entries (s : State) (ds : List Draft) : (s.logAll ds).entries = s.entries :=
  (congrArg State.entries (State.logAll_evrOnly s ds).same).trans rfl
@[simp] theorem State.logAll_mbox (s : State) (ds : List Draft) : (s.logAll ds).mbox = s.mbox :=
  (congrArg State.mbox (State.logAll_evrOnly s ds).same).trans rfl
@[simp] theorem State.logAll_rxSeq (s : State) (ds : List Draft) : (s.logAll ds).rxSeq = s.rxSeq :=
  (congrArg State.rxSeq (State.logAll_evrOnly s ds).same).trans rfl
@[simp] theorem State.logAll_hkeys (s : State) (ds : List Draft) : (s.logAll ds).hkeys = s.hkeys :=
  (congrArg State.hkeys (State.logAll_evrOnly s ds).same).trans rfl
@[simp] theorem State.logAll_hkeyLow (s : State) (ds : List Draft) : (s.logAll ds).hkeyLow = s.hkeyLow :=
  (congrArg State.hkeyLow (State.logAll_evrOnly s ds).same).trans rfl
@[simp] theorem State.logAll_clasps (s : State) (ds : List Draft) : (s.logAll ds).clasps = s.clasps :=
  (congrArg State.clasps (State.logAll_evrOnly s ds).same).trans rfl
@[simp] theorem State.logAll_pool (s : State) (ds : List Draft) : (s.logAll ds).pool = s.pool :=
  (congrArg State.pool (State.logAll_evrOnly s ds).same).trans rfl
@[simp] theorem State.logAll_map (s : State) (ds : List Draft) : (s.logAll ds).map = s.map :=
  (congrArg State.map (State.logAll_evrOnly s ds).same).trans rfl
@[simp] theorem State.logAll_mec (s : State) (ds : List Draft) : (s.logAll ds).mec = s.mec :=
  (congrArg State.mec (State.logAll_evrOnly s ds).same).trans rfl
@[simp] theorem State.logAll_flt (s : State) (ds : List Draft) : (s.logAll ds).flt = s.flt :=
  (congrArg State.flt (State.logAll_evrOnly s ds).same).trans rfl
@[simp] theorem State.logAll_hqe (s : State) (ds : List Draft) : (s.logAll ds).hqe = s.hqe :=
  (congrArg State.hqe (State.logAll_evrOnly s ds).same).trans rfl
@[simp] theorem State.logAll_ns (s : State) (ds : List Draft) : (s.logAll ds).ns = s.ns :=
  (congrArg State.ns (State.logAll_evrOnly s ds).same).trans rfl
@[simp] theorem State.logAll_seqs (s : State) (ds : List Draft) : (s.logAll ds).seqs = s.seqs :=
  (congrArg State.seqs (State.logAll_evrOnly s ds).same).trans rfl
@[simp] theorem State.logAll_assay (s : State) (ds : List Draft) : (s.logAll ds).assay = s.assay :=
  (congrArg State.assay (State.logAll_evrOnly s ds).same).trans rfl
@[simp] theorem State.logAll_par (s : State) (ds : List Draft) : (s.logAll ds).par = s.par :=
  (congrArg State.par (State.logAll_evrOnly s ds).same).trans rfl
@[simp] theorem State.logAll_fw (s : State) (ds : List Draft) : (s.logAll ds).fw = s.fw :=
  (congrArg State.fw (State.logAll_evrOnly s ds).same).trans rfl
@[simp] theorem State.logAll_sig (s : State) (ds : List Draft) : (s.logAll ds).sig = s.sig :=
  (congrArg State.sig (State.logAll_evrOnly s ds).same).trans rfl
@[simp] theorem State.logAll_boot (s : State) (ds : List Draft) : (s.logAll ds).boot = s.boot :=
  (congrArg State.boot (State.logAll_evrOnly s ds).same).trans rfl
@[simp] theorem State.logAll_pwr (s : State) (ds : List Draft) : (s.logAll ds).pwr = s.pwr :=
  (congrArg State.pwr (State.logAll_evrOnly s ds).same).trans rfl
@[simp] theorem State.logAll_mgmt (s : State) (ds : List Draft) : (s.logAll ds).mgmt = s.mgmt :=
  (congrArg State.mgmt (State.logAll_evrOnly s ds).same).trans rfl
theorem State.logAll_reg (s : State) (ds : List Draft) (o : Nat) (h : o < 0x570000 ∨ 0x580000 ≤ o) : (s.logAll ds).reg o = s.reg o :=
  (State.logAll_evrOnly s ds).regs o (by omega)
@[simp] theorem State.logAll_fld (s : State) (ds : List Draft) (f : Fld) (h : f.off < 0x570000 ∨ 0x580000 ≤ f.off) :
    (s.logAll ds).fld f = s.fld f := by
  unfold State.fld; rw [State.logAll_reg _ ds _ h]
@[simp] theorem State.logAll_flag (s : State) (ds : List Draft) (f : Fld) (h : f.off < 0x570000 ∨ 0x580000 ≤ f.off) :
    (s.logAll ds).flag f = s.flag f := by
  unfold State.flag; rw [State.logAll_fld _ ds _ h]

theorem State.log_evrOnly (s : State) (v u k : Nat) (b : BitVec 256) : EvrOnly s (s.log v u k b) := EvrOnly.logAll s _
@[simp] theorem State.log_pending (s : State) (v u k : Nat) (b : BitVec 256) : (s.log v u k b).pending = s.pending :=
  (congrArg State.pending (State.log_evrOnly s v u k b).same).trans rfl
@[simp] theorem State.log_free (s : State) (v u k : Nat) (b : BitVec 256) : (s.log v u k b).free = s.free :=
  (congrArg State.free (State.log_evrOnly s v u k b).same).trans rfl
@[simp] theorem State.log_part (s : State) (v u k : Nat) (b : BitVec 256) : (s.log v u k b).part = s.part :=
  (congrArg State.part (State.log_evrOnly s v u k b).same).trans rfl
@[simp] theorem State.log_dramMiB (s : State) (v u k : Nat) (b : BitVec 256) : (s.log v u k b).dramMiB = s.dramMiB :=
  (congrArg State.dramMiB (State.log_evrOnly s v u k b).same).trans rfl
@[simp] theorem State.log_now (s : State) (v u k : Nat) (b : BitVec 256) : (s.log v u k b).now = s.now :=
  (congrArg State.now (State.log_evrOnly s v u k b).same).trans rfl
@[simp] theorem State.log_mem (s : State) (v u k : Nat) (b : BitVec 256) : (s.log v u k b).mem = s.mem :=
  (congrArg State.mem (State.log_evrOnly s v u k b).same).trans rfl
@[simp] theorem State.log_cores (s : State) (v u k : Nat) (b : BitVec 256) : (s.log v u k b).cores = s.cores :=
  (congrArg State.cores (State.log_evrOnly s v u k b).same).trans rfl
@[simp] theorem State.log_entries (s : State) (v u k : Nat) (b : BitVec 256) : (s.log v u k b).entries = s.entries :=
  (congrArg State.entries (State.log_evrOnly s v u k b).same).trans rfl
@[simp] theorem State.log_mbox (s : State) (v u k : Nat) (b : BitVec 256) : (s.log v u k b).mbox = s.mbox :=
  (congrArg State.mbox (State.log_evrOnly s v u k b).same).trans rfl
@[simp] theorem State.log_rxSeq (s : State) (v u k : Nat) (b : BitVec 256) : (s.log v u k b).rxSeq = s.rxSeq :=
  (congrArg State.rxSeq (State.log_evrOnly s v u k b).same).trans rfl
@[simp] theorem State.log_hkeys (s : State) (v u k : Nat) (b : BitVec 256) : (s.log v u k b).hkeys = s.hkeys :=
  (congrArg State.hkeys (State.log_evrOnly s v u k b).same).trans rfl
@[simp] theorem State.log_hkeyLow (s : State) (v u k : Nat) (b : BitVec 256) : (s.log v u k b).hkeyLow = s.hkeyLow :=
  (congrArg State.hkeyLow (State.log_evrOnly s v u k b).same).trans rfl
@[simp] theorem State.log_clasps (s : State) (v u k : Nat) (b : BitVec 256) : (s.log v u k b).clasps = s.clasps :=
  (congrArg State.clasps (State.log_evrOnly s v u k b).same).trans rfl
@[simp] theorem State.log_pool (s : State) (v u k : Nat) (b : BitVec 256) : (s.log v u k b).pool = s.pool :=
  (congrArg State.pool (State.log_evrOnly s v u k b).same).trans rfl
@[simp] theorem State.log_map (s : State) (v u k : Nat) (b : BitVec 256) : (s.log v u k b).map = s.map :=
  (congrArg State.map (State.log_evrOnly s v u k b).same).trans rfl
@[simp] theorem State.log_mec (s : State) (v u k : Nat) (b : BitVec 256) : (s.log v u k b).mec = s.mec :=
  (congrArg State.mec (State.log_evrOnly s v u k b).same).trans rfl
@[simp] theorem State.log_flt (s : State) (v u k : Nat) (b : BitVec 256) : (s.log v u k b).flt = s.flt :=
  (congrArg State.flt (State.log_evrOnly s v u k b).same).trans rfl
@[simp] theorem State.log_hqe (s : State) (v u k : Nat) (b : BitVec 256) : (s.log v u k b).hqe = s.hqe :=
  (congrArg State.hqe (State.log_evrOnly s v u k b).same).trans rfl
@[simp] theorem State.log_ns (s : State) (v u k : Nat) (b : BitVec 256) : (s.log v u k b).ns = s.ns :=
  (congrArg State.ns (State.log_evrOnly s v u k b).same).trans rfl
@[simp] theorem State.log_seqs (s : State) (v u k : Nat) (b : BitVec 256) : (s.log v u k b).seqs = s.seqs :=
  (congrArg State.seqs (State.log_evrOnly s v u k b).same).trans rfl
@[simp] theorem State.log_assay (s : State) (v u k : Nat) (b : BitVec 256) : (s.log v u k b).assay = s.assay :=
  (congrArg State.assay (State.log_evrOnly s v u k b).same).trans rfl
@[simp] theorem State.log_par (s : State) (v u k : Nat) (b : BitVec 256) : (s.log v u k b).par = s.par :=
  (congrArg State.par (State.log_evrOnly s v u k b).same).trans rfl
@[simp] theorem State.log_fw (s : State) (v u k : Nat) (b : BitVec 256) : (s.log v u k b).fw = s.fw :=
  (congrArg State.fw (State.log_evrOnly s v u k b).same).trans rfl
@[simp] theorem State.log_sig (s : State) (v u k : Nat) (b : BitVec 256) : (s.log v u k b).sig = s.sig :=
  (congrArg State.sig (State.log_evrOnly s v u k b).same).trans rfl
@[simp] theorem State.log_boot (s : State) (v u k : Nat) (b : BitVec 256) : (s.log v u k b).boot = s.boot :=
  (congrArg State.boot (State.log_evrOnly s v u k b).same).trans rfl
@[simp] theorem State.log_pwr (s : State) (v u k : Nat) (b : BitVec 256) : (s.log v u k b).pwr = s.pwr :=
  (congrArg State.pwr (State.log_evrOnly s v u k b).same).trans rfl
@[simp] theorem State.log_mgmt (s : State) (v u k : Nat) (b : BitVec 256) : (s.log v u k b).mgmt = s.mgmt :=
  (congrArg State.mgmt (State.log_evrOnly s v u k b).same).trans rfl
theorem State.log_reg (s : State) (v u k : Nat) (b : BitVec 256) (o : Nat) (h : o < 0x570000 ∨ 0x580000 ≤ o) : (s.log v u k b).reg o = s.reg o :=
  (State.log_evrOnly s v u k b).regs o (by omega)
@[simp] theorem State.log_fld (s : State) (v u k : Nat) (b : BitVec 256) (f : Fld) (h : f.off < 0x570000 ∨ 0x580000 ≤ f.off) :
    (s.log v u k b).fld f = s.fld f := by
  unfold State.fld; rw [State.log_reg _ v u k b _ h]
@[simp] theorem State.log_flag (s : State) (v u k : Nat) (b : BitVec 256) (f : Fld) (h : f.off < 0x570000 ∨ 0x580000 ≤ f.off) :
    (s.log v u k b).flag f = s.flag f := by
  unfold State.flag; rw [State.log_fld _ v u k b _ h]

theorem State.logInj_evrOnly (s : State) (v u k : Nat) (i : Bool) (b : BitVec 256) : EvrOnly s (s.logInj v u k i b) := EvrOnly.logAll s _
@[simp] theorem State.logInj_pending (s : State) (v u k : Nat) (i : Bool) (b : BitVec 256) : (s.logInj v u k i b).pending = s.pending :=
  (congrArg State.pending (State.logInj_evrOnly s v u k i b).same).trans rfl
@[simp] theorem State.logInj_free (s : State) (v u k : Nat) (i : Bool) (b : BitVec 256) : (s.logInj v u k i b).free = s.free :=
  (congrArg State.free (State.logInj_evrOnly s v u k i b).same).trans rfl
@[simp] theorem State.logInj_part (s : State) (v u k : Nat) (i : Bool) (b : BitVec 256) : (s.logInj v u k i b).part = s.part :=
  (congrArg State.part (State.logInj_evrOnly s v u k i b).same).trans rfl
@[simp] theorem State.logInj_dramMiB (s : State) (v u k : Nat) (i : Bool) (b : BitVec 256) : (s.logInj v u k i b).dramMiB = s.dramMiB :=
  (congrArg State.dramMiB (State.logInj_evrOnly s v u k i b).same).trans rfl
@[simp] theorem State.logInj_now (s : State) (v u k : Nat) (i : Bool) (b : BitVec 256) : (s.logInj v u k i b).now = s.now :=
  (congrArg State.now (State.logInj_evrOnly s v u k i b).same).trans rfl
@[simp] theorem State.logInj_mem (s : State) (v u k : Nat) (i : Bool) (b : BitVec 256) : (s.logInj v u k i b).mem = s.mem :=
  (congrArg State.mem (State.logInj_evrOnly s v u k i b).same).trans rfl
@[simp] theorem State.logInj_cores (s : State) (v u k : Nat) (i : Bool) (b : BitVec 256) : (s.logInj v u k i b).cores = s.cores :=
  (congrArg State.cores (State.logInj_evrOnly s v u k i b).same).trans rfl
@[simp] theorem State.logInj_entries (s : State) (v u k : Nat) (i : Bool) (b : BitVec 256) : (s.logInj v u k i b).entries = s.entries :=
  (congrArg State.entries (State.logInj_evrOnly s v u k i b).same).trans rfl
@[simp] theorem State.logInj_mbox (s : State) (v u k : Nat) (i : Bool) (b : BitVec 256) : (s.logInj v u k i b).mbox = s.mbox :=
  (congrArg State.mbox (State.logInj_evrOnly s v u k i b).same).trans rfl
@[simp] theorem State.logInj_rxSeq (s : State) (v u k : Nat) (i : Bool) (b : BitVec 256) : (s.logInj v u k i b).rxSeq = s.rxSeq :=
  (congrArg State.rxSeq (State.logInj_evrOnly s v u k i b).same).trans rfl
@[simp] theorem State.logInj_hkeys (s : State) (v u k : Nat) (i : Bool) (b : BitVec 256) : (s.logInj v u k i b).hkeys = s.hkeys :=
  (congrArg State.hkeys (State.logInj_evrOnly s v u k i b).same).trans rfl
@[simp] theorem State.logInj_hkeyLow (s : State) (v u k : Nat) (i : Bool) (b : BitVec 256) : (s.logInj v u k i b).hkeyLow = s.hkeyLow :=
  (congrArg State.hkeyLow (State.logInj_evrOnly s v u k i b).same).trans rfl
@[simp] theorem State.logInj_clasps (s : State) (v u k : Nat) (i : Bool) (b : BitVec 256) : (s.logInj v u k i b).clasps = s.clasps :=
  (congrArg State.clasps (State.logInj_evrOnly s v u k i b).same).trans rfl
@[simp] theorem State.logInj_pool (s : State) (v u k : Nat) (i : Bool) (b : BitVec 256) : (s.logInj v u k i b).pool = s.pool :=
  (congrArg State.pool (State.logInj_evrOnly s v u k i b).same).trans rfl
@[simp] theorem State.logInj_map (s : State) (v u k : Nat) (i : Bool) (b : BitVec 256) : (s.logInj v u k i b).map = s.map :=
  (congrArg State.map (State.logInj_evrOnly s v u k i b).same).trans rfl
@[simp] theorem State.logInj_mec (s : State) (v u k : Nat) (i : Bool) (b : BitVec 256) : (s.logInj v u k i b).mec = s.mec :=
  (congrArg State.mec (State.logInj_evrOnly s v u k i b).same).trans rfl
@[simp] theorem State.logInj_flt (s : State) (v u k : Nat) (i : Bool) (b : BitVec 256) : (s.logInj v u k i b).flt = s.flt :=
  (congrArg State.flt (State.logInj_evrOnly s v u k i b).same).trans rfl
@[simp] theorem State.logInj_hqe (s : State) (v u k : Nat) (i : Bool) (b : BitVec 256) : (s.logInj v u k i b).hqe = s.hqe :=
  (congrArg State.hqe (State.logInj_evrOnly s v u k i b).same).trans rfl
@[simp] theorem State.logInj_ns (s : State) (v u k : Nat) (i : Bool) (b : BitVec 256) : (s.logInj v u k i b).ns = s.ns :=
  (congrArg State.ns (State.logInj_evrOnly s v u k i b).same).trans rfl
@[simp] theorem State.logInj_seqs (s : State) (v u k : Nat) (i : Bool) (b : BitVec 256) : (s.logInj v u k i b).seqs = s.seqs :=
  (congrArg State.seqs (State.logInj_evrOnly s v u k i b).same).trans rfl
@[simp] theorem State.logInj_assay (s : State) (v u k : Nat) (i : Bool) (b : BitVec 256) : (s.logInj v u k i b).assay = s.assay :=
  (congrArg State.assay (State.logInj_evrOnly s v u k i b).same).trans rfl
@[simp] theorem State.logInj_par (s : State) (v u k : Nat) (i : Bool) (b : BitVec 256) : (s.logInj v u k i b).par = s.par :=
  (congrArg State.par (State.logInj_evrOnly s v u k i b).same).trans rfl
@[simp] theorem State.logInj_fw (s : State) (v u k : Nat) (i : Bool) (b : BitVec 256) : (s.logInj v u k i b).fw = s.fw :=
  (congrArg State.fw (State.logInj_evrOnly s v u k i b).same).trans rfl
@[simp] theorem State.logInj_sig (s : State) (v u k : Nat) (i : Bool) (b : BitVec 256) : (s.logInj v u k i b).sig = s.sig :=
  (congrArg State.sig (State.logInj_evrOnly s v u k i b).same).trans rfl
@[simp] theorem State.logInj_boot (s : State) (v u k : Nat) (i : Bool) (b : BitVec 256) : (s.logInj v u k i b).boot = s.boot :=
  (congrArg State.boot (State.logInj_evrOnly s v u k i b).same).trans rfl
@[simp] theorem State.logInj_pwr (s : State) (v u k : Nat) (i : Bool) (b : BitVec 256) : (s.logInj v u k i b).pwr = s.pwr :=
  (congrArg State.pwr (State.logInj_evrOnly s v u k i b).same).trans rfl
@[simp] theorem State.logInj_mgmt (s : State) (v u k : Nat) (i : Bool) (b : BitVec 256) : (s.logInj v u k i b).mgmt = s.mgmt :=
  (congrArg State.mgmt (State.logInj_evrOnly s v u k i b).same).trans rfl
theorem State.logInj_reg (s : State) (v u k : Nat) (i : Bool) (b : BitVec 256) (o : Nat) (h : o < 0x570000 ∨ 0x580000 ≤ o) : (s.logInj v u k i b).reg o = s.reg o :=
  (State.logInj_evrOnly s v u k i b).regs o (by omega)
@[simp] theorem State.logInj_fld (s : State) (v u k : Nat) (i : Bool) (b : BitVec 256) (f : Fld) (h : f.off < 0x570000 ∨ 0x580000 ≤ f.off) :
    (s.logInj v u k i b).fld f = s.fld f := by
  unfold State.fld; rw [State.logInj_reg _ v u k i b _ h]
@[simp] theorem State.logInj_flag (s : State) (v u k : Nat) (i : Bool) (b : BitVec 256) (f : Fld) (h : f.off < 0x570000 ∨ 0x580000 ≤ f.off) :
    (s.logInj v u k i b).flag f = s.flag f := by
  unfold State.flag; rw [State.logInj_fld _ v u k i b _ h]

theorem State.logFw_evrOnly (s : State) (v u k : Nat) (b : BitVec 256) : EvrOnly s (s.logFw v u k b) := EvrOnly.logAll s _
@[simp] theorem State.logFw_pending (s : State) (v u k : Nat) (b : BitVec 256) : (s.logFw v u k b).pending = s.pending :=
  (congrArg State.pending (State.logFw_evrOnly s v u k b).same).trans rfl
@[simp] theorem State.logFw_free (s : State) (v u k : Nat) (b : BitVec 256) : (s.logFw v u k b).free = s.free :=
  (congrArg State.free (State.logFw_evrOnly s v u k b).same).trans rfl
@[simp] theorem State.logFw_part (s : State) (v u k : Nat) (b : BitVec 256) : (s.logFw v u k b).part = s.part :=
  (congrArg State.part (State.logFw_evrOnly s v u k b).same).trans rfl
@[simp] theorem State.logFw_dramMiB (s : State) (v u k : Nat) (b : BitVec 256) : (s.logFw v u k b).dramMiB = s.dramMiB :=
  (congrArg State.dramMiB (State.logFw_evrOnly s v u k b).same).trans rfl
@[simp] theorem State.logFw_now (s : State) (v u k : Nat) (b : BitVec 256) : (s.logFw v u k b).now = s.now :=
  (congrArg State.now (State.logFw_evrOnly s v u k b).same).trans rfl
@[simp] theorem State.logFw_mem (s : State) (v u k : Nat) (b : BitVec 256) : (s.logFw v u k b).mem = s.mem :=
  (congrArg State.mem (State.logFw_evrOnly s v u k b).same).trans rfl
@[simp] theorem State.logFw_cores (s : State) (v u k : Nat) (b : BitVec 256) : (s.logFw v u k b).cores = s.cores :=
  (congrArg State.cores (State.logFw_evrOnly s v u k b).same).trans rfl
@[simp] theorem State.logFw_entries (s : State) (v u k : Nat) (b : BitVec 256) : (s.logFw v u k b).entries = s.entries :=
  (congrArg State.entries (State.logFw_evrOnly s v u k b).same).trans rfl
@[simp] theorem State.logFw_mbox (s : State) (v u k : Nat) (b : BitVec 256) : (s.logFw v u k b).mbox = s.mbox :=
  (congrArg State.mbox (State.logFw_evrOnly s v u k b).same).trans rfl
@[simp] theorem State.logFw_rxSeq (s : State) (v u k : Nat) (b : BitVec 256) : (s.logFw v u k b).rxSeq = s.rxSeq :=
  (congrArg State.rxSeq (State.logFw_evrOnly s v u k b).same).trans rfl
@[simp] theorem State.logFw_hkeys (s : State) (v u k : Nat) (b : BitVec 256) : (s.logFw v u k b).hkeys = s.hkeys :=
  (congrArg State.hkeys (State.logFw_evrOnly s v u k b).same).trans rfl
@[simp] theorem State.logFw_hkeyLow (s : State) (v u k : Nat) (b : BitVec 256) : (s.logFw v u k b).hkeyLow = s.hkeyLow :=
  (congrArg State.hkeyLow (State.logFw_evrOnly s v u k b).same).trans rfl
@[simp] theorem State.logFw_clasps (s : State) (v u k : Nat) (b : BitVec 256) : (s.logFw v u k b).clasps = s.clasps :=
  (congrArg State.clasps (State.logFw_evrOnly s v u k b).same).trans rfl
@[simp] theorem State.logFw_pool (s : State) (v u k : Nat) (b : BitVec 256) : (s.logFw v u k b).pool = s.pool :=
  (congrArg State.pool (State.logFw_evrOnly s v u k b).same).trans rfl
@[simp] theorem State.logFw_map (s : State) (v u k : Nat) (b : BitVec 256) : (s.logFw v u k b).map = s.map :=
  (congrArg State.map (State.logFw_evrOnly s v u k b).same).trans rfl
@[simp] theorem State.logFw_mec (s : State) (v u k : Nat) (b : BitVec 256) : (s.logFw v u k b).mec = s.mec :=
  (congrArg State.mec (State.logFw_evrOnly s v u k b).same).trans rfl
@[simp] theorem State.logFw_flt (s : State) (v u k : Nat) (b : BitVec 256) : (s.logFw v u k b).flt = s.flt :=
  (congrArg State.flt (State.logFw_evrOnly s v u k b).same).trans rfl
@[simp] theorem State.logFw_hqe (s : State) (v u k : Nat) (b : BitVec 256) : (s.logFw v u k b).hqe = s.hqe :=
  (congrArg State.hqe (State.logFw_evrOnly s v u k b).same).trans rfl
@[simp] theorem State.logFw_ns (s : State) (v u k : Nat) (b : BitVec 256) : (s.logFw v u k b).ns = s.ns :=
  (congrArg State.ns (State.logFw_evrOnly s v u k b).same).trans rfl
@[simp] theorem State.logFw_seqs (s : State) (v u k : Nat) (b : BitVec 256) : (s.logFw v u k b).seqs = s.seqs :=
  (congrArg State.seqs (State.logFw_evrOnly s v u k b).same).trans rfl
@[simp] theorem State.logFw_assay (s : State) (v u k : Nat) (b : BitVec 256) : (s.logFw v u k b).assay = s.assay :=
  (congrArg State.assay (State.logFw_evrOnly s v u k b).same).trans rfl
@[simp] theorem State.logFw_par (s : State) (v u k : Nat) (b : BitVec 256) : (s.logFw v u k b).par = s.par :=
  (congrArg State.par (State.logFw_evrOnly s v u k b).same).trans rfl
@[simp] theorem State.logFw_fw (s : State) (v u k : Nat) (b : BitVec 256) : (s.logFw v u k b).fw = s.fw :=
  (congrArg State.fw (State.logFw_evrOnly s v u k b).same).trans rfl
@[simp] theorem State.logFw_sig (s : State) (v u k : Nat) (b : BitVec 256) : (s.logFw v u k b).sig = s.sig :=
  (congrArg State.sig (State.logFw_evrOnly s v u k b).same).trans rfl
@[simp] theorem State.logFw_boot (s : State) (v u k : Nat) (b : BitVec 256) : (s.logFw v u k b).boot = s.boot :=
  (congrArg State.boot (State.logFw_evrOnly s v u k b).same).trans rfl
@[simp] theorem State.logFw_pwr (s : State) (v u k : Nat) (b : BitVec 256) : (s.logFw v u k b).pwr = s.pwr :=
  (congrArg State.pwr (State.logFw_evrOnly s v u k b).same).trans rfl
@[simp] theorem State.logFw_mgmt (s : State) (v u k : Nat) (b : BitVec 256) : (s.logFw v u k b).mgmt = s.mgmt :=
  (congrArg State.mgmt (State.logFw_evrOnly s v u k b).same).trans rfl
theorem State.logFw_reg (s : State) (v u k : Nat) (b : BitVec 256) (o : Nat) (h : o < 0x570000 ∨ 0x580000 ≤ o) : (s.logFw v u k b).reg o = s.reg o :=
  (State.logFw_evrOnly s v u k b).regs o (by omega)
@[simp] theorem State.logFw_fld (s : State) (v u k : Nat) (b : BitVec 256) (f : Fld) (h : f.off < 0x570000 ∨ 0x580000 ≤ f.off) :
    (s.logFw v u k b).fld f = s.fld f := by
  unfold State.fld; rw [State.logFw_reg _ v u k b _ h]
@[simp] theorem State.logFw_flag (s : State) (v u k : Nat) (b : BitVec 256) (f : Fld) (h : f.off < 0x570000 ∨ 0x580000 ≤ f.off) :
    (s.logFw v u k b).flag f = s.flag f := by
  unfold State.flag; rw [State.logFw_fld _ v u k b _ h]

theorem State.hwSend_evrOnly (s : State) (a b m u : Nat) (p : BitVec 512) : EvrOnly s (s.hwSend a b m u p) := EvrOnly.hwSend s _ _ _ _ _
@[simp] theorem State.hwSend_pending (s : State) (a b m u : Nat) (p : BitVec 512) : (s.hwSend a b m u p).pending = s.pending :=
  (congrArg State.pending (State.hwSend_evrOnly s a b m u p).same).trans rfl
@[simp] theorem State.hwSend_free (s : State) (a b m u : Nat) (p : BitVec 512) : (s.hwSend a b m u p).free = s.free :=
  (congrArg State.free (State.hwSend_evrOnly s a b m u p).same).trans rfl
@[simp] theorem State.hwSend_part (s : State) (a b m u : Nat) (p : BitVec 512) : (s.hwSend a b m u p).part = s.part :=
  (congrArg State.part (State.hwSend_evrOnly s a b m u p).same).trans rfl
@[simp] theorem State.hwSend_dramMiB (s : State) (a b m u : Nat) (p : BitVec 512) : (s.hwSend a b m u p).dramMiB = s.dramMiB :=
  (congrArg State.dramMiB (State.hwSend_evrOnly s a b m u p).same).trans rfl
@[simp] theorem State.hwSend_now (s : State) (a b m u : Nat) (p : BitVec 512) : (s.hwSend a b m u p).now = s.now :=
  (congrArg State.now (State.hwSend_evrOnly s a b m u p).same).trans rfl
@[simp] theorem State.hwSend_mem (s : State) (a b m u : Nat) (p : BitVec 512) : (s.hwSend a b m u p).mem = s.mem :=
  (congrArg State.mem (State.hwSend_evrOnly s a b m u p).same).trans rfl
@[simp] theorem State.hwSend_cores (s : State) (a b m u : Nat) (p : BitVec 512) : (s.hwSend a b m u p).cores = s.cores :=
  (congrArg State.cores (State.hwSend_evrOnly s a b m u p).same).trans rfl
@[simp] theorem State.hwSend_entries (s : State) (a b m u : Nat) (p : BitVec 512) : (s.hwSend a b m u p).entries = s.entries :=
  (congrArg State.entries (State.hwSend_evrOnly s a b m u p).same).trans rfl
@[simp] theorem State.hwSend_mbox (s : State) (a b m u : Nat) (p : BitVec 512) : (s.hwSend a b m u p).mbox = s.mbox :=
  (congrArg State.mbox (State.hwSend_evrOnly s a b m u p).same).trans rfl
@[simp] theorem State.hwSend_rxSeq (s : State) (a b m u : Nat) (p : BitVec 512) : (s.hwSend a b m u p).rxSeq = s.rxSeq :=
  (congrArg State.rxSeq (State.hwSend_evrOnly s a b m u p).same).trans rfl
@[simp] theorem State.hwSend_hkeys (s : State) (a b m u : Nat) (p : BitVec 512) : (s.hwSend a b m u p).hkeys = s.hkeys :=
  (congrArg State.hkeys (State.hwSend_evrOnly s a b m u p).same).trans rfl
@[simp] theorem State.hwSend_hkeyLow (s : State) (a b m u : Nat) (p : BitVec 512) : (s.hwSend a b m u p).hkeyLow = s.hkeyLow :=
  (congrArg State.hkeyLow (State.hwSend_evrOnly s a b m u p).same).trans rfl
@[simp] theorem State.hwSend_clasps (s : State) (a b m u : Nat) (p : BitVec 512) : (s.hwSend a b m u p).clasps = s.clasps :=
  (congrArg State.clasps (State.hwSend_evrOnly s a b m u p).same).trans rfl
@[simp] theorem State.hwSend_pool (s : State) (a b m u : Nat) (p : BitVec 512) : (s.hwSend a b m u p).pool = s.pool :=
  (congrArg State.pool (State.hwSend_evrOnly s a b m u p).same).trans rfl
@[simp] theorem State.hwSend_map (s : State) (a b m u : Nat) (p : BitVec 512) : (s.hwSend a b m u p).map = s.map :=
  (congrArg State.map (State.hwSend_evrOnly s a b m u p).same).trans rfl
@[simp] theorem State.hwSend_mec (s : State) (a b m u : Nat) (p : BitVec 512) : (s.hwSend a b m u p).mec = s.mec :=
  (congrArg State.mec (State.hwSend_evrOnly s a b m u p).same).trans rfl
@[simp] theorem State.hwSend_flt (s : State) (a b m u : Nat) (p : BitVec 512) : (s.hwSend a b m u p).flt = s.flt :=
  (congrArg State.flt (State.hwSend_evrOnly s a b m u p).same).trans rfl
@[simp] theorem State.hwSend_hqe (s : State) (a b m u : Nat) (p : BitVec 512) : (s.hwSend a b m u p).hqe = s.hqe :=
  (congrArg State.hqe (State.hwSend_evrOnly s a b m u p).same).trans rfl
@[simp] theorem State.hwSend_ns (s : State) (a b m u : Nat) (p : BitVec 512) : (s.hwSend a b m u p).ns = s.ns :=
  (congrArg State.ns (State.hwSend_evrOnly s a b m u p).same).trans rfl
@[simp] theorem State.hwSend_seqs (s : State) (a b m u : Nat) (p : BitVec 512) : (s.hwSend a b m u p).seqs = s.seqs :=
  (congrArg State.seqs (State.hwSend_evrOnly s a b m u p).same).trans rfl
@[simp] theorem State.hwSend_assay (s : State) (a b m u : Nat) (p : BitVec 512) : (s.hwSend a b m u p).assay = s.assay :=
  (congrArg State.assay (State.hwSend_evrOnly s a b m u p).same).trans rfl
@[simp] theorem State.hwSend_par (s : State) (a b m u : Nat) (p : BitVec 512) : (s.hwSend a b m u p).par = s.par :=
  (congrArg State.par (State.hwSend_evrOnly s a b m u p).same).trans rfl
@[simp] theorem State.hwSend_fw (s : State) (a b m u : Nat) (p : BitVec 512) : (s.hwSend a b m u p).fw = s.fw :=
  (congrArg State.fw (State.hwSend_evrOnly s a b m u p).same).trans rfl
@[simp] theorem State.hwSend_sig (s : State) (a b m u : Nat) (p : BitVec 512) : (s.hwSend a b m u p).sig = s.sig :=
  (congrArg State.sig (State.hwSend_evrOnly s a b m u p).same).trans rfl
@[simp] theorem State.hwSend_boot (s : State) (a b m u : Nat) (p : BitVec 512) : (s.hwSend a b m u p).boot = s.boot :=
  (congrArg State.boot (State.hwSend_evrOnly s a b m u p).same).trans rfl
@[simp] theorem State.hwSend_pwr (s : State) (a b m u : Nat) (p : BitVec 512) : (s.hwSend a b m u p).pwr = s.pwr :=
  (congrArg State.pwr (State.hwSend_evrOnly s a b m u p).same).trans rfl
@[simp] theorem State.hwSend_mgmt (s : State) (a b m u : Nat) (p : BitVec 512) : (s.hwSend a b m u p).mgmt = s.mgmt :=
  (congrArg State.mgmt (State.hwSend_evrOnly s a b m u p).same).trans rfl
theorem State.hwSend_reg (s : State) (a b m u : Nat) (p : BitVec 512) (o : Nat) (h : o < 0x570000 ∨ 0x580000 ≤ o) : (s.hwSend a b m u p).reg o = s.reg o :=
  (State.hwSend_evrOnly s a b m u p).regs o (by omega)
@[simp] theorem State.hwSend_fld (s : State) (a b m u : Nat) (p : BitVec 512) (f : Fld) (h : f.off < 0x570000 ∨ 0x580000 ≤ f.off) :
    (s.hwSend a b m u p).fld f = s.fld f := by
  unfold State.fld; rw [State.hwSend_reg _ a b m u p _ h]
@[simp] theorem State.hwSend_flag (s : State) (a b m u : Nat) (p : BitVec 512) (f : Fld) (h : f.off < 0x570000 ∨ 0x580000 ≤ f.off) :
    (s.hwSend a b m u p).flag f = s.flag f := by
  unfold State.flag; rw [State.hwSend_fld _ a b m u p _ h]

theorem State.faultTold_evrOnly (s : State) (k u : Nat) (i m : Bool) (r a : Nat) : EvrOnly s (s.faultTold k u i m r a) := EvrOnly.faultTold s _ _ _ _ _ _
@[simp] theorem State.faultTold_pending (s : State) (k u : Nat) (i m : Bool) (r a : Nat) : (s.faultTold k u i m r a).pending = s.pending :=
  (congrArg State.pending (State.faultTold_evrOnly s k u i m r a).same).trans rfl
@[simp] theorem State.faultTold_free (s : State) (k u : Nat) (i m : Bool) (r a : Nat) : (s.faultTold k u i m r a).free = s.free :=
  (congrArg State.free (State.faultTold_evrOnly s k u i m r a).same).trans rfl
@[simp] theorem State.faultTold_part (s : State) (k u : Nat) (i m : Bool) (r a : Nat) : (s.faultTold k u i m r a).part = s.part :=
  (congrArg State.part (State.faultTold_evrOnly s k u i m r a).same).trans rfl
@[simp] theorem State.faultTold_dramMiB (s : State) (k u : Nat) (i m : Bool) (r a : Nat) : (s.faultTold k u i m r a).dramMiB = s.dramMiB :=
  (congrArg State.dramMiB (State.faultTold_evrOnly s k u i m r a).same).trans rfl
@[simp] theorem State.faultTold_now (s : State) (k u : Nat) (i m : Bool) (r a : Nat) : (s.faultTold k u i m r a).now = s.now :=
  (congrArg State.now (State.faultTold_evrOnly s k u i m r a).same).trans rfl
@[simp] theorem State.faultTold_mem (s : State) (k u : Nat) (i m : Bool) (r a : Nat) : (s.faultTold k u i m r a).mem = s.mem :=
  (congrArg State.mem (State.faultTold_evrOnly s k u i m r a).same).trans rfl
@[simp] theorem State.faultTold_cores (s : State) (k u : Nat) (i m : Bool) (r a : Nat) : (s.faultTold k u i m r a).cores = s.cores :=
  (congrArg State.cores (State.faultTold_evrOnly s k u i m r a).same).trans rfl
@[simp] theorem State.faultTold_entries (s : State) (k u : Nat) (i m : Bool) (r a : Nat) : (s.faultTold k u i m r a).entries = s.entries :=
  (congrArg State.entries (State.faultTold_evrOnly s k u i m r a).same).trans rfl
@[simp] theorem State.faultTold_mbox (s : State) (k u : Nat) (i m : Bool) (r a : Nat) : (s.faultTold k u i m r a).mbox = s.mbox :=
  (congrArg State.mbox (State.faultTold_evrOnly s k u i m r a).same).trans rfl
@[simp] theorem State.faultTold_rxSeq (s : State) (k u : Nat) (i m : Bool) (r a : Nat) : (s.faultTold k u i m r a).rxSeq = s.rxSeq :=
  (congrArg State.rxSeq (State.faultTold_evrOnly s k u i m r a).same).trans rfl
@[simp] theorem State.faultTold_hkeys (s : State) (k u : Nat) (i m : Bool) (r a : Nat) : (s.faultTold k u i m r a).hkeys = s.hkeys :=
  (congrArg State.hkeys (State.faultTold_evrOnly s k u i m r a).same).trans rfl
@[simp] theorem State.faultTold_hkeyLow (s : State) (k u : Nat) (i m : Bool) (r a : Nat) : (s.faultTold k u i m r a).hkeyLow = s.hkeyLow :=
  (congrArg State.hkeyLow (State.faultTold_evrOnly s k u i m r a).same).trans rfl
@[simp] theorem State.faultTold_clasps (s : State) (k u : Nat) (i m : Bool) (r a : Nat) : (s.faultTold k u i m r a).clasps = s.clasps :=
  (congrArg State.clasps (State.faultTold_evrOnly s k u i m r a).same).trans rfl
@[simp] theorem State.faultTold_pool (s : State) (k u : Nat) (i m : Bool) (r a : Nat) : (s.faultTold k u i m r a).pool = s.pool :=
  (congrArg State.pool (State.faultTold_evrOnly s k u i m r a).same).trans rfl
@[simp] theorem State.faultTold_map (s : State) (k u : Nat) (i m : Bool) (r a : Nat) : (s.faultTold k u i m r a).map = s.map :=
  (congrArg State.map (State.faultTold_evrOnly s k u i m r a).same).trans rfl
@[simp] theorem State.faultTold_mec (s : State) (k u : Nat) (i m : Bool) (r a : Nat) : (s.faultTold k u i m r a).mec = s.mec :=
  (congrArg State.mec (State.faultTold_evrOnly s k u i m r a).same).trans rfl
@[simp] theorem State.faultTold_flt (s : State) (k u : Nat) (i m : Bool) (r a : Nat) : (s.faultTold k u i m r a).flt = s.flt :=
  (congrArg State.flt (State.faultTold_evrOnly s k u i m r a).same).trans rfl
@[simp] theorem State.faultTold_hqe (s : State) (k u : Nat) (i m : Bool) (r a : Nat) : (s.faultTold k u i m r a).hqe = s.hqe :=
  (congrArg State.hqe (State.faultTold_evrOnly s k u i m r a).same).trans rfl
@[simp] theorem State.faultTold_ns (s : State) (k u : Nat) (i m : Bool) (r a : Nat) : (s.faultTold k u i m r a).ns = s.ns :=
  (congrArg State.ns (State.faultTold_evrOnly s k u i m r a).same).trans rfl
@[simp] theorem State.faultTold_seqs (s : State) (k u : Nat) (i m : Bool) (r a : Nat) : (s.faultTold k u i m r a).seqs = s.seqs :=
  (congrArg State.seqs (State.faultTold_evrOnly s k u i m r a).same).trans rfl
@[simp] theorem State.faultTold_assay (s : State) (k u : Nat) (i m : Bool) (r a : Nat) : (s.faultTold k u i m r a).assay = s.assay :=
  (congrArg State.assay (State.faultTold_evrOnly s k u i m r a).same).trans rfl
@[simp] theorem State.faultTold_par (s : State) (k u : Nat) (i m : Bool) (r a : Nat) : (s.faultTold k u i m r a).par = s.par :=
  (congrArg State.par (State.faultTold_evrOnly s k u i m r a).same).trans rfl
@[simp] theorem State.faultTold_fw (s : State) (k u : Nat) (i m : Bool) (r a : Nat) : (s.faultTold k u i m r a).fw = s.fw :=
  (congrArg State.fw (State.faultTold_evrOnly s k u i m r a).same).trans rfl
@[simp] theorem State.faultTold_sig (s : State) (k u : Nat) (i m : Bool) (r a : Nat) : (s.faultTold k u i m r a).sig = s.sig :=
  (congrArg State.sig (State.faultTold_evrOnly s k u i m r a).same).trans rfl
@[simp] theorem State.faultTold_boot (s : State) (k u : Nat) (i m : Bool) (r a : Nat) : (s.faultTold k u i m r a).boot = s.boot :=
  (congrArg State.boot (State.faultTold_evrOnly s k u i m r a).same).trans rfl
@[simp] theorem State.faultTold_pwr (s : State) (k u : Nat) (i m : Bool) (r a : Nat) : (s.faultTold k u i m r a).pwr = s.pwr :=
  (congrArg State.pwr (State.faultTold_evrOnly s k u i m r a).same).trans rfl
@[simp] theorem State.faultTold_mgmt (s : State) (k u : Nat) (i m : Bool) (r a : Nat) : (s.faultTold k u i m r a).mgmt = s.mgmt :=
  (congrArg State.mgmt (State.faultTold_evrOnly s k u i m r a).same).trans rfl
theorem State.faultTold_reg (s : State) (k u : Nat) (i m : Bool) (r a : Nat) (o : Nat) (h : o < 0x570000 ∨ 0x580000 ≤ o) : (s.faultTold k u i m r a).reg o = s.reg o :=
  (State.faultTold_evrOnly s k u i m r a).regs o (by omega)
@[simp] theorem State.faultTold_fld (s : State) (k u : Nat) (i m : Bool) (r a : Nat) (f : Fld) (h : f.off < 0x570000 ∨ 0x580000 ≤ f.off) :
    (s.faultTold k u i m r a).fld f = s.fld f := by
  unfold State.fld; rw [State.faultTold_reg _ k u i m r a _ h]
@[simp] theorem State.faultTold_flag (s : State) (k u : Nat) (i m : Bool) (r a : Nat) (f : Fld) (h : f.off < 0x570000 ∨ 0x580000 ≤ f.off) :
    (s.faultTold k u i m r a).flag f = s.flag f := by
  unfold State.flag; rw [State.faultTold_fld _ k u i m r a _ h]

theorem State.tell_evrOnly (s : State) (v : Nat) (e : Told) (a : Nat) : EvrOnly s (s.tell v e a) := EvrOnly.tell s _ _ _
@[simp] theorem State.tell_pending (s : State) (v : Nat) (e : Told) (a : Nat) : (s.tell v e a).pending = s.pending :=
  (congrArg State.pending (State.tell_evrOnly s v e a).same).trans rfl
@[simp] theorem State.tell_free (s : State) (v : Nat) (e : Told) (a : Nat) : (s.tell v e a).free = s.free :=
  (congrArg State.free (State.tell_evrOnly s v e a).same).trans rfl
@[simp] theorem State.tell_part (s : State) (v : Nat) (e : Told) (a : Nat) : (s.tell v e a).part = s.part :=
  (congrArg State.part (State.tell_evrOnly s v e a).same).trans rfl
@[simp] theorem State.tell_dramMiB (s : State) (v : Nat) (e : Told) (a : Nat) : (s.tell v e a).dramMiB = s.dramMiB :=
  (congrArg State.dramMiB (State.tell_evrOnly s v e a).same).trans rfl
@[simp] theorem State.tell_now (s : State) (v : Nat) (e : Told) (a : Nat) : (s.tell v e a).now = s.now :=
  (congrArg State.now (State.tell_evrOnly s v e a).same).trans rfl
@[simp] theorem State.tell_mem (s : State) (v : Nat) (e : Told) (a : Nat) : (s.tell v e a).mem = s.mem :=
  (congrArg State.mem (State.tell_evrOnly s v e a).same).trans rfl
@[simp] theorem State.tell_cores (s : State) (v : Nat) (e : Told) (a : Nat) : (s.tell v e a).cores = s.cores :=
  (congrArg State.cores (State.tell_evrOnly s v e a).same).trans rfl
@[simp] theorem State.tell_entries (s : State) (v : Nat) (e : Told) (a : Nat) : (s.tell v e a).entries = s.entries :=
  (congrArg State.entries (State.tell_evrOnly s v e a).same).trans rfl
@[simp] theorem State.tell_mbox (s : State) (v : Nat) (e : Told) (a : Nat) : (s.tell v e a).mbox = s.mbox :=
  (congrArg State.mbox (State.tell_evrOnly s v e a).same).trans rfl
@[simp] theorem State.tell_rxSeq (s : State) (v : Nat) (e : Told) (a : Nat) : (s.tell v e a).rxSeq = s.rxSeq :=
  (congrArg State.rxSeq (State.tell_evrOnly s v e a).same).trans rfl
@[simp] theorem State.tell_hkeys (s : State) (v : Nat) (e : Told) (a : Nat) : (s.tell v e a).hkeys = s.hkeys :=
  (congrArg State.hkeys (State.tell_evrOnly s v e a).same).trans rfl
@[simp] theorem State.tell_hkeyLow (s : State) (v : Nat) (e : Told) (a : Nat) : (s.tell v e a).hkeyLow = s.hkeyLow :=
  (congrArg State.hkeyLow (State.tell_evrOnly s v e a).same).trans rfl
@[simp] theorem State.tell_clasps (s : State) (v : Nat) (e : Told) (a : Nat) : (s.tell v e a).clasps = s.clasps :=
  (congrArg State.clasps (State.tell_evrOnly s v e a).same).trans rfl
@[simp] theorem State.tell_pool (s : State) (v : Nat) (e : Told) (a : Nat) : (s.tell v e a).pool = s.pool :=
  (congrArg State.pool (State.tell_evrOnly s v e a).same).trans rfl
@[simp] theorem State.tell_map (s : State) (v : Nat) (e : Told) (a : Nat) : (s.tell v e a).map = s.map :=
  (congrArg State.map (State.tell_evrOnly s v e a).same).trans rfl
@[simp] theorem State.tell_mec (s : State) (v : Nat) (e : Told) (a : Nat) : (s.tell v e a).mec = s.mec :=
  (congrArg State.mec (State.tell_evrOnly s v e a).same).trans rfl
@[simp] theorem State.tell_flt (s : State) (v : Nat) (e : Told) (a : Nat) : (s.tell v e a).flt = s.flt :=
  (congrArg State.flt (State.tell_evrOnly s v e a).same).trans rfl
@[simp] theorem State.tell_hqe (s : State) (v : Nat) (e : Told) (a : Nat) : (s.tell v e a).hqe = s.hqe :=
  (congrArg State.hqe (State.tell_evrOnly s v e a).same).trans rfl
@[simp] theorem State.tell_ns (s : State) (v : Nat) (e : Told) (a : Nat) : (s.tell v e a).ns = s.ns :=
  (congrArg State.ns (State.tell_evrOnly s v e a).same).trans rfl
@[simp] theorem State.tell_seqs (s : State) (v : Nat) (e : Told) (a : Nat) : (s.tell v e a).seqs = s.seqs :=
  (congrArg State.seqs (State.tell_evrOnly s v e a).same).trans rfl
@[simp] theorem State.tell_assay (s : State) (v : Nat) (e : Told) (a : Nat) : (s.tell v e a).assay = s.assay :=
  (congrArg State.assay (State.tell_evrOnly s v e a).same).trans rfl
@[simp] theorem State.tell_par (s : State) (v : Nat) (e : Told) (a : Nat) : (s.tell v e a).par = s.par :=
  (congrArg State.par (State.tell_evrOnly s v e a).same).trans rfl
@[simp] theorem State.tell_fw (s : State) (v : Nat) (e : Told) (a : Nat) : (s.tell v e a).fw = s.fw :=
  (congrArg State.fw (State.tell_evrOnly s v e a).same).trans rfl
@[simp] theorem State.tell_sig (s : State) (v : Nat) (e : Told) (a : Nat) : (s.tell v e a).sig = s.sig :=
  (congrArg State.sig (State.tell_evrOnly s v e a).same).trans rfl
@[simp] theorem State.tell_boot (s : State) (v : Nat) (e : Told) (a : Nat) : (s.tell v e a).boot = s.boot :=
  (congrArg State.boot (State.tell_evrOnly s v e a).same).trans rfl
@[simp] theorem State.tell_pwr (s : State) (v : Nat) (e : Told) (a : Nat) : (s.tell v e a).pwr = s.pwr :=
  (congrArg State.pwr (State.tell_evrOnly s v e a).same).trans rfl
@[simp] theorem State.tell_mgmt (s : State) (v : Nat) (e : Told) (a : Nat) : (s.tell v e a).mgmt = s.mgmt :=
  (congrArg State.mgmt (State.tell_evrOnly s v e a).same).trans rfl
theorem State.tell_reg (s : State) (v : Nat) (e : Told) (a : Nat) (o : Nat) (h : o < 0x570000 ∨ 0x580000 ≤ o) : (s.tell v e a).reg o = s.reg o :=
  (State.tell_evrOnly s v e a).regs o (by omega)
@[simp] theorem State.tell_fld (s : State) (v : Nat) (e : Told) (a : Nat) (f : Fld) (h : f.off < 0x570000 ∨ 0x580000 ≤ f.off) :
    (s.tell v e a).fld f = s.fld f := by
  unfold State.fld; rw [State.tell_reg _ v e a _ h]
@[simp] theorem State.tell_flag (s : State) (v : Nat) (e : Told) (a : Nat) (f : Fld) (h : f.off < 0x570000 ∨ 0x580000 ≤ f.off) :
    (s.tell v e a).flag f = s.flag f := by
  unfold State.flag; rw [State.tell_fld _ v e a _ h]

theorem State.secRecord_evrOnly (s : State) (e a : Nat) : EvrOnly s (s.secRecord e a) := EvrOnly.secRecord s _ _
@[simp] theorem State.secRecord_pending (s : State) (e a : Nat) : (s.secRecord e a).pending = s.pending :=
  (congrArg State.pending (State.secRecord_evrOnly s e a).same).trans rfl
@[simp] theorem State.secRecord_free (s : State) (e a : Nat) : (s.secRecord e a).free = s.free :=
  (congrArg State.free (State.secRecord_evrOnly s e a).same).trans rfl
@[simp] theorem State.secRecord_part (s : State) (e a : Nat) : (s.secRecord e a).part = s.part :=
  (congrArg State.part (State.secRecord_evrOnly s e a).same).trans rfl
@[simp] theorem State.secRecord_dramMiB (s : State) (e a : Nat) : (s.secRecord e a).dramMiB = s.dramMiB :=
  (congrArg State.dramMiB (State.secRecord_evrOnly s e a).same).trans rfl
@[simp] theorem State.secRecord_now (s : State) (e a : Nat) : (s.secRecord e a).now = s.now :=
  (congrArg State.now (State.secRecord_evrOnly s e a).same).trans rfl
@[simp] theorem State.secRecord_mem (s : State) (e a : Nat) : (s.secRecord e a).mem = s.mem :=
  (congrArg State.mem (State.secRecord_evrOnly s e a).same).trans rfl
@[simp] theorem State.secRecord_cores (s : State) (e a : Nat) : (s.secRecord e a).cores = s.cores :=
  (congrArg State.cores (State.secRecord_evrOnly s e a).same).trans rfl
@[simp] theorem State.secRecord_entries (s : State) (e a : Nat) : (s.secRecord e a).entries = s.entries :=
  (congrArg State.entries (State.secRecord_evrOnly s e a).same).trans rfl
@[simp] theorem State.secRecord_mbox (s : State) (e a : Nat) : (s.secRecord e a).mbox = s.mbox :=
  (congrArg State.mbox (State.secRecord_evrOnly s e a).same).trans rfl
@[simp] theorem State.secRecord_rxSeq (s : State) (e a : Nat) : (s.secRecord e a).rxSeq = s.rxSeq :=
  (congrArg State.rxSeq (State.secRecord_evrOnly s e a).same).trans rfl
@[simp] theorem State.secRecord_hkeys (s : State) (e a : Nat) : (s.secRecord e a).hkeys = s.hkeys :=
  (congrArg State.hkeys (State.secRecord_evrOnly s e a).same).trans rfl
@[simp] theorem State.secRecord_hkeyLow (s : State) (e a : Nat) : (s.secRecord e a).hkeyLow = s.hkeyLow :=
  (congrArg State.hkeyLow (State.secRecord_evrOnly s e a).same).trans rfl
@[simp] theorem State.secRecord_clasps (s : State) (e a : Nat) : (s.secRecord e a).clasps = s.clasps :=
  (congrArg State.clasps (State.secRecord_evrOnly s e a).same).trans rfl
@[simp] theorem State.secRecord_pool (s : State) (e a : Nat) : (s.secRecord e a).pool = s.pool :=
  (congrArg State.pool (State.secRecord_evrOnly s e a).same).trans rfl
@[simp] theorem State.secRecord_map (s : State) (e a : Nat) : (s.secRecord e a).map = s.map :=
  (congrArg State.map (State.secRecord_evrOnly s e a).same).trans rfl
@[simp] theorem State.secRecord_mec (s : State) (e a : Nat) : (s.secRecord e a).mec = s.mec :=
  (congrArg State.mec (State.secRecord_evrOnly s e a).same).trans rfl
@[simp] theorem State.secRecord_flt (s : State) (e a : Nat) : (s.secRecord e a).flt = s.flt :=
  (congrArg State.flt (State.secRecord_evrOnly s e a).same).trans rfl
@[simp] theorem State.secRecord_hqe (s : State) (e a : Nat) : (s.secRecord e a).hqe = s.hqe :=
  (congrArg State.hqe (State.secRecord_evrOnly s e a).same).trans rfl
@[simp] theorem State.secRecord_ns (s : State) (e a : Nat) : (s.secRecord e a).ns = s.ns :=
  (congrArg State.ns (State.secRecord_evrOnly s e a).same).trans rfl
@[simp] theorem State.secRecord_seqs (s : State) (e a : Nat) : (s.secRecord e a).seqs = s.seqs :=
  (congrArg State.seqs (State.secRecord_evrOnly s e a).same).trans rfl
@[simp] theorem State.secRecord_assay (s : State) (e a : Nat) : (s.secRecord e a).assay = s.assay :=
  (congrArg State.assay (State.secRecord_evrOnly s e a).same).trans rfl
@[simp] theorem State.secRecord_par (s : State) (e a : Nat) : (s.secRecord e a).par = s.par :=
  (congrArg State.par (State.secRecord_evrOnly s e a).same).trans rfl
@[simp] theorem State.secRecord_fw (s : State) (e a : Nat) : (s.secRecord e a).fw = s.fw :=
  (congrArg State.fw (State.secRecord_evrOnly s e a).same).trans rfl
@[simp] theorem State.secRecord_sig (s : State) (e a : Nat) : (s.secRecord e a).sig = s.sig :=
  (congrArg State.sig (State.secRecord_evrOnly s e a).same).trans rfl
@[simp] theorem State.secRecord_boot (s : State) (e a : Nat) : (s.secRecord e a).boot = s.boot :=
  (congrArg State.boot (State.secRecord_evrOnly s e a).same).trans rfl
@[simp] theorem State.secRecord_pwr (s : State) (e a : Nat) : (s.secRecord e a).pwr = s.pwr :=
  (congrArg State.pwr (State.secRecord_evrOnly s e a).same).trans rfl
@[simp] theorem State.secRecord_mgmt (s : State) (e a : Nat) : (s.secRecord e a).mgmt = s.mgmt :=
  (congrArg State.mgmt (State.secRecord_evrOnly s e a).same).trans rfl
theorem State.secRecord_reg (s : State) (e a : Nat) (o : Nat) (h : o < 0x570000 ∨ 0x580000 ≤ o) : (s.secRecord e a).reg o = s.reg o :=
  (State.secRecord_evrOnly s e a).regs o (by omega)
@[simp] theorem State.secRecord_fld (s : State) (e a : Nat) (f : Fld) (h : f.off < 0x570000 ∨ 0x580000 ≤ f.off) :
    (s.secRecord e a).fld f = s.fld f := by
  unfold State.fld; rw [State.secRecord_reg _ e a _ h]
@[simp] theorem State.secRecord_flag (s : State) (e a : Nat) (f : Fld) (h : f.off < 0x570000 ∨ 0x580000 ≤ f.off) :
    (s.secRecord e a).flag f = s.flag f := by
  unfold State.flag; rw [State.secRecord_fld _ e a _ h]

end Sys2Proof.Machine
end

