-- ==== Sys2Proof/Laws/Mem.lean ====
section
/-! SUPPORT. Memory: what is read after a write, and that every memory operation keeps the canonical form. -/

namespace Sys2Proof.Machine

open Sys2Proof

/-! ### What is read after a write -/

/-- A byte that a write of one byte does not touch. -/
theorem Mem.byte_put_ne (m : Mem) (k a : Nat) (v : Byte) (h : k ≠ a) :
    Mem.byte { m with cells := tput m.cells k v } a = m.byte a := tgetD_tput_ne _ _ _ h

/-- A write touches its own bytes and no other. -/
theorem Mem.byte_write_out (n : Nat) : ∀ (m : Mem) (k v a : Nat), a < k ∨ k + n ≤ a → (m.write k v n).byte a = m.byte a := by
  induction n with
  | zero => intro m k v a _; rfl
  | succ n ih =>
    intro m k v a h
    unfold Mem.write
    rw [ih _ _ _ _ (by omega), Mem.byte_put_ne _ _ _ _ (by omega)]

/-- What a write leaves alone besides the bytes. -/
theorem Mem.write_marks (n : Nat) : ∀ (m : Mem) (k v : Nat), (m.write k v n).poison = m.poison ∧ (m.write k v n).tags = m.tags := by
  induction n with
  | zero => intro m k v; exact ⟨rfl, rfl⟩
  | succ n ih => intro m k v; unfold Mem.write; exact ih _ _ _

/-- Byte `i` of a write is byte `i` of the value, little-endian (R47). -/
theorem Mem.byte_write_in (n : Nat) : ∀ (m : Mem) (k v i : Nat), i < n →
    (m.write k v n).byte (k + i) = BitVec.ofNat 8 (v / 256 ^ i) := by
  induction n with
  | zero => intro m k v i h; omega
  | succ n ih =>
    intro m k v i h
    unfold Mem.write
    cases i with
    | zero =>
      rw [Mem.byte_write_out n _ _ _ _ (by omega)]
      simp [Mem.byte]
    | succ i =>
      have e := ih { m with cells := tput m.cells k (BitVec.ofNat 8 v) } (k + 1) (v / 256) i (by omega)
      rw [show k + (i + 1) = k + 1 + i by omega, e, Nat.div_div_eq_div_mul, Nat.pow_succ, Nat.mul_comm]

/-- Reading bytes that agree. -/
theorem Mem.read_congr (n : Nat) : ∀ (m m' : Mem) (k : Nat), (∀ i, i < n → m.byte (k + i) = m'.byte (k + i)) →
    m.read k n = m'.read k n := by
  induction n with
  | zero => intro m m' k _; rfl
  | succ n ih =>
    intro m m' k h
    unfold Mem.read
    rw [show m.byte k = m'.byte k from h 0 (by omega), ih m m' (k + 1) fun i hi => by
      have e := h (i + 1) (by omega)
      rwa [show k + (i + 1) = k + 1 + i by omega] at e]

/-- Bytes that hold a value's bytes read as the value. -/
theorem Mem.read_of_bytes (n : Nat) : ∀ (m : Mem) (k v : Nat), (∀ i, i < n → m.byte (k + i) = BitVec.ofNat 8 (v / 256 ^ i)) →
    m.read k n = v % 256 ^ n := by
  induction n with
  | zero => intro m k v _; simp [Mem.read, Nat.mod_one]
  | succ n ih =>
    intro m k v h
    unfold Mem.read
    have h0 := h 0 (by omega)
    have h1 := ih m (k + 1) (v / 256) fun i hi => by
      have e := h (i + 1) (by omega)
      rw [show k + (i + 1) = k + 1 + i by omega] at e
      rw [e, Nat.div_div_eq_div_mul, Nat.pow_succ, Nat.mul_comm]
    rw [Nat.add_zero, Nat.pow_zero, Nat.div_one] at h0
    rw [h0, h1, BitVec.toNat_ofNat, show 256 ^ (n + 1) = 256 * 256 ^ n from Nat.pow_succ', Nat.mod_mul]

/-- A read of what was just written gives the value, cut to the width. -/
theorem Mem.read_write_self (m : Mem) (k v n : Nat) : (m.write k v n).read k n = v % 256 ^ n :=
  Mem.read_of_bytes n _ _ _ fun i hi => Mem.byte_write_in n m k v i hi

/-- A read of bytes that a write does not touch. -/
theorem Mem.read_write_out (m : Mem) (k v n a w : Nat) (h : a + w ≤ k ∨ k + n ≤ a) :
    (m.write k v n).read a w = m.read a w :=
  Mem.read_congr w _ _ _ fun i hi => Mem.byte_write_out n m k v (a + i) (by omega)

/-- A double reads as it was written. -/
theorem Mem.read_writeDouble_self (m : Mem) (d v : Nat) (p : Bool) : (m.writeDouble d v p).read d 8 = v % 2 ^ 64 :=
  Mem.read_write_self m d v 8

theorem Mem.byte_writeDouble_out (m : Mem) (d v a : Nat) (p : Bool) (h : a < d ∨ d + 8 ≤ a) :
    (m.writeDouble d v p).byte a = m.byte a := Mem.byte_write_out 8 m d v a h

/-- The mark of a double as a set or a cleared mark leaves it. -/
theorem sHas_sSet (t : Tab Unit) (k j : Nat) (b : Bool) : sHas (sSet t k b) j = if k = j then b else sHas t j := by
  cases b
  · by_cases h : k = j
    · subst h; simp [sSet, sDel, sHas]
    · simp [sSet, sDel, sHas, tget_tdel_ne t h, h]
  · by_cases h : k = j
    · subst h; simp [sSet, sAdd, sHas]
    · simp [sSet, sAdd, sHas, tget_tput_ne t () h, h]

/-- A byte that has been written stays written. -/
theorem Mem.written_write (n : Nat) : ∀ (m : Mem) (k v a : Nat), (tget m.cells a).isSome = true →
    (tget (m.write k v n).cells a).isSome = true := by
  induction n with
  | zero => intro m k v a h; exact h
  | succ n ih =>
    intro m k v a h
    unfold Mem.write
    refine ih _ _ _ _ ?_
    simp only [tget_tput]
    split
    · rfl
    · exact h

theorem Mem.written_write_in (n : Nat) : ∀ (m : Mem) (k v i : Nat), i < n → (tget (m.write k v n).cells (k + i)).isSome = true := by
  induction n with
  | zero => intro m k v i h; omega
  | succ n ih =>
    intro m k v i h
    unfold Mem.write
    cases i with
    | zero => exact Mem.written_write n _ _ _ _ (by simp)
    | succ i => rw [show k + (i + 1) = k + 1 + i by omega]; exact ih _ _ _ _ (by omega)

/-- A double that was just written is whole, and poisoned exactly as it was written (R60, R74). -/
theorem Mem.whole_writeDouble_self (m : Mem) (d v : Nat) (p : Bool) : (m.writeDouble d v p).whole d = true := by
  simp only [Mem.whole, List.all_eq_true, List.mem_range]
  intro i hi
  exact Mem.written_write_in 8 m d v i hi

theorem Mem.poisoned_writeDouble_self (m : Mem) (d v : Nat) (p : Bool) : (m.writeDouble d v p).poisoned d = p := by
  have e : sHas (m.writeDouble d v p).poison d = p := by
    have h := sHas_sSet (m.write d v 8).poison d d p
    rwa [if_pos rfl] at h
  rw [Mem.poisoned, e, Mem.whole_writeDouble_self]
  simp

/-! ### The canonical form -/

theorem Mem.wf_iff (m : Mem) : m.wf = true ↔
    tabWf m.cells = true ∧ tabWf m.poison = true ∧ tabWf m.tags = true ∧ (m.tags.all fun e => e.2 != 0) = true := by
  simp only [Mem.wf, Bool.and_eq_true, and_assoc]

/-- A memory that differs in its bytes alone, each table in order. -/
theorem Mem.wf_cells {m : Mem} (h : m.wf = true) (c : List Host.Cell) (hc : tabWf c = true) : Mem.wf { m with cells := c } = true := by
  rw [Mem.wf_iff] at *; exact ⟨hc, h.2⟩

theorem Mem.wf_poison {m : Mem} (h : m.wf = true) (p : Tab Unit) (hp : tabWf p = true) : Mem.wf { m with poison := p } = true := by
  rw [Mem.wf_iff] at *; exact ⟨h.1, hp, h.2.2⟩

theorem Mem.wf_sAdd {m : Mem} (h : m.wf = true) (d : Nat) : Mem.wf { m with poison := sAdd m.poison d } = true :=
  Mem.wf_poison h _ (tabWf_tput _ _ _ ((Mem.wf_iff m).1 h).2.1)

theorem Mem.wf_write (n : Nat) : ∀ {m : Mem} (k v : Nat), m.wf = true → (m.write k v n).wf = true := by
  induction n with
  | zero => intro m k v h; exact h
  | succ n ih =>
    intro m k v h
    unfold Mem.write
    exact ih _ _ (Mem.wf_cells h _ (tabWf_tput _ _ _ ((Mem.wf_iff m).1 h).1))

theorem Mem.wf_sSet {m : Mem} (h : m.wf = true) (d : Nat) (p : Bool) : Mem.wf { m with poison := sSet m.poison d p } = true :=
  Mem.wf_poison h _ (tabWf_sSet _ _ _ ((Mem.wf_iff m).1 h).2.1)

theorem Mem.wf_writeDouble {m : Mem} (d v : Nat) (p : Bool) (h : m.wf = true) : (m.writeDouble d v p).wf = true :=
  Mem.wf_sSet (Mem.wf_write 8 d v h) d p

theorem Mem.wf_writePart {m : Mem} (k v n : Nat) (p : Bool) (h : m.wf = true) : (m.writePart k v n p).wf = true :=
  Mem.wf_sSet (Mem.wf_write n k v (Mem.wf_write 8 _ _ h)) _ _

theorem Mem.wf_store {m : Mem} (k v n : Nat) (p : Bool) (h : m.wf = true) : (m.store k v n p).wf = true := by
  unfold Mem.store
  split
  · exact Mem.wf_writeDouble _ _ _ h
  · exact Mem.wf_writePart _ _ _ _ h

theorem Mem.wf_writeDoubles (l : List Word) : ∀ {m : Mem} (k : Nat), m.wf = true → (m.writeDoubles k l).wf = true := by
  induction l with
  | nil => intro m k h; exact h
  | cons w t ih => intro m k h; exact ih _ (Mem.wf_writeDouble _ _ _ h)

theorem Mem.wf_rewriteDoubles (l : List Word) : ∀ {m : Mem} (k : Nat), m.wf = true → (m.rewriteDoubles k l).wf = true := by
  induction l with
  | nil => intro m k h; exact h
  | cons w t ih => intro m k h; exact ih _ (Mem.wf_write 8 _ _ h)

theorem Mem.wf_writeSpan {m : Mem} (b : Nat) (l : List Word) (h : m.wf = true) : (m.writeSpan b l).wf = true :=
  Mem.wf_writeDoubles _ _ (Mem.wf_writeDoubles _ _ h)

/-- What one update of a fold keeps, the fold keeps. -/
theorem Mem.wf_foldl {α : Type} (f : Mem → α → Mem) (hf : ∀ m a, m.wf = true → (f m a).wf = true) (l : List α) :
    ∀ {m : Mem}, m.wf = true → (l.foldl f m).wf = true := by
  induction l with
  | nil => intro m h; exact h
  | cons a t ih => intro m h; exact ih (hf m a h)

theorem Mem.wf_writeUnit {m : Mem} (b : Nat) (ws : List Word) (p q : Bool) (h : m.wf = true) : (m.writeUnit b ws p q).wf = true := by
  unfold Mem.writeUnit
  refine Mem.wf_foldl _ (fun m i hm => ?_) _ h
  dsimp only
  split
  · exact Mem.wf_writeDouble _ _ _ hm
  · split <;> exact Mem.wf_writeDouble _ _ _ hm

/-- Memory that keeps part of its contents keeps its form. -/
theorem Mem.wf_keep {m : Mem} (p : Nat → Bool) (h : m.wf = true) : (m.keep p).wf = true := by
  rw [Mem.wf_iff] at *
  refine ⟨tabWf_filter _ _ h.1, tabWf_filter _ _ h.2.1, tabWf_filter _ _ h.2.2.1, ?_⟩
  have a := h.2.2.2
  simp only [List.all_eq_true, Mem.keep, List.mem_filter] at *
  exact fun e he => a e he.1

theorem tags_tdel_all (t : Tab Nat) (k : Nat) (h : (t.all fun e => e.2 != 0) = true) : ((tdel t k).all fun e => e.2 != 0) = true := by
  induction t with
  | nil => rfl
  | cons e t ih =>
    obtain ⟨j, w⟩ := e
    simp only [List.all_cons, Bool.and_eq_true] at h
    unfold tdel
    split
    · exact ih h.2
    · simp only [List.all_cons, Bool.and_eq_true]
      exact ⟨h.1, ih h.2⟩

theorem tags_tput_all (t : Tab Nat) (k v : Nat) (hv : v ≠ 0) (h : (t.all fun e => e.2 != 0) = true) :
    ((tput t k v).all fun e => e.2 != 0) = true := by
  induction t with
  | nil => simp [tput, hv]
  | cons e t ih =>
    obtain ⟨j, w⟩ := e
    simp only [List.all_cons, Bool.and_eq_true] at h
    unfold tput
    split
    · simp only [List.all_cons, Bool.and_eq_true]; exact ⟨by simp [hv], h.2⟩
    · split
      · simp only [List.all_cons, Bool.and_eq_true]; exact ⟨by simp [hv], h⟩
      · simp only [List.all_cons, Bool.and_eq_true]; exact ⟨h.1, ih h.2⟩

/-- Noting how a double is encoded keeps the form: the tag of the Strong code's region 0 is not listed (R408). -/
theorem tags_all_filter (t : Tab Nat) (p : Nat × Nat → Bool) (h : (t.all fun e => e.2 != 0) = true) :
    ((t.filter p).all fun e => e.2 != 0) = true := by
  rw [List.all_eq_true] at *
  exact fun e he => h e (List.mem_filter.1 he).1

theorem tags_wf_foldl (l : List Nat) (e : Nat) (t : Tab Nat) (h : tabWf t = true ∧ (t.all fun x => x.2 != 0) = true) :
    tabWf (l.foldl (fun t d => if e = 0 then tdel t d else tput t d e) t) = true ∧
      ((l.foldl (fun t d => if e = 0 then tdel t d else tput t d e) t).all fun x => x.2 != 0) = true := by
  induction l generalizing t with
  | nil => exact h
  | cons d l ih =>
    refine ih _ ?_
    dsimp only
    split
    · exact ⟨tabWf_tdel _ _ h.1, tags_tdel_all _ _ h.2⟩
    · next hv => exact ⟨tabWf_tput _ _ _ h.1, tags_tput_all _ _ _ hv h.2⟩

theorem State.encode_wf (s : State) (a : Nat) (h : s.mem.wf = true) : (s.encode a).mem.wf = true := by
  unfold State.encode
  split
  · rw [Mem.wf_iff] at *
    exact ⟨h.1, h.2.1, tags_wf_foldl _ _ _ h.2.2⟩
  · exact h

theorem State.withMem_wf (s : State) (m : Mem) (h : m.wf = true) : (s.withMem m).mem.wf = true := h

/-- Marking doubles one after another keeps the marks in order. -/
theorem tabWf_sAdds (l : List Nat) (b : Nat) (p : Tab Unit) (h : tabWf p = true) :
    tabWf (l.foldl (fun p i => sAdd p (b + 8 * i)) p) = true := by
  induction l generalizing p with
  | nil => exact h
  | cons i t ih => exact ih _ (tabWf_tput _ _ _ h)

theorem State.poisonBlock_wf (s : State) (a : Nat) (h : s.mem.wf = true) : (s.poisonBlock a).mem.wf = true :=
  Mem.wf_poison h _ (tabWf_sAdds _ _ _ ((Mem.wf_iff _).1 h).2.1)

/-- Right after reset no byte, no mark and no tag is listed. -/
theorem reset_mem_wf : State.reset.mem.wf = true := rfl

end Sys2Proof.Machine
end

