-- ==== Sys2Proof/Laws/Codes.lean ====
section
/-! SUPPORT. What the memory codes touch when a read or a merge finds an error, and what a store or a load does to the rest of
the state (R73, R74, R414, R415, R419, R591). -/

namespace Sys2Proof.Machine

open Sys2Proof

/-- From `s` to `t` nothing changes but registers, the recorder, the Chain's messages, the codes' and the faults' own counts, the
pool's count of a bead's errors, the firmware's own record of marks, and memory where a mark or a settled merge changes it. -/
structure CodesOnly (s t : State) : Prop where
  same : t = { s with
    regs := t.regs
    evr := t.evr
    lkt := t.lkt
    net := t.net
    txSeq := t.txSeq
    mec := t.mec
    flt := t.flt
    pool := t.pool
    fw := t.fw
    mem := t.mem }
  wf : s.mem.wf = true → t.mem.wf = true

namespace CodesOnly

theorem refl (s : State) : CodesOnly s s := ⟨rfl, id⟩

theorem trans {s t u : State} (h : CodesOnly s t) (k : CodesOnly t u) : CodesOnly s u :=
  ⟨by have e := k.same; rw [h.same] at e; exact e, k.wf ∘ h.wf⟩

theorem ofEvr {s t : State} (h : EvrOnly s t) : CodesOnly s t :=
  ⟨by have e := h.same; rw [e], fun k => by rw [h.same]; exact k⟩

theorem setFld (s : State) (f : Fld) (v : Nat) : CodesOnly s (s.setFld f v) := ⟨rfl, id⟩
theorem setReg (s : State) (o : Nat) (w : Word) : CodesOnly s (s.setReg o w) := ⟨rfl, id⟩
theorem incSat (s : State) (f : Fld) : CodesOnly s (s.incSat f) := ⟨rfl, id⟩
theorem incWrap (s : State) (f : Fld) : CodesOnly s (s.incWrap f) := ⟨rfl, id⟩
theorem withMec (s : State) (m : Mec) : CodesOnly s { s with mec := m } := ⟨rfl, id⟩
theorem withPool (s : State) (p : Pool) : CodesOnly s { s with pool := p } := ⟨rfl, id⟩
theorem log (s : State) (v u k : Nat) (b : BitVec 256) : CodesOnly s (s.log v u k b) := ofEvr (State.log_evrOnly s v u k b)

theorem mecNotice (s : State) (u a b : Nat) : CodesOnly s (s.mecNotice u a b) := by
  unfold State.mecNotice
  split
  · exact ofEvr (EvrOnly.hwSend s _ _ _ _ _)
  · exact refl s

theorem faultNow (s : State) (k u : Nat) (i m : Bool) : CodesOnly s (s.faultNow k u i m) := by
  unfold State.faultNow
  refine CodesOnly.trans (t := s.faultDetected k u i m) ?_ (ofEvr (EvrOnly.faultTold _ _ _ _ _ _ _))
  cases m <;> exact ⟨rfl, id⟩

/-- A Light region's bytes, marks and tags leave the tables together. -/
theorem lightToStrong (s : State) : CodesOnly s s.lightToStrong := by
  unfold State.lightToStrong
  generalize List.range 16 = l
  induction l generalizing s with
  | nil => exact refl s
  | cons r l ih =>
    refine CodesOnly.trans ?_ (ih _)
    dsimp only
    split
    · refine CodesOnly.trans ⟨rfl, fun k => ?_⟩ (setFld _ _ _)
      rw [Mem.wf_iff] at *
      exact ⟨tabWf_filter _ _ k.1, tabWf_filter _ _ k.2.1, tabWf_filter _ _ k.2.2.1, tags_all_filter _ _ k.2.2.2⟩
    · exact refl s

theorem withFw (s : State) (f : Fw) : CodesOnly s { s with fw := f } := ⟨rfl, id⟩

theorem markDevice (s : State) (c d : Nat) : CodesOnly s (s.markDevice c d) := by
  unfold State.markDevice
  split
  · exact refl s
  · dsimp only
    refine CodesOnly.trans ?_ (((withFw _ _).trans (lightToStrong _)).trans ((faultNow _ _ _ _ _).trans (mecNotice _ _ _ _)))
    split
    · exact (setFld s _ _).trans (setFld _ _ _)
    · exact (setFld s _ _).trans (setFld _ _ _)

/-- At the threshold a device is marked, or what cannot be marked is logged (R415, R422). -/
theorem markOrLog {s u : State} (h : CodesOnly s u) (p q : Prop) [Decidable p] [Decidable q] (c d v w k : Nat) (b : BitVec 256) :
    CodesOnly s (if p then (if q then u else if u.marked c = true then u.log v w k b else u.markDevice c d) else u) := by
  split
  · split
    · exact h
    · split
      · exact h.trans (log _ _ _ _ _)
      · exact h.trans (markDevice _ _ _)
  · exact h

theorem countDevice (s : State) (c d : Nat) : CodesOnly s (s.countDevice c d) := by
  unfold State.countDevice
  split
  · exact refl s
  · exact markOrLog (((incWrap s _).trans (setFld _ _ _)).trans (withMec _ _)) _ _ _ _ _ _ _ _

theorem countCorrected (s : State) (n a d : Nat) : CodesOnly s (s.countCorrected n a d) := by
  unfold State.countCorrected
  split
  · dsimp only
    split
    · exact ((((incWrap s _).trans (withMec _ _)).trans (setReg _ _ _)).trans (withPool _ _)).trans (incSat _ _)
    · exact ((incWrap s _).trans (withMec _ _)).trans (setReg _ _ _)
  · exact (((incWrap s _).trans (withMec _ _)).trans (setReg _ _ _)).trans (countDevice _ _ _)

theorem countBeadUe (s : State) (b : Nat) : CodesOnly s (s.countBeadUe b) :=
  ((withPool s _).trans (incSat _ _)).trans (setFld _ _ _)

theorem countUe (s : State) (o : Option (Nat × Nat × Nat)) (t : Bool) (c : Consumer) : CodesOnly s (match o with
    | some _ => let s := s.incSat fMEC_CNT1_UE
      if c = Consumer.fetch then s.incSat fMEC_CNT1_FETCH else s
    | none => let s := s.incSat fMEC_CNT0_UE
      if t then s.incSat fMEC_CNT0_TAG else s) := by
  cases o <;> dsimp only <;> split
  · exact (incSat s _).trans (incSat _ _)
  · exact incSat s _
  · exact (incSat s _).trans (incSat _ _)
  · exact incSat s _

theorem countIn {s u : State} (h : CodesOnly s u) (r : Region) : CodesOnly s (match r with
    | .beadData b => u.countBeadUe b
    | .beadMeta b => u.countBeadUe b
    | _ => u) := by
  split
  · exact h.trans (countBeadUe u _)
  · exact h.trans (countBeadUe u _)
  · exact h

theorem errorLog {s u : State} (h : CodesOnly s u) (v w : Word) : CodesOnly s (if u.flag fMEC_ELOG0_VALID then u.setFld fMEC_ELOG0_OVF 1
    else (u.setReg rMEC_ELOG0 v).setReg rMEC_ELOG1 w) := by
  split
  · exact h.trans (setFld _ _ _)
  · exact h.trans ((setReg _ _ _).trans (setReg _ _ _))

theorem countUncorrectable (s : State) (n a d : Nat) (t : Bool) (c : Consumer) (u : Nat) :
    CodesOnly s (s.countUncorrectable n a d t c u) :=
  ((errorLog (countIn (countUe s (sramOf n a) t c) (regionAt a)) _ _).trans (log _ _ _ _ _)).trans (mecNotice _ _ _ _)

/-- The poison marks alone change. -/
theorem withPoison (s : State) (p : Tab Unit) (h : tabWf s.mem.poison = true → tabWf p = true) :
    CodesOnly s (s.withMem { s.mem with poison := p }) :=
  ⟨rfl, fun k => Mem.wf_poison k p (h ((Mem.wf_iff _).1 k).2.1)⟩

/-- What a waiting merge of a half block finds is settled by the next access to the block. -/
theorem settleHalf (s : State) (a : Nat) : CodesOnly s (s.settleHalf a) := by
  unfold State.settleHalf
  split
  · exact refl s
  · dsimp only
    split
    · exact withMec s _
    · split
      · exact (withMec s _).trans (countCorrected _ _ _ _)
      · exact ((withMec s _).trans (countUncorrectable _ _ _ _ _ _ _)).trans (withPoison _ _ (tabWf_sAdds _ _ _))

/-- A read through the codes, whatever it finds. -/
theorem readOutcome (s : State) (n a : Nat) (e : Ecc) (c : Consumer) (u : Nat) : CodesOnly s (s.readOutcome n a e c u).1 := by
  unfold State.readOutcome
  refine (settleHalf s a).trans ?_
  dsimp only
  split
  · exact countUncorrectable _ _ _ _ _ _ _
  · split
    · exact countUncorrectable _ _ _ _ _ _ _
    · split
      · exact refl _
      · exact countCorrected _ _ _ _
      · exact countUncorrectable _ _ _ _ _ _ _
      · exact countUncorrectable _ _ _ _ _ _ _

variable {s t : State}

theorem cores (h : CodesOnly s t) : t.cores = s.cores := by rw [h.same]
theorem pending (h : CodesOnly s t) : t.pending = s.pending := by rw [h.same]
theorem part (h : CodesOnly s t) : t.part = s.part := by rw [h.same]
theorem dramMiB (h : CodesOnly s t) : t.dramMiB = s.dramMiB := by rw [h.same]
theorem hqe (h : CodesOnly s t) : t.hqe = s.hqe := by rw [h.same]
theorem sig (h : CodesOnly s t) : t.sig = s.sig := by rw [h.same]

end CodesOnly

/-- A load leaves every core as it is, and memory but for what the codes do to it (R73, R414). -/
theorem State.loadBytes_codesOnly (s : State) (n a w : Nat) (e : Ecc) : CodesOnly s (s.loadBytes n a w e).1 :=
  (CodesOnly.settleHalf s a).trans (CodesOnly.readOutcome _ n a e .load n)

/-- A clean read finds nothing where no merge waits, the tag matches and no Light block lies on a marked device (R414). -/
theorem State.readOutcome_clean (s : State) (n a : Nat) (c : Consumer) (u : Nat) (hh : s.mec.halves = []) (ht : s.tagMismatch a = false)
    (hm : s.marked (s.dramChan a) = false) : s.readOutcome n a .clean c u = (s, false) := by
  have hs : s.settleHalf a = s := by simp [State.settleHalf, hh]
  simp [State.readOutcome, hs, ht, hm]

/-- A merge that finds an error poisons, and keeps the canonical form (R417). -/
theorem wf_poisonIf {u : State} (h : u.mem.wf = true) (q strong : Bool) (a d : Nat) :
    (if q = true then (if strong = true then u.poisonBlock a else u.withMem { u.mem with poison := sAdd u.mem.poison d }) else u).mem.wf
      = true := by
  cases q
  · exact h
  · cases strong
    · exact Mem.wf_sAdd h d
    · exact State.poisonBlock_wf u a h

theorem readIf_wf (s : State) (m : Bool) (n a : Nat) (e : Ecc) (h : s.mem.wf = true) :
    (if m = true then s.readOutcome n a e Consumer.merge n else (s, false)).1.mem.wf = true := by
  cases m
  · exact h
  · exact (CodesOnly.readOutcome s n a e .merge n).wf h

/-- A store keeps the memory in its canonical form (R74, R413, R417). -/
theorem State.storeBytes_wf (s : State) (n a v w : Nat) (p : Bool) (e : Ecc) (h : s.mem.wf = true) :
    (s.storeBytes n a v w p e).mem.wf = true :=
  State.encode_wf _ _ (Mem.wf_store _ _ _ _ (wf_poisonIf (readIf_wf _ _ _ _ _ h) _ _ _ _))

end Sys2Proof.Machine
end

