-- ==== Sys2Proof/Laws/Facet.lean ====
section
/-! SUPPORT. What the shared operations of a Facet core do, each said once in the terms of Safety.lean: the fetch, an instruction
that writes a register, one that jumps, and trap entry. -/

namespace Sys2Proof.Machine

open Sys2Proof

@[simp] theorem State.setCore_core (s : State) (n : Nat) (c : Core) : (s.setCore n c).core n = c := by
  simp [State.core, State.setCore]

theorem State.setCore_core_ne (s : State) {n m : Nat} (c : Core) (h : m ≠ n) : (s.setCore n c).core m = s.core m := by
  simp only [State.core, State.setCore]
  exact tgetD_tput_ne _ _ _ (Ne.symm h)

theorem onlyCore_setCore (s : State) (n : Nat) (c : Core) : OnlyCore s (s.setCore n c) n :=
  ⟨fun _ h => s.setCore_core_ne c h, rfl⟩

theorem OnlyCore.trans {s t u : State} {n : Nat} (h : OnlyCore s t n) (k : OnlyCore t u n) : OnlyCore s u n := by
  refine ⟨fun m hm => (k.1 m hm).trans (h.1 m hm), ?_⟩
  rw [k.2, h.2]

/-- A register that is written reads as written, `g0` as zero; the others keep their values. -/
theorem Core.get_set (c : Core) (r q : Nat) (v : RVal) :
    (c.set r v).get q = if q = r then (if r = 0 then ⟨0#64, false⟩ else v) else c.get q := by
  unfold Core.set
  split
  · subst r
    split
    · subst q; simp [Core.get]
    · rfl
  · rename_i hr
    by_cases hq : q = r
    · subst q; simp [Core.get, hr]
    · simp only [hq, if_false, Core.get]
      split
      · rfl
      · exact tgetD_tput_ne _ _ _ (Ne.symm hq)

@[simp] theorem Core.done_get (c : Core) (pc r : Nat) : (c.done pc).get r = c.get r := rfl

theorem Core.set_rest (c : Core) (r : Nat) (v : RVal) : c.set r v = { c with g := (c.set r v).g } := by
  unfold Core.set
  split <;> rfl

/-- Sending control to `pc` is all that `goto` does. -/
theorem State.goto_jumps (s : State) (n pc : Nat) : Jumps s (s.goto n pc) n pc := by
  refine ⟨fun q => ?_, onlyCore_setCore _ _ _, ?_⟩
  · simp [State.goto]
  · simp [State.goto, Core.done]

/-- Writing a register and sending control to `pc`. -/
theorem State.setG_goto (s : State) (n r pc : Nat) (v : Word) (p : Bool) :
    Writes s ((s.setG n r ⟨v, p⟩).goto n pc) n r v p ∧ Completes s ((s.setG n r ⟨v, p⟩).goto n pc) n pc := by
  refine ⟨⟨?_, fun q hq => ?_⟩, (onlyCore_setCore _ _ _).trans (onlyCore_setCore _ _ _), ?_⟩
  · simp [State.goto, State.setG, Core.get_set]
  · simp [State.goto, State.setG, Core.get_set, hq]
  · simp only [State.goto, State.setG, State.setCore_core, Core.done]
    rw [Core.set_rest]

/-- An instruction that completes with a result in `gd`. -/
theorem State.result_result (s : State) (n gd : Nat) (v : Word) (p : Bool) : Result s (s.result n gd v p) n gd v p := by
  have h := s.setG_goto n gd (((s.setG n gd ⟨v, p⟩).core n).pc + 4) v p
  have hp : ((s.setG n gd ⟨v, p⟩).core n).pc = (s.core n).pc := by
    simp only [State.setG, State.setCore_core]
    rw [Core.set_rest]
  rw [hp] at h
  unfold State.result State.advance
  rw [hp]
  exact h

/-- With its instruction fetched, a Facet command does just its effect. -/
theorem State.facet_of_fetches {s u : State} {n : Nat} {f : Ecc} (h : Fetches s u n f) (k : State → State) :
    s.facet n f k = k u := by
  unfold Fetches at h
  simp [State.facet, h]

/-- Taking a trap other than an abort, outside a handler and a transaction. -/
theorem State.trap_traps (s : State) {n : Nat} (code detail info : Nat) (async : Bool) (h : Plain s n) (hc : code ≠ 7) :
    Traps s (s.trap n code detail info async) n code detail info async := by
  obtain ⟨h1, h2⟩ := h
  have he : ∀ b, s.endTx n b = s := fun b => by simp [State.endTx, h2]
  have ht : s.trap n code detail info async = s.setCore n ((s.core n).enterTrap code detail info async) := by
    simp [State.trap, h1, hc, he]
  rw [ht]
  refine ⟨onlyCore_setCore _ _ _, ?_⟩
  simp [Core.enterTrap, Core.base]

/-- A poisoned operand bites, a clean one does not. -/
theorem State.bite_clean (s : State) {n d r : Nat} (k : State → State) (h : s.gp n r = false) : s.bite n d r k = k s := by
  simp [State.bite, h]

theorem State.bite_poisoned (s : State) {n d r : Nat} (k : State → State) (h : s.gp n r = true) :
    s.bite n d r k = s.trap n 0x04 d r := by
  simp [State.bite, h]

/-- A core that is ready, and on whose fetch the code finds nothing, executes in the same state. -/
theorem State.gate_ready (s : State) (n : Nat) (h : Ready s n) : Fetches s s n .clean := by
  obtain ⟨h1, h2, h3, h4, h5, h6, h7⟩ := h
  have hr : regionAt (s.core n).pc = .imem := by simp [regionAt, h5]
  have ho : s.readOutcome n (s.core n).pc .clean .fetch n = (s, false) := by
    have hs : s.settleHalf (s.core n).pc = s := by
      have hn : ∀ l : List HalfBlock, (l.find? fun _ => false) = none := fun l => by induction l <;> simp_all
      simp [State.settleHalf, hr, hn]
    simp [State.readOutcome, hs, State.tagMismatch, hr]
  have h8 : ¬0x10000 ≤ (s.core n).pc := by omega
  simp [Fetches, State.gate, h1, h2, h3, h4, h7, h8, ho]

end Sys2Proof.Machine
end

