-- ==== Sys2Proof/Laws/Units.lean ====
section
/-! SUPPORT. Units as bytes and doubles: both forms hold the same, and a unit that is made passes its own tag check (R202, R205). -/

namespace Sys2Proof.Machine

open Sys2Proof

/-- The number that bytes hold, the first the least significant. -/
def leNat (l : List Byte) : Nat := l.foldr (fun b a => b.toNat + 256 * a) 0

@[simp] theorem bytesOf_length (n : Nat) : ∀ v, (bytesOf v n).length = n := by
  induction n with
  | zero => intro v; rfl
  | succ n ih => intro v; rw [bytesOf, List.length_cons, ih]

theorem leNat_bytesOf (n : Nat) : ∀ v, leNat (bytesOf v n) = v % 256 ^ n := by
  induction n with
  | zero => intro v; simp [bytesOf, leNat, Nat.mod_one]
  | succ n ih =>
    intro v
    have e := ih (v / 256)
    unfold leNat at e ⊢
    rw [bytesOf, List.foldr_cons, e, BitVec.toNat_ofNat, Nat.pow_succ 256, Nat.mul_comm (256 ^ n) 256, Nat.mod_mul]

theorem leNat_lt : ∀ l : List Byte, leNat l < 256 ^ l.length
  | [] => by decide
  | b :: l => by
    have := leNat_lt l
    have hb := b.isLt
    rw [List.length_cons, Nat.pow_succ]
    unfold leNat at this ⊢
    rw [List.foldr_cons]
    omega

theorem bytesOf_leNat : ∀ l : List Byte, bytesOf (leNat l) l.length = l
  | [] => rfl
  | b :: l => by
    have hb := b.isLt
    have e : leNat (b :: l) = b.toNat + 256 * leNat l := rfl
    rw [List.length_cons, bytesOf, e, show (b.toNat + 256 * leNat l) / 256 = leNat l by omega, bytesOf_leNat l]
    congr 1
    apply BitVec.eq_of_toNat_eq
    rw [BitVec.toNat_ofNat]
    omega

/-- The bytes of the doubles of some bytes are those bytes. -/
theorem unitBytes_wordsOf : ∀ (n : Nat) (l : List Byte), l.length = 8 * n → unitBytes (wordsOf l n) = l
  | 0, l, h => by rw [List.length_eq_zero_iff.1 (by omega : l.length = 0)]; rfl
  | n + 1, l, h => by
    have ht : (l.take 8).length = 8 := by rw [List.length_take]; omega
    have hlt := leNat_lt (l.take 8)
    rw [ht] at hlt
    have e : unitBytes (wordsOf l (n + 1)) = bytesOf (BitVec.ofNat 64 (leNat (l.take 8))).toNat 8 ++ unitBytes (wordsOf (l.drop 8) n) := rfl
    have h8 : bytesOf (leNat (l.take 8)) 8 = l.take 8 := by
      have := bytesOf_leNat (l.take 8)
      rwa [ht] at this
    rw [e, unitBytes_wordsOf n (l.drop 8) (by rw [List.length_drop]; omega), BitVec.toNat_ofNat, Nat.mod_eq_of_lt (by omega), h8,
      List.take_append_drop]

theorem unitBytes_length : ∀ ws : List Word, (unitBytes ws).length = 8 * ws.length
  | [] => rfl
  | w :: l => by
    have e : unitBytes (w :: l) = bytesOf w.toNat 8 ++ unitBytes l := rfl
    rw [e, List.length_append, bytesOf_length, unitBytes_length l, List.length_cons]; omega

/-- A unit that is made passes its tag check (R202, R205). -/
theorem mkUnit_good (data hmeta : List Word) (seq lba ns kind stripe : Nat) :
    tagCrcGood (unitBytes (mkUnit data hmeta seq lba ns kind stripe)) = true := by
  unfold mkUnit
  dsimp only
  generalize hb : unitBytes (((List.range 512).map fun i => data.getD i 0#64) ++ (List.range 8).map fun i => hmeta.getD i 0#64) ++
    tagBytes seq lba ns kind stripe = bytes
  have hl : bytes.length = 4188 := by
    rw [← hb, List.length_append, unitBytes_length]
    simp only [tagBytes, List.length_append, List.length_map, List.length_range, bytesOf_length]
  rw [unitBytes_wordsOf 524 _ (by rw [List.length_append, hl, bytesOf_length])]
  unfold tagCrcGood
  rw [List.take_left' hl, List.drop_left' hl, List.take_of_length_le (Nat.le_of_eq (bytesOf_length ..))]
  have e := leNat_bytesOf 4 (crc32c bytes).toNat
  unfold leNat at e
  rw [e]
  have := (crc32c bytes).isLt
  rw [Nat.mod_eq_of_lt (by omega)]
  exact decide_eq_true rfl

end Sys2Proof.Machine
end

