-- ==== Sys2Proof/Laws/Stripes.lean ====
section
/-! SUPPORT. Where stripes go: the layout of a band of one block in each of some channels, the stripes and places that take units, and
the flushes whose units find a place (R222, R361 to R368, R376). -/

namespace Sys2Proof.Machine

open Sys2Proof

/-! ### Bands of one block in each of `w` channels -/

theorem swapAt_perm (l : List Nat) (i j : Nat) (hi : i < l.length) (hj : j < l.length) : (swapAt l i j).Perm l := by
  unfold swapAt
  rw [List.getD_eq_getElem?_getD, List.getD_eq_getElem?_getD, List.getElem?_eq_getElem hi, List.getElem?_eq_getElem hj,
    Option.getD_some, Option.getD_some]
  exact List.set_set_perm hi hj

theorem shuffleGo_perm (b wl sel : Nat) : ∀ (i : Nat) (l : List Nat), (l = [] ∨ i < l.length) → (shuffleGo b wl sel i l).Perm l
  | 0, _, _ => .refl _
  | i + 1, l, h => by
    rcases h with rfl | h
    · exact shuffleGo_perm b wl sel i _ (Or.inl rfl)
    · have hp := swapAt_perm l (i + 1) (layRnd b wl sel (i + 1) % (i + 2)) h (by
        have := Nat.mod_lt (layRnd b wl sel (i + 1)) (show 0 < i + 2 by omega); omega)
      exact (shuffleGo_perm b wl sel i _ (Or.inr (by rw [hp.length_eq]; omega))).trans hp

/-- A shuffle is a permutation (R368). -/
theorem shuffle_perm (b wl sel : Nat) (l : List Nat) : (shuffle b wl sel l).Perm l :=
  shuffleGo_perm b wl sel _ l (by cases l <;> simp)

/-- Dies in distinct channels all fit one stripe (R368). -/
theorem pickStripe_all (w : Nat) : ∀ p cur : List Nat, (cur ++ p).length ≤ w → (cur ++ p).Pairwise (fun a b => a / 16 ≠ b / 16) →
    pickStripe w p cur = (cur ++ p, [])
  | [], cur, _, _ => by rw [pickStripe, List.append_nil]
  | d :: t, cur, hl, hp => by
    have h1 : cur.length < w := by rw [List.length_append, List.length_cons] at hl; omega
    have h2 : (cur.any fun x => x / 16 == d / 16) = false := by
      rw [List.any_eq_false]
      intro x hx
      simpa using (List.pairwise_append.1 hp).2.2 x hx d List.mem_cons_self
    rw [pickStripe, if_pos (by simp [h1, h2])]
    have := pickStripe_all w t (cur ++ [d]) (by simpa using hl) (by simpa using hp)
    simpa using this

/-- The dies of a band with one block in each of the first `w` channels. -/
def diesOf (w : Nat) : List Nat := (List.range w).map (· * 16)

/-- What the layout asks of so many channels, said so that it evaluates. -/
def channelsOk (w : Nat) : Bool :=
  decide (0 < w ∧ (List.range 32).filter (fun c => (diesOf w).any fun d => d / 16 == c) = List.range w) &&
    (List.range w).all fun c => ((List.range 16).map (c * 16 + ·)).filter (fun d => (diesOf w).contains d) == [c * 16]

/-- Their layout is one stripe of them all, in an order that the seed decides (R368). -/
theorem layout_one (b wl w : Nat) (h : channelsOk w = true) : ∃ ds, ds.Perm (diesOf w) ∧ layout b wl w (diesOf w) = ([ds], []) := by
  rw [channelsOk, Bool.and_eq_true, decide_eq_true_eq, List.all_eq_true] at h
  obtain ⟨⟨hw, hc⟩, hl⟩ := h
  have hperm := shuffle_perm b wl 0xFF (List.range w)
  have hm : (shuffle b wl 0xFF (List.range w)).map (fun c => shuffle b wl c (((List.range 16).map (c * 16 + ·)).filter fun d => (diesOf w).contains d)) =
      (shuffle b wl 0xFF (List.range w)).map fun c => [c * 16] :=
    List.map_congr_left fun c hcc => by
      rw [eq_of_beq (hl c (hperm.mem_iff.1 hcc))]; rfl
  have hs : layoutSeq b wl (diesOf w) = (shuffle b wl 0xFF (List.range w)).map (· * 16) := by
    unfold layoutSeq
    simp only [hc, hm]
    rw [show (List.range 16) = 0 :: (List.range 15).map (· + 1) from by decide, List.flatMap_cons,
      List.filterMap_map, List.flatMap_map]
    have e2 : ((List.range 15).flatMap fun a => ((shuffle b wl 0xFF (List.range w)).map fun c => [c * 16]).filterMap fun l => l[a + 1]?) = [] := by
      rw [List.flatMap_eq_nil_iff]
      intro a _
      rw [List.filterMap_eq_nil_iff]
      intro x hx
      obtain ⟨c, -, rfl⟩ := List.mem_map.1 hx
      rfl
    rw [e2, List.append_nil]
    exact List.filterMap_eq_map (f := (· * 16)) ▸ rfl
  have hp : ((shuffle b wl 0xFF (List.range w)).map (· * 16)).Perm (diesOf w) := hperm.map _
  refine ⟨_, hp, ?_⟩
  have hlen : ((shuffle b wl 0xFF (List.range w)).map (· * 16)).length = w := by rw [hp.length_eq, diesOf, List.length_map, List.length_range]
  have hpw : ((shuffle b wl 0xFF (List.range w)).map (· * 16)).Pairwise (fun a b => a / 16 ≠ b / 16) := by
    rw [List.pairwise_map]
    refine List.Pairwise.imp (fun hab => ?_) (hperm.nodup_iff.2 List.nodup_range)
    intro e
    exact hab (by omega)
  have hpick := pickStripe_all w _ [] (Nat.le_of_eq hlen) (by simpa using hpw)
  rw [List.nil_append] at hpick
  unfold layout
  rw [hs, show (diesOf w).length = (w - 1) + 1 by rw [diesOf, List.length_map, List.length_range]; omega, stripesGo]
  simp only [hpick, hlen, Nat.lt_irrefl, if_false]
  have : stripesGo w (w - 1) [] = ([], []) := by
    cases w - 1 with
    | zero => rfl
    | succ n => rw [stripesGo, if_pos (by rw [pickStripe]; exact hw)]
  rw [this]

/-- The layout of a band of one block in each of `k + 2` channels: one stripe of them all (R368). -/
theorem layoutAt_one {bd : Band} (serial row : Nat) (hd : bd.blocks.map dieOfBlock = diesOf (bd.k + 2)) (hc : channelsOk (bd.k + 2) = true)
    (hg : bd.gone = []) : ∃ ds, ds.Perm (diesOf (bd.k + 2)) ∧ bd.layoutAt serial row = ([ds], []) := by
  obtain ⟨ds, hp, hl⟩ := layout_one serial (wordlineOf bd.use row) _ hc
  refine ⟨ds, hp, ?_⟩
  rw [Band.layoutAt, hd, List.filter_eq_self.2 (fun d _ => by rw [hg]; rfl)]
  exact hl

/-- Stripe 0 of a row of a band of one block in each of `k + 2` channels can be programmed. -/
structure RowFree (s : State) (fence : Bool) (use serial row : Nat) (bd : Band) : Prop where
  band : s.band serial = some bd
  isOpen : bd.state = 0
  uses : bd.use = use
  dies : bd.blocks.map dieOfBlock = diesOf (bd.k + 2)
  channels : channelsOk (bd.k + 2) = true
  none_gone : bd.gone = []
  row_lt : row < s.rowsOf use
  window : s.windowDurable serial row = true
  may : ∀ d ∈ diesOf (bd.k + 2), s.mayProgram fence use (bd.blockOn d) row = true

/-- The same, said so that it evaluates. -/
def rowFreeB (s : State) (fence : Bool) (use serial row : Nat) (bd : Band) : Bool :=
  decide (s.band serial = some bd ∧ bd.state = 0 ∧ bd.use = use ∧ bd.blocks.map dieOfBlock = diesOf (bd.k + 2) ∧
    channelsOk (bd.k + 2) = true ∧ bd.gone = [] ∧ row < s.rowsOf use ∧ s.windowDurable serial row = true) &&
    (diesOf (bd.k + 2)).all fun d => s.mayProgram fence use (bd.blockOn d) row

theorem rowFree_of {s : State} {fence : Bool} {use serial row : Nat} {bd : Band} (h : rowFreeB s fence use serial row bd = true) :
    RowFree s fence use serial row bd := by
  rw [rowFreeB, Bool.and_eq_true, decide_eq_true_eq, List.all_eq_true] at h
  obtain ⟨⟨a, b, c, d, e, f, g, w⟩, m⟩ := h
  exact ⟨a, b, c, d, e, f, g, w, m⟩

theorem RowFree.stripe {s : State} {fence : Bool} {use serial row : Nat} {bd : Band} (h : RowFree s fence use serial row bd) :
    ∃ ds, ds.Perm (diesOf (bd.k + 2)) ∧ bd.layoutAt serial row = ([ds], []) ∧ s.freeStripe fence use serial row 0 = some (bd, ds, []) := by
  obtain ⟨ds, hp, e⟩ := layoutAt_one serial row h.dies h.channels h.none_gone
  refine ⟨ds, hp, e, ?_⟩
  have hall : ds.all (fun d => s.mayProgram fence use (bd.blockOn d) row) = true :=
    List.all_eq_true.2 fun d hd => h.may d (hp.mem_iff.1 hd)
  simp only [State.freeStripe, h.band, e, List.getElem?_cons_zero]
  rw [if_pos ⟨h.isOpen, h.uses, h.row_lt, h.window, hall⟩]

/-- `t` is `s` after a stripe of row `row` of a band: what a later row asks of the band and its blocks is as it was. -/
structure Later (s t : State) (serial row : Nat) : Prop where
  band : ∀ bd, s.band serial = some bd → ∃ bd', t.band serial = some bd' ∧ bd'.k = bd.k ∧ bd'.use = bd.use ∧ bd'.blocks = bd.blocks ∧
    bd'.state = bd.state ∧ bd'.gone = bd.gone
  wordlines : t.fw.wordlines = s.fw.wordlines
  stripes : ∃ x, t.fw.stripes = s.fw.stripes ++ x
  done : t.fw.stripesDone = s.fw.stripesDone
  durable : t.fw.durFrontier = s.fw.durFrontier
  blk : ∀ b, (t.blk b).state = (s.blk b).state ∧ (t.blk b).durable = (s.blk b).durable
  page : ∀ b, t.pageOf b ≤ max (s.pageOf b) (row + 1)

theorem Later.trans {s t u : State} {serial row : Nat} (a : Later s t serial row) (b : Later t u serial row) : Later s u serial row where
  band bd h := by
    obtain ⟨x, hx, e1, e2, e3, e4, e5⟩ := a.band bd h
    obtain ⟨y, hy, f1, f2, f3, f4, f5⟩ := b.band x hx
    exact ⟨y, hy, f1.trans e1, f2.trans e2, f3.trans e3, f4.trans e4, f5.trans e5⟩
  wordlines := b.wordlines.trans a.wordlines
  stripes := by
    obtain ⟨x, hx⟩ := a.stripes
    obtain ⟨y, hy⟩ := b.stripes
    exact ⟨x ++ y, by rw [hy, hx, List.append_assoc]⟩
  done := b.done.trans a.done
  durable := b.durable.trans a.durable
  blk n := ⟨(b.blk n).1.trans (a.blk n).1, (b.blk n).2.trans (a.blk n).2⟩
  page n := by have := a.page n; have := b.page n; omega

theorem Later.rowFree {s t : State} {fence : Bool} {use serial row r : Nat} {bd : Band} (a : Later s t serial row)
    (h : RowFree s fence use serial r bd) (hr : row < r) : ∃ bd', bd'.k = bd.k ∧ RowFree t fence use serial r bd' := by
  obtain ⟨x, hx, e1, e2, e3, e4, e5⟩ := a.band bd h.band
  have hw : t.rowsOf use = s.rowsOf use := by simp only [State.rowsOf, a.wordlines]
  refine ⟨x, e1, hx, e4.trans h.isOpen, e2.trans h.uses, by rw [e3, e1]; exact h.dies, by rw [e1]; exact h.channels,
    e5.trans h.none_gone, by rw [hw]; exact h.row_lt, ?_, ?_⟩
  · obtain ⟨y, hy⟩ := a.stripes
    have := h.window
    unfold State.windowDurable at this ⊢
    rw [hy, a.done, List.take_append, List.any_append, this]
    rfl
  · intro d hd
    rw [e1] at hd
    have hm := h.may d hd
    have hb : x.blockOn d = bd.blockOn d := by simp only [Band.blockOn, e3]
    have hp := a.page (bd.blockOn d)
    obtain ⟨h1, h2⟩ := a.blk (bd.blockOn d)
    simp only [State.mayProgram, Bool.and_eq_true, decide_eq_true_eq] at hm ⊢
    rw [hb, h1, h2, a.durable]
    exact ⟨⟨⟨hm.1.1.1, by omega⟩, hm.1.2⟩, hm.2⟩

theorem later_moveWindow (s : State) (serial row : Nat) : Later s (s.moveWindow serial row) serial row := by
  have keep : Later s s serial row :=
    ⟨fun bd h => ⟨bd, h, rfl, rfl, rfl, rfl, rfl⟩, rfl, ⟨[], (List.append_nil _).symm⟩, rfl, rfl, fun _ => ⟨rfl, rfl⟩, fun _ => by omega⟩
  unfold State.moveWindow
  split
  · rename_i bd hb
    split
    · refine ⟨fun b h => ?_, rfl, ⟨_, rfl⟩, rfl, rfl, fun _ => ⟨rfl, rfl⟩, fun b => Nat.le_max_left _ _⟩
      obtain rfl : bd = b := Option.some.inj (hb.symm.trans h)
      exact ⟨_, tget_tput_self _ _ _, rfl, rfl, rfl, rfl, rfl⟩
    · exact keep
  · exact keep

theorem foldl_inv {α β : Type} (f : α → β → α) (P : α → Prop) (h : ∀ a b, P a → P (f a b)) (l : List β) : ∀ a, P a → P (l.foldl f a) := by
  induction l with
  | nil => intro a h; exact h
  | cons b l ih => intro a ha; exact ih _ (h a b ha)

theorem later_programPages (s : State) (bd : Band) (serial row : Nat) (dies : List Nat) (slots : List (Nat × List Word)) :
    Later s (s.programPages bd row dies slots) serial row := by
  refine ⟨fun b h => ⟨b, h, rfl, rfl, rfl, rfl, rfl⟩, rfl, ⟨[], (List.append_nil _).symm⟩, rfl, rfl, fun b => ?_, fun b => ?_⟩
  · simp only [State.programPages, State.withFw, State.blk]
    refine foldl_inv _ (fun (f : Tab BlockRec) => (tgetD f b BlockRec.fresh).state = (tgetD s.fw.blocks b BlockRec.fresh).state ∧
      (tgetD f b BlockRec.fresh).durable = (tgetD s.fw.blocks b BlockRec.fresh).durable) (fun f d h => ?_) dies _ ⟨rfl, rfl⟩
    by_cases e : b = bd.blockOn d
    · subst e
      simp only [tgetD, tget_tput_self, Option.getD_some] at h ⊢
      exact h
    · rw [tgetD_tput_ne _ _ _ (Ne.symm e)]; exact h
  · simp only [State.programPages, State.withFw, State.pageOf]
    refine foldl_inv _ (fun (f : Tab Nat) => rowOf (tgetD f b (blockPpa b)) ≤ max (rowOf (tgetD s.fw.frontier b (blockPpa b))) (row + 1))
      (fun f d h => ?_) dies _ (Nat.le_max_left _ _)
    by_cases e : b = bd.blockOn d
    · subst e
      simp only [tgetD, tget_tput_self, Option.getD_some]
      refine Nat.le_trans ?_ (Nat.le_max_right _ _)
      unfold rowOf Band.ppaOn blockPpa
      omega
    · rw [tgetD_tput_ne _ _ _ (Ne.symm e)]; exact h

theorem later_rowEnds {s : State} {serial row use : Nat} {bd : Band} (hb : s.band serial = some bd) (hu : bd.use = use)
    (h : row + 1 < s.rowsOf use) : Later s (s.rowEnds serial row) serial row := by
  unfold State.rowEnds
  rw [hb]
  dsimp only
  split
  · rw [if_neg (by subst hu; exact Nat.not_le.2 h)]
    refine ⟨fun b e => ?_, rfl, ⟨_, rfl⟩, rfl, rfl, fun _ => ⟨rfl, rfl⟩, fun b => Nat.le_max_left _ _⟩
    obtain rfl : bd = b := Option.some.inj (hb.symm.trans e)
    exact ⟨_, tget_tput_self _ _ _, rfl, rfl, rfl, rfl, rfl⟩
  · exact ⟨fun bd h => ⟨bd, h, rfl, rfl, rfl, rfl, rfl⟩, rfl, ⟨[], (List.append_nil _).symm⟩, rfl, rfl, fun _ => ⟨rfl, rfl⟩,
      fun _ => Nat.le_max_left _ _⟩

theorem later_putPads (s : State) (bd : Band) (serial row : Nat) (dies : List Nat) : Later s (s.putPads bd row dies) serial row := by
  have h := later_programPages s.tick bd serial row (dies.filter fun d => s.mayProgram false bd.use (bd.blockOn d) row)
    ((dies.filter fun d => s.mayProgram false bd.use (bd.blockOn d) row).flatMap fun d => (List.range 4).map fun i =>
      (bd.ppaOn d row i, mkUnit [] [] (freshWord s).toNat (8 * 2 ^ 40) 0 7 0xFFFFFFFF))
  exact ⟨h.band, h.wordlines, h.stripes, h.done, h.durable, h.blk, h.page⟩

/-- A free stripe takes units, each in its slot; a later row of the band is as it was. -/
theorem RowFree.put {s : State} {fence : Bool} {use serial row : Nat} {bd : Band} (h : RowFree s fence use serial row bd)
    (direct : Bool) (us : List UnitIn) (hu : if direct then bd.k = 16 ∧ us.length = 64 else us.length ≤ 4 * bd.k - 1)
    (hl : row + 1 < s.rowsOf use) :
    ∃ (t : State) (ds : List Nat), ds.Perm (diesOf (bd.k + 2)) ∧ bd.layoutAt serial row = ([ds], []) ∧ Later s t serial row ∧
      s.putStripe fence use serial row 0 direct us =
        some (t, (List.range us.length).map fun i => bd.ppaOn (ds.getD (i / 4) 0) row (i % 4)) := by
  obtain ⟨ds, hds, hlay, hf⟩ := h.stripe
  have e : s.putStripe fence use serial row 0 direct us = some ((((s.moveWindow serial row).programPages bd row ds
      ((stripeSlots bd.k direct us (stripeNumber serial row 0)).map fun e => (bd.ppaOn (ds.getD e.1 0) row e.2.1, e.2.2))).putPads bd row []).rowEnds serial row,
      (List.range us.length).map fun i => bd.ppaOn (ds.getD (i / 4) 0) row (i % 4)) := by
    simp only [State.putStripe, hf]
    rw [if_neg, if_pos trivial]
    cases direct with
    | false =>
      rw [if_neg (by decide)] at hu
      simp only [Bool.false_and, Bool.not_false, Bool.true_and, Bool.false_or, decide_eq_true_eq]; omega
    | true =>
      rw [if_pos rfl] at hu
      simp [hu.1, hu.2]
  refine ⟨_, ds, hds, hlay, ?_, e⟩
  have b := ((later_moveWindow s serial row).trans (later_programPages _ bd serial row ds
      ((stripeSlots bd.k direct us (stripeNumber serial row 0)).map fun e => (bd.ppaOn (ds.getD e.1 0) row e.2.1, e.2.2)))).trans
    (later_putPads _ bd serial row [])
  obtain ⟨y, hy, -, e2, -⟩ := b.band bd h.band
  exact b.trans (later_rowEnds hy (e2.trans h.uses) (by simp only [State.rowsOf, b.wordlines] at hl ⊢; exact hl))

/-- Rows of a band, in rising order, take their units one after another. -/
theorem putRows_of {use serial : Nat} : ∀ (l : List (Nat × Bool × List UnitIn)) (s : State) (bd : Band),
    l.Pairwise (fun x y => x.1 < y.1) →
    (∀ x ∈ l, RowFree s true use serial x.1 bd ∧ x.1 + 1 < s.rowsOf use ∧
      if x.2.1 then bd.k = 16 ∧ x.2.2.length = 64 else x.2.2.length ≤ 4 * bd.k - 1) →
    ∃ t ps, s.putRows use serial 0 l = some (t, ps) ∧ ps.length = (l.map fun x => x.2.2.length).sum
  | [], s, _, _, _ => ⟨s, [], rfl, rfl⟩
  | (row, direct, us) :: l, s, bd, hp, h => by
    obtain ⟨hf, hl, hu⟩ := h _ List.mem_cons_self
    obtain ⟨t, ds, -, -, hlat, hput⟩ := hf.put direct us hu hl
    obtain ⟨hlt, hp⟩ := List.pairwise_cons.1 hp
    have hk : ∃ bd', bd'.k = bd.k ∧ ∀ x ∈ l, RowFree t true use serial x.1 bd' := by
      obtain ⟨y, hy, e1, -⟩ := hlat.band bd hf.band
      refine ⟨y, e1, fun x hx => ?_⟩
      obtain ⟨z, -, hz⟩ := hlat.rowFree (h x (List.mem_cons_of_mem _ hx)).1 (hlt x hx)
      rwa [Option.some.inj (hy.symm.trans hz.band)]
    obtain ⟨bd', ek, hall⟩ := hk
    obtain ⟨u, ps, hrest, hlen⟩ := putRows_of l t bd' hp fun x hx => ⟨hall x hx, by
      have := (h x (List.mem_cons_of_mem _ hx)).2
      simp only [State.rowsOf, hlat.wordlines, ek] at this ⊢; exact this⟩
    refine ⟨u, ((List.range us.length).map fun i => bd.ppaOn (ds.getD (i / 4) 0) row (i % 4)) ++ ps, ?_, ?_⟩
    · simp only [State.putRows, hput, hrest, Option.map_some]
    · rw [List.length_append, List.length_map, List.length_range, hlen, List.map_cons, List.sum_cons]

theorem rowsWith_pairwise (use row : Nat) : (rowsWith use row).Pairwise (· < ·) := by
  unfold rowsWith
  split
  · simp
  · rw [List.pairwise_map]
    exact (List.pairwise_lt_range (n := 3)).imp fun h => by omega

theorem rowsWith_length (use row : Nat) : (rowsWith use row).length = if slcUse use then 1 else 3 := by
  unfold rowsWith; split <;> simp

/-- A place whose rows are free takes as many units as it has room for, each in a slot of its own. -/
theorem putAt_of {s : State} {use : Nat} {w : StripeAt} {bd : Band} (hj : w.j = 0) (hw : w.failed = none)
    (h : ∀ r ∈ rowsWith use w.row.toNat, RowFree s true use w.band.toNat r bd ∧ r + 1 < s.rowsOf use)
    (us : List UnitIn) (hu : us.length ≤ (rowsWith use w.row.toNat).length * (4 * bd.k - 1)) :
    s.placeRoom use w = (rowsWith use w.row.toNat).length * (4 * bd.k - 1) ∧
    s.placeFree use w = true ∧ ∃ t ps, s.putAt use w us = some (t, ps) ∧ ps.length = us.length := by
  have hne : ∃ r, r ∈ rowsWith use w.row.toNat := by
    unfold rowsWith; split
    · exact ⟨_, List.mem_singleton_self _⟩
    · exact ⟨_, List.mem_map.2 ⟨0, by decide, rfl⟩⟩
  obtain ⟨r0, hr0⟩ := hne
  obtain ⟨hf0, -⟩ := h r0 hr0
  have hroom : s.placeRoom use w = (rowsWith use w.row.toNat).length * (4 * bd.k - 1) := by
    rw [State.placeRoom, hf0.band]
    simp only [hf0.isOpen, hf0.uses, and_self, if_true, rowsWith_length]
  have hfree : s.placeFree use w = true := by
    rw [State.placeFree, List.all_eq_true]
    intro r hr
    obtain ⟨ds, -, -, e⟩ := (h r hr).1.stripe
    rw [hj, show (0 : BitVec 7).toNat = 0 from rfl, e]; rfl
  refine ⟨hroom, hfree, ?_⟩
  have hn : s.placeRoom use w / (rowsWith use w.row.toNat).length = 4 * bd.k - 1 := by
    rw [hroom, rowsWith_length]
    split <;> omega
  have hfail : ∀ x : State, x.failsAt w = none := fun x => by rw [State.failsAt, hw]
  have hrows := putRows_of (use := use) (serial := w.band.toNat)
    ((rowsWith use w.row.toNat).mapIdx fun i r => (r, false, (us.drop ((4 * bd.k - 1) * i)).take (4 * bd.k - 1))) s bd
    (by
      rw [List.pairwise_iff_getElem]
      intro i j hi hj' hij
      simp only [List.getElem_mapIdx]
      exact List.pairwise_iff_getElem.1 (rowsWith_pairwise use w.row.toNat) i j _ _ hij)
    (by
      intro x hx
      obtain ⟨i, hi, rfl⟩ := List.mem_mapIdx.1 hx
      refine ⟨(h _ (List.getElem_mem hi)).1, (h _ (List.getElem_mem hi)).2, ?_⟩
      exact Nat.le_trans (List.length_take_le _ _) (Nat.le_refl _))
  obtain ⟨t, ps, hr, hlen⟩ := hrows
  refine ⟨t, ps, ?_, ?_⟩
  · unfold State.putAt
    simp only [hfree, hn, hfail, hj, Bool.true_and]
    rw [if_pos (by rw [hroom]; exact decide_eq_true hu), show (0 : BitVec 7).toNat = 0 from rfl, hr]; rfl
  · rw [hlen]
    unfold rowsWith at hu ⊢
    split at hu
    · rename_i hs
      simp only [hs, if_true, List.mapIdx_cons, List.mapIdx_nil, List.map_cons, List.map_nil, List.sum_cons, List.sum_nil,
        List.length_take, List.length_drop, List.length_cons, List.length_nil] at hu ⊢
      omega
    · rename_i hs
      simp only [hs, Bool.false_eq_true, if_false, show List.range 3 = [0, 1, 2] from rfl, List.map_cons, List.map_nil,
        List.mapIdx_cons, List.mapIdx_nil, List.sum_cons, List.sum_nil,
        List.length_take, List.length_drop, List.length_cons, List.length_nil] at hu ⊢
      omega

/-- A single unit takes one place. -/
theorem putAt_one {s : State} {use : Nat} {w : StripeAt} {bd : Band} (hj : w.j = 0) (hw : w.failed = none) (hk : 1 ≤ 4 * bd.k - 1)
    (h : ∀ r ∈ rowsWith use w.row.toNat, rowFreeB s true use w.band.toNat r bd = true ∧ r + 1 < s.rowsOf use) (u : UnitIn) :
    ∃ q, (s.putAt use w [u]).map (·.2) = some [q] := by
  obtain ⟨-, -, t, ps, e, hl⟩ := putAt_of hj hw (fun r hr => ⟨rowFree_of (h r hr).1, (h r hr).2⟩) [u]
    (by rw [rowsWith_length, List.length_singleton]; split <;> omega)
  rw [e]
  match ps, hl with
  | [q], _ => exact ⟨q, rfl⟩

/-- A unit that stands on a good die and passes its tag check is read as it stands (R205). -/
theorem unitAt_of {s : State} {p : Nat} {w : List Word} (h : tget s.fw.flash p = some w) (hd : s.dieLost (dieOfBlock (blockOf p)) = false)
    (hg : tagCrcGood (unitBytes w) = true) : s.unitAt p 0 = some w := by
  have hw : tgetD s.fw.flash p [] = w := by rw [tgetD, h]; rfl
  unfold State.unitAt State.unitRead
  rw [h]
  simp only [hw, hd, hg, Bool.not_false, Bool.and_self, if_true, BEq.rfl]

/-- The only stripe that holds a valid unit is the next to be rebuilt where one of its dies is lost (R384). -/
theorem nextRebuild_one {s : State} {p n : Nat} {w : List Word} {bd : Band} (hf : s.fw.flash = [(p, w)]) (hv : s.holdsValid p = true)
    (hb : s.bandOf (blockOf p) = some (n, bd)) (hd : bd.blocks.map dieOfBlock = diesOf (bd.k + 2)) (hc : channelsOk (bd.k + 2) = true)
    (hg : bd.gone = []) (hm : dieOfBlock (blockOf p) ∈ diesOf (bd.k + 2)) (hl : ∃ d ∈ diesOf (bd.k + 2), s.dieLost d = true) :
    ∃ m, s.nextRebuild = some m := by
  obtain ⟨ds, hp, e⟩ := layoutAt_one n (rowOf p) hd hc hg
  have hcon : ds.contains (dieOfBlock (blockOf p)) = true := List.contains_iff_mem.2 (hp.mem_iff.2 hm)
  have hlost : 0 < s.lossCount ds := by
    obtain ⟨d, hd, hl⟩ := hl
    unfold State.lossCount countIf
    exact List.length_pos_of_mem (List.mem_filter.2 ⟨hp.mem_iff.2 hd, hl⟩)
  have hspot : ∃ x, s.spotOf p = some x ∧ x.dies = ds := by
    unfold State.spotOf
    rw [hb]
    simp only [e, List.findIdx?_cons, hcon, if_true, List.getD_cons_zero]
    exact ⟨_, rfl, rfl⟩
  obtain ⟨x, hx, hxd⟩ := hspot
  unfold State.nextRebuild State.validStripes
  rw [hf]
  simp only [List.foldl_cons, List.foldl_nil, hv, if_true, hx, tput]
  simp only [List.filter_cons, hxd, hlost, decide_true, if_true, List.filter_nil, List.foldl_cons, List.foldl_nil, Option.map_some]
  exact ⟨_, rfl⟩

/-- A map page finds its place where the rows of the place are free (R212). -/
theorem writePage_of {s u : State} {mpn : Nat} {w : StripeAt} {bd : Band} (hj : w.j = 0) (hw : w.failed = none)
    (hd : s.decideBeads 6 2 = .grant) (hk : 2 ≤ 4 * bd.k - 1) (h0 : 0 < s.placeRoom 4 w)
    (hu : u = ((s.takeBeads 6 (fwCore 34) 2).1.poolRefresh.takeSeqs 1).1)
    (h : ∀ r ∈ rowsWith 4 w.row.toNat, rowFreeB u true 4 w.band.toNat r bd = true ∧ r + 1 < u.rowsOf 4) :
    (s.writePage mpn w).map (·.2) = some true := by
  have hready : s.readyBand 4 w = s := by rw [State.readyBand, if_pos h0]
  unfold State.writePage
  simp only [hready, hd]
  rw [if_neg (by simp)]
  obtain ⟨-, -, t, ps, e, hl⟩ := putAt_of hj hw (fun r hr => ⟨rowFree_of (h r hr).1, (h r hr).2⟩)
    [⟨((s.pageImage mpn).drop (512 * 0)).take 512, [], ((s.takeBeads 6 (fwCore 34) 2).1.poolRefresh.takeSeqs 1).2.headD 0, mpn * 2 + 0, 0, 3⟩,
     ⟨((s.pageImage mpn).drop (512 * 1)).take 512, [], ((s.takeBeads 6 (fwCore 34) 2).1.poolRefresh.takeSeqs 1).2.headD 0, mpn * 2 + 1, 0, 3⟩]
    (by rw [rowsWith_length, show slcUse 4 = false from rfl, if_neg Bool.false_ne_true]; simp only [List.length_cons, List.length_nil]; omega)
  rw [hu] at e
  simp only [e]
  cases ps with
  | nil => cases hl
  | cons p l => rfl

/-- A group of direct portions that one stripe of each of its rows holds is programmed (R214). -/
theorem putGroup_of {s : State} {w : StripeAt} {bd : Band} (ps : List (List DirectItem)) (fill : List DirectItem) (hj : w.j = 0)
    (hb : s.band w.band.toNat = some bd)
    (h : ∀ x ∈ groupRows bd.k w.row.toNat ps fill 0, RowFree s true 1 w.band.toNat x.1 bd ∧ x.1 + 1 < s.rowsOf 1 ∧
      if x.2.1 then bd.k = 16 ∧ x.2.2.length = 64 else x.2.2.length ≤ 4 * bd.k - 1) :
    ∃ u m, s.putGroup ps fill w 0 [w] = some (u, m) := by
  have hp : ((groupRows bd.k w.row.toNat ps fill 0).map fun r => (r.1, r.2.1, r.2.2.map s.itemUnit)).Pairwise (fun x y => x.1 < y.1) := by
    rw [groupRows, List.map_map, List.pairwise_map]
    refine (List.pairwise_lt_range (n := 3)).imp fun {a b} hab => ?_
    simp only [Function.comp]
    split <;> split <;> (dsimp only; omega)
  obtain ⟨t, l, hr, -⟩ := putRows_of (use := 1) (serial := w.band.toNat) _ s bd hp (by
    intro x hx
    obtain ⟨y, hy, rfl⟩ := List.mem_map.1 hx
    obtain ⟨h1, h2, h3⟩ := h y hy
    exact ⟨h1, h2, by simpa only [List.length_map] using h3⟩)
  simp only [State.putGroup, hb, Option.map_some, Option.getD_some, hj]
  rw [if_neg (by simp), show (0 : BitVec 7).toNat = 0 from rfl, hr]
  exact ⟨_, _, rfl⟩

/-- The newest system band can hold a snapshot from its first row on (R264). -/
theorem systemRow_of {s : State} {serial : Nat} {bd : Band}
    (h : (s.fw.bands.filter fun e => e.2.use == 6 && e.2.state == 0).getLast? = some (serial, bd) ∧ s.nextRow bd = 0 ∧
      1 ≤ 4 * bd.k - 1 ∧ ceilDiv s.snapshotUnits (4 * bd.k - 1) ≤ s.fw.wordlines) (hf : RowFree s true 6 serial 0 bd) :
    s.systemRow = some (serial, 0) := by
  obtain ⟨hl, hr, hk, hn⟩ := h
  obtain ⟨ds, -, e, -⟩ := hf.stripe
  rw [State.systemRow, hl]
  simp only [hr, Band.snapshotRows, e, List.length_cons, List.length_nil, Nat.zero_add, Nat.one_mul, Nat.max_eq_right hk]
  rw [if_pos hn]

/-- The first unit of a stripe stands in the first slot of its first member. -/
theorem putStripe_first {s : State} {use serial row : Nat} {bd : Band} (hf : RowFree s true use serial row bd) (u : UnitIn)
    (hk : 1 ≤ 4 * bd.k - 1) (hl : row + 1 < s.rowsOf use) :
    (s.putStripe true use serial row 0 false [u]).map (·.2) = some [bd.ppaOn (((bd.layoutAt serial row).1.headD []).headD 0) row 0] := by
  obtain ⟨t, ds, hp, e, -, h⟩ := hf.put false [u] (by rw [if_neg (by decide)]; exact hk) hl
  rw [h, e]
  cases ds with
  | nil => rfl
  | cons d l => rfl

theorem foldl_keeps {α β γ : Type} (f : α → β → α) (g : α → γ) (h : ∀ a b, g (f a b) = g a) (l : List β) : ∀ a, g (l.foldl f a) = g a := by
  induction l with
  | nil => intro a; rfl
  | cons b l ih => intro a; rw [List.foldl_cons, ih, h]

theorem putStripe_ranges {s t : State} {fence direct : Bool} {use serial row j : Nat} {us : List UnitIn} {ps : List Nat}
    (h : s.putStripe fence use serial row j direct us = some (t, ps)) : t.fw.ranges = s.fw.ranges := by
  have hc : ∀ (x : State) (n : Nat), (x.closeBand n).fw.ranges = x.fw.ranges := fun x n => by
    unfold State.closeBand
    split
    · rfl
    · simp only [State.setBand, State.withFw]
      refine foldl_keeps _ (fun (x : State) => x.fw.ranges) (fun a b => ?_) _ _
      simp only [State.journal, State.setBlk, State.withFw]
      split <;> rfl
  have hr : ∀ (x : State) (n r : Nat), (x.rowEnds n r).fw.ranges = x.fw.ranges := fun x n r => by
    unfold State.rowEnds
    split
    · rfl
    · dsimp only
      split
      · refine (apply_ite (fun (y : State) => y.fw.ranges) _ _ _).trans ?_
        rw [hc]
        split <;> rfl
      · rfl
  unfold State.putStripe at h
  split at h
  · cases h
  · split at h
    · cases h
    · obtain ⟨rfl, -⟩ := Prod.mk.inj (Option.some.inj h)
      rw [hr]
      split
      · simp only [State.putPads, State.programPages, State.withFw, State.tick, State.moveWindow]
        split <;> (try split) <;> rfl
      · simp only [State.programPages, State.withFw, State.moveWindow]
        split <;> (try split) <;> rfl

/-- The first open band of a use is such a band, with nothing programmed yet. -/
def firstFreeB (s : State) (fence : Bool) (use serial : Nat) (bd : Band) : Bool :=
  decide ((s.fw.bands.filter fun e => e.2.state == 0 && e.2.use == use).head? = some (serial, bd) ∧
    (bd.blocks.map s.pageOf).foldl max 0 = 0) && rowFreeB s fence use serial 0 bd

theorem nextStripe_of {s : State} {fence : Bool} {use serial : Nat} {bd : Band} (h : firstFreeB s fence use serial bd = true) :
    s.nextStripe fence use = some (serial, 0, 0) := by
  rw [firstFreeB, Bool.and_eq_true, decide_eq_true_eq] at h
  obtain ⟨⟨he, ht⟩, hf⟩ := h
  obtain ⟨ds, -, hl, hfr⟩ := (rowFree_of hf).stripe
  obtain ⟨l, hl2⟩ := List.head?_eq_some_iff.1 he
  simp only [State.nextStripe, hl2, List.findSome?_cons, ht, Nat.zero_sub, hl, List.length_cons, List.length_nil, Nat.zero_add,
    List.range_one, List.find?_cons, hfr, Option.isSome_some, Option.map_some]

/-- One stripe takes the units of a flush. -/
theorem putJournal_of {s : State} {serial : Nat} {bd : Band} (h : firstFreeB s true 5 serial bd = true) (us : List UnitIn)
    (hu : us.length ≤ 4 * bd.k - 1) (hl : 1 < s.fw.wordlines) :
    ∃ t ps, s.putJournal us.length us = some (t, ps) ∧ t.fw.ranges = s.fw.ranges := by
  cases hus : us with
  | nil => exact ⟨s, [], rfl, rfl⟩
  | cons u l =>
    have hn := nextStripe_of h
    rw [firstFreeB, Bool.and_eq_true] at h
    have hf := rowFree_of h.2
    rw [← hus]
    have hd : us.drop (4 * bd.k - 1) = [] := List.drop_eq_nil_of_le hu
    have ht : us.take (4 * bd.k - 1) = us := List.take_of_length_le hu
    obtain ⟨t, ds, -, -, -, hp⟩ := hf.put false us (by rw [if_neg (by decide)]; exact hu) hl
    generalize (List.range us.length).map (fun i => bd.ppaOn (ds.getD (i / 4) 0) 0 (i % 4)) = ps at hp
    have hj : t.putJournal l.length [] = some (t, []) := by cases l <;> rfl
    refine ⟨t, ps ++ [], ?_, putStripe_ranges hp⟩
    rw [show us.length = l.length + 1 by rw [hus]; rfl, State.putJournal, show us.isEmpty = false by rw [hus]; rfl]
    simp only [Bool.false_eq_true, if_false, hn, Option.isSome_some, hf.band, Option.map_some, Option.getD_some, ht, hp, hd, hj]

theorem takeEach_form : ∀ (n : Nat) (s : State), ∃ c top l,
    s.takeEach n = (s.withFw { s.fw with seqC := c, seqTop := top }, l) ∧ l.length = n
  | 0, s => ⟨s.fw.seqC, s.fw.seqTop, [], rfl, rfl⟩
  | n + 1, s => by
    obtain ⟨c, top, l, h, hl⟩ := takeEach_form n (s.takeSeqs 1).1
    refine ⟨c, top, (s.takeSeqs 1).2 ++ l, ?_, ?_⟩
    · rw [State.takeEach, h]; rfl
    · rw [List.length_append, hl, Nat.add_comm]; rfl

/-- No record of a list completes a snapshot. -/
def noneComplete (l : List JRec) : Bool := l.all fun r => match r with | .snapshot true _ _ => false | _ => true

theorem noneComplete_nil {l : List JRec} (h : noneComplete l = true) :
    l.filterMap (fun r => match r with | .snapshot true q _ => some q | _ => none) = [] := by
  rw [List.filterMap_eq_nil_iff]
  intro r hr
  have := List.all_eq_true.1 h r hr
  cases r with
  | snapshot d q p => cases d with
    | false => rfl
    | true => cases this
  | _ => rfl

/-- A state in which a flush can start, whose records fit one stripe of the journal band. -/
def durableB (s : State) (serial : Nat) (bd : Band) : Bool :=
  s.fw.jFlush.isNone && s.fw.ranges.isEmpty && firstFreeB s true 5 serial bd && firstFreeB s false 5 serial bd &&
    decide ((s.fw.jWait ++ s.frontierRecs).length < 128 * (4 * bd.k - 1) ∧ 1 < s.fw.wordlines) &&
    noneComplete (s.fw.jWait ++ s.frontierRecs)

/-- A flush that starts in such a state becomes durable. -/
theorem flushAll_of {s : State} {serial : Nat} {bd : Band} (h : durableB s serial bd = true) : (s.flushAll false).isSome = true := by
  simp only [durableB, Bool.and_eq_true, Option.isNone_iff_eq_none, List.isEmpty_iff, decide_eq_true_eq] at h
  obtain ⟨⟨⟨⟨⟨hj, hr⟩, hn⟩, hn'⟩, hlen, hw⟩, hc⟩ := h
  have h1 : s.flushDurable = s := by rw [State.flushDurable, hj]
  have h2 : ∃ c top l recs, l.length ≤ 4 * bd.k - 1 ∧ noneComplete recs = true ∧ s.flushStart false false =
      { s with fw := { s.fw with seqC := c, seqTop := top, jFlush := some (recs, false, l), jWait := [], jEarly := false } } := by
    obtain ⟨c, top, l, ht, hl⟩ := takeEach_form (ceilDiv ((s.fw.jWait ++ s.frontierRecs).length + 1) 128) s
    let recs := s.fw.jWait ++ s.frontierRecs ++ [JRec.checkpoint false (s.fw.jFlushNo + 1) top]
    refine ⟨c, top, l, recs ++ List.replicate (128 * ceilDiv ((s.fw.jWait ++ s.frontierRecs).length + 1) 128 - recs.length) .nop,
      ?_, ?_, ?_⟩
    · rw [hl]; unfold ceilDiv; omega
    · simp only [recs, noneComplete, List.all_append, Bool.and_eq_true] at hc ⊢
      refine ⟨⟨hc, rfl⟩, List.all_eq_true.2 fun r hr => ?_⟩
      obtain ⟨-, rfl⟩ := List.mem_replicate.1 hr
      rfl
    · unfold State.flushStart
      rw [hj]
      simp only [nextStripe_of hn', Option.isSome_some, Option.isNone_some, if_true, Bool.false_eq_true, if_false, hr, State.takeRanges,
        List.append_nil, ht]
      rfl
  obtain ⟨c, top, l, recs, hl, hrec, h2⟩ := h2
  have h3 : (s.flushStart false false).flushDurable.fw.jFlush = none := by
    rw [h2]
    generalize hu : ({ s with fw := { s.fw with seqC := c, seqTop := top, jFlush := some (recs, false, l), jWait := [], jEarly := false } } : State) = u
    have hnu : firstFreeB u true 5 serial bd = true := by rw [← hu]; exact hn
    obtain ⟨t, ps, hp, hpr⟩ := putJournal_of hnu (journalUnits recs (u.fw.jFlushNo + 1) l) (by rw [journalUnits, List.length_mapIdx]; exact hl)
      (by rw [← hu]; exact hw)
    have hru : t.fw.ranges = [] := by rw [hpr, ← hu]; exact hr
    have hju : u.fw.jFlush = some (recs, false, l) := by rw [← hu]
    unfold State.flushDurable
    simp only [hju, hp]
    erw [noneComplete_nil hrec]
    simp only [List.foldl_nil, State.withFw, State.snapshotRecorded, hru, List.filter_nil]
  have h4 : (s.flushStart false false).fw.jFlush.isSome = true := by rw [h2]; rfl
  unfold State.flushAll
  simp only [h1, hj, Option.isSome_none, Bool.false_eq_true, if_false, Bool.false_or, h3, Bool.or_false]
  rw [if_neg (by rw [← Option.not_isSome, h4]; decide)]
  rfl

end Sys2Proof.Machine
end

