-- ==== Sys2Proof/Tests/Slice0.lean ====
section
/-! SUPPORT. Tests: terms that well-formedness refuses, words that decode to their instructions, for each clause of each statement
a concrete state and operands that meet its hypotheses, and single commands on small states. -/

namespace Sys2Proof.Tests

open Sys2Proof Sys2Proof.Machine

set_option Elab.async false
set_option synthInstance.maxSize 2048

/-! ### Hypotheses in a form that evaluates -/

/-- A core is about to execute (Laws/Facet.lean), said so that it evaluates. -/
theorem fetched {s : State} {n : Nat} (h : (s.core n).status = .running ∧ (s.core n).stallBy = none ∧ (s.core n).bpHit = false ∧
    (s.core n).wild = none ∧ (s.core n).pc < 0x10000 ∧ (s.core n).pc % 4 = 0 ∧ s.fetchPoison n = false) : Fetches s s n .clean := State.gate_ready s n h

def mayPostB (s : State) (k : Nat) : Bool :=
  (s.slot k).any fun e => (tget s.hqe.sqs e.sq).any fun sq => (tget s.hqe.cqs sq.cq).any fun cq =>
    !cq.full && e.transfers.isEmpty && e.readFail.isNone && s.fld fFLT_STAT_FATAL == 0 && s.hostLink

theorem mayPost_iff (s : State) (k : Nat) : Claims.MayPost s k ↔ mayPostB s k = true := by
  simp only [Claims.MayPost, mayPostB, Option.any_eq_true, Bool.and_eq_true, Bool.not_eq_true', List.isEmpty_iff,
    Option.isNone_iff_eq_none, beq_iff_eq]
  constructor
  · rintro ⟨e, q, c, h1, h2, h3, h4, h5, h6, h7, h8⟩; exact ⟨e, h1, q, h2, c, h3, ⟨⟨⟨h4, h5⟩, h6⟩, h7⟩, h8⟩
  · rintro ⟨e, h1, q, h2, c, h3, ⟨⟨⟨h4, h5⟩, h6⟩, h7⟩, h8⟩; exact ⟨e, q, c, h1, h2, h3, h4, h5, h6, h7, h8⟩

theorem asked_iff (s : State) (src service : Nat) (p : BitVec 512) : Claims.Asked s src service p ↔
    ((takeFirst (fun (m : Msg) => decide (m.src = src) && decide (m.sub = 0x1A0)) (s.box 112 0)).map (·.1.payload) = some p ∧
      pGet p 0 1 = service ∧ s.fld fSIG_STAT_ERR = 0 ∧ s.epAbsent src = false) := by
  simp only [Claims.Asked, Option.map_eq_some_iff, Prod.exists]

theorem mayActivate_iff (s : State) (f : Nat) : Claims.MayActivate s f ↔
    ∃ p ∈ s.slotPackage f, ∃ q ∈ s.slotPackage s.boot.dir.running, 1 ≤ f ∧ f ≤ 3 ∧ s.verifies false p = true ∧
      s.aboveFloors p = true ∧ s.boot.logFull = false ∧ q.measures.getD 0 0#384 = p.measures.getD 0 0#384 := by
  simp only [Claims.MayActivate, Claims.GoodSlot, Option.mem_def]
  constructor
  · rintro ⟨p, q, ⟨a, b, c, d, e⟩, f, g, h⟩; exact ⟨p, c, q, g, a, b, d, e, f, h⟩
  · rintro ⟨p, c, q, g, a, b, d, e, f, h⟩; exact ⟨p, q, ⟨a, b, c, d, e⟩, f, g, h⟩

theorem inMemory_iff (a : Nat) :
    Claims.inMemory a ↔ (match regionAt a with | .control _ => false | .locket _ => false | _ => true) = true := by
  unfold Claims.inMemory
  cases regionAt a <;> simp

/-! ### Beads that hold known doubles -/

theorem tget_range' {α : Type} (f : Nat → α) (k n : Nat) : ∀ a, tget ((List.range' a n).map fun i => (i, f i)) k =
    if a ≤ k ∧ k < a + n then some (f k) else none := by
  induction n with
  | zero => intro a; simp only [List.range'_zero, List.map_nil, tget]; rw [if_neg (by omega)]
  | succ n ih =>
    intro a
    simp only [List.range'_succ, List.map_cons, tget, ih]
    by_cases h : a = k
    · subst h; simp
    · rw [if_neg h]
      by_cases h2 : a ≤ k ∧ k < a + (n + 1)
      · rw [if_pos h2, if_pos (by omega)]
      · rw [if_neg h2, if_neg (by omega)]

theorem tget_append {α : Type} (s t : Tab α) (k : Nat) : tget (s ++ t) k = (tget s k).or (tget t k) := by
  induction s with
  | nil => simp [tget]
  | cons e s ih => obtain ⟨j, v⟩ := e; simp only [List.cons_append, tget, ih]; split <;> simp

/-- The byte at `a` of beads whose data begins with the doubles `ws` of each, zeros after them. -/
def beadByte (ws : Nat → List Word) (a : Nat) : Byte :=
  BitVec.ofNat 8 (((ws ((a - 0x0200000000) / 0x1000)).getD ((a - 0x0200000000) % 0x1000 / 8) 0#64).toNat / 256 ^ (a % 8))

/-- Memory in which beads `lo` to `lo + n - 1` have been written whole, and nothing else. -/
def beadMem (lo n : Nat) (ws : Nat → List Word) : Mem :=
  ⟨(List.range' (beadAddr lo) (n * 0x1000)).map (fun a => (a, beadByte ws a)) ++
    (List.range' (beadMetaAddr lo) (n * 0x80)).map (fun a => (a, 0#8)), [], []⟩

theorem beadMem_data {lo n b i : Nat} (ws : Nat → List Word) (h : lo ≤ b) (h2 : b < lo + n) (hi : i < 0x1000) :
    tget (beadMem lo n ws).cells (beadAddr b + i) = some (beadByte ws (beadAddr b + i)) := by
  simp only [beadMem, tget_append, tget_range', beadAddr]
  rw [if_pos (by omega)]
  rfl

theorem beadMem_meta {lo n b i : Nat} (ws : Nat → List Word) (h : lo ≤ b) (h2 : b < lo + n) (hn : lo + n ≤ 0x8000) (hi : i < 0x80) :
    tget (beadMem lo n ws).cells (beadMetaAddr b + i) = some 0#8 := by
  simp only [beadMem, tget_append, tget_range', beadAddr, beadMetaAddr]
  rw [if_neg (by omega), if_pos (by omega)]
  rfl

theorem firstPoison_none (m : Mem) (n : Nat) : ∀ k, (∀ i, i < n → m.poisoned (k + 8 * i) = false) → m.firstPoison k n = none := by
  induction n with
  | zero => intro k _; rfl
  | succ n ih =>
    intro k h
    have h0 := h 0 (by omega)
    rw [Nat.mul_zero, Nat.add_zero] at h0
    simp only [Mem.firstPoison, h0]
    exact ih _ fun i hi => by have e := h (i + 1) (by omega); rwa [show k + 8 * (i + 1) = k + 8 + 8 * i by omega] at e

theorem beadMem_whole {lo n : Nat} (ws : Nat → List Word) (d : Nat)
    (hw : ∀ i, i < 8 → (tget (beadMem lo n ws).cells (d + i)).isSome = true) : (beadMem lo n ws).poisoned d = false := by
  have e : (beadMem lo n ws).whole d = true := by
    simp only [Mem.whole, List.all_eq_true, List.mem_range]; exact hw
  rw [Mem.poisoned, e]; rfl

/-- A bead that was written whole reads without poison. -/
theorem beadMem_clean {lo n b : Nat} (ws : Nat → List Word) (h : lo ≤ b) (h2 : b < lo + n) (hn : lo + n ≤ 0x8000) :
    (beadMem lo n ws).spanPoisoned b = false := by
  unfold Mem.spanPoisoned
  rw [firstPoison_none, firstPoison_none]
  · rfl
  · intro i hi
    refine beadMem_whole _ _ fun j hj => ?_
    rw [Nat.add_assoc, beadMem_meta ws h h2 hn (by omega)]; rfl
  · intro i hi
    refine beadMem_whole _ _ fun j hj => ?_
    rw [Nat.add_assoc, beadMem_data ws h h2 (by omega)]; rfl

theorem beadMem_unit {lo n b : Nat} (ws : Nat → List Word) (h : lo ≤ b) (h2 : b < lo + n) (hn : lo + n ≤ 0x8000) :
    (beadMem lo n ws).unitPoisoned b = false := by
  unfold Mem.unitPoisoned
  rw [firstPoison_none, firstPoison_none]
  · rfl
  · intro i hi
    refine beadMem_whole _ _ fun j hj => ?_
    rw [Nat.add_assoc, beadMem_meta ws h h2 hn (by omega)]; rfl
  · intro i hi
    refine beadMem_whole _ _ fun j hj => ?_
    rw [Nat.add_assoc, beadMem_data ws h h2 (by omega)]; rfl

theorem sumOf_zero {α : Type} (f : α → Nat) (l : List α) (h : ∀ x ∈ l, f x = 0) : sumOf f l = 0 := by
  unfold sumOf
  have : ∀ n, l.foldl (fun n a => n + f a) n = n := by
    induction l with
    | nil => intro n; rfl
    | cons a l ih =>
      intro n
      rw [List.foldl_cons, h a List.mem_cons_self, Nat.add_zero]
      exact ih (fun x hx => h x (List.mem_cons_of_mem _ hx)) n
  exact this 0

theorem badBeads_none {s : State} {r : PsqReq} {lo n : Nat} (hm : s.mem = beadMem lo n fun _ => []) (hn : lo + n ≤ 0x8000)
    (hs : r.slc = true) (hb : ∀ i ∈ List.range 4, lo ≤ r.bead i ∧ r.bead i < lo + n) : s.badBeads r [] = 0 := by
  unfold State.badBeads
  rw [hs, if_pos rfl]
  refine sumOf_zero _ _ fun i hi => ?_
  rw [hm, beadMem_unit _ (hb i hi).1 (hb i hi).2 hn]
  rfl
/-- Every double of such a bead, its metadata too, reads without poison. -/
theorem beadMem_double {lo n b : Nat} (ws : Nat → List Word) (h : lo ≤ b ∧ b < lo + n ∧ lo + n ≤ 0x8000) (d : Nat) (hd : d < 528) :
    (beadMem lo n ws).poisoned (beadDouble b d) = false := by
  refine beadMem_whole _ _ fun j hj => ?_
  unfold beadDouble
  split
  · rw [Nat.add_assoc, beadMem_data ws h.1 h.2.1 (by omega)]; rfl
  · rw [Nat.add_assoc, beadMem_meta ws h.1 h.2.1 h.2.2 (by omega)]; rfl

theorem bead_place (b i j : Nat) (hi : i < 512) (hj : j < 8) : (beadAddr b + (8 * i + j) - 0x0200000000) / 0x1000 = b ∧
    (beadAddr b + (8 * i + j) - 0x0200000000) % 0x1000 / 8 = i ∧ (beadAddr b + (8 * i + j)) % 8 = j := by
  unfold beadAddr; omega

/-- A bead's data doubles are the doubles it was given. -/
theorem beadMem_read {lo n b i : Nat} (ws : Nat → List Word) (h : lo ≤ b) (h2 : b < lo + n) (hi : i < 512) :
    (beadMem lo n ws).read (beadAddr b + 8 * i) 8 = ((ws b).getD i 0#64).toNat := by
  have hb : ∀ j, j < 8 → (beadMem lo n ws).byte (beadAddr b + 8 * i + j) = BitVec.ofNat 8 (((ws b).getD i 0#64).toNat / 256 ^ j) := by
    intro j hj
    obtain ⟨e1, e2, e3⟩ := bead_place b i j hi hj
    have e := beadMem_data (i := 8 * i + j) ws h h2 (by omega)
    rw [← Nat.add_assoc] at e e1 e2 e3
    unfold Mem.byte tgetD
    rw [e, Option.getD_some]
    unfold beadByte
    rw [e1, e2, e3]
  rw [Mem.read_of_bytes 8 _ _ _ hb]
  have := ((ws b).getD i 0#64).isLt
  exact Nat.mod_eq_of_lt (by omega)

theorem beadMem_readMeta {lo n b i : Nat} (ws : Nat → List Word) (h : lo ≤ b) (h2 : b < lo + n) (hn : lo + n ≤ 0x8000) (hi : i < 16) :
    (beadMem lo n ws).read (beadMetaAddr b + 8 * i) 8 = 0 := by
  refine (Mem.read_of_bytes 8 _ _ 0 fun j hj => ?_).trans rfl
  rw [Mem.byte, tgetD, Nat.add_assoc, beadMem_meta ws h h2 hn (by omega)]
  simp

theorem readDoubles_eq (m : Mem) (n : Nat) : ∀ k, m.readDoubles k n = (List.range n).map fun i => BitVec.ofNat 64 (m.read (k + 8 * i) 8) := by
  induction n with
  | zero => intro k; rfl
  | succ n ih =>
    intro k
    simp only [Mem.readDoubles, ih, List.range_succ_eq_map, List.map_cons, List.map_map, Nat.mul_zero, Nat.add_zero]
    refine congrArg (List.cons _) (List.map_congr_left fun i _ => ?_)
    simp only [Function.comp, Nat.succ_eq_add_one]
    rw [show k + 8 * (i + 1) = k + 8 + 8 * i by omega]

/-- What a bead was given, as its 512 data doubles; its metadata is zero. -/
theorem beadMem_doubles {lo n b : Nat} (ws : Nat → List Word) (h : lo ≤ b) (h2 : b < lo + n) :
    (beadMem lo n ws).readDoubles (beadAddr b) 512 = (List.range 512).map fun i => (ws b).getD i 0#64 := by
  rw [readDoubles_eq]
  refine List.map_congr_left fun i hi => ?_
  rw [beadMem_read ws h h2 (List.mem_range.1 hi)]
  simp

theorem beadMem_metaDoubles {lo n b : Nat} (ws : Nat → List Word) (h : lo ≤ b) (h2 : b < lo + n) (hn : lo + n ≤ 0x8000) :
    (beadMem lo n ws).readDoubles (beadMetaAddr b) 8 = List.replicate 8 0#64 := by
  rw [readDoubles_eq]
  have e : (List.range 8).map (fun i => BitVec.ofNat 64 ((beadMem lo n ws).read (beadMetaAddr b + 8 * i) 8)) =
      (List.range 8).map fun _ => 0#64 :=
    List.map_congr_left fun i hi => by rw [beadMem_readMeta ws h h2 hn (by have := List.mem_range.1 hi; omega)]
  rw [e]; rfl


theorem clean_of {m : Mem} (lo n : Nat) (ws : Nat → List Word) (e : m = beadMem lo n ws) {b : Nat} (h : lo ≤ b ∧ b < lo + n ∧ lo + n ≤ 0x8000) :
    m.spanPoisoned b = false := by
  subst e; exact beadMem_clean ws h.1 h.2.1 h.2.2

theorem clean7 {m : Mem} (ws : Nat → List Word) (e : m = beadMem 7 1 ws) : m.spanPoisoned 7 = false := clean_of 7 1 ws e (by decide)
theorem clean9 {m : Mem} (ws : Nat → List Word) (e : m = beadMem 9 1 ws) : m.spanPoisoned 9 = false := clean_of 9 1 ws e (by decide)

theorem beadMem_eq {lo n b c : Nat} (ws : Nat → List Word) (e : ws b = ws c) (h : lo ≤ b ∧ b < lo + n) (h2 : lo ≤ c ∧ c < lo + n) :
    (beadMem lo n ws).readDoubles (beadAddr b) 512 = (beadMem lo n ws).readDoubles (beadAddr c) 512 := by
  rw [beadMem_doubles ws h.1 h.2, beadMem_doubles ws h2.1 h2.2, e]

theorem beadMem_metaEq {lo n b c : Nat} (ws : Nat → List Word) (h : lo ≤ b ∧ b < lo + n) (h2 : lo ≤ c ∧ c < lo + n)
    (hn : lo + n ≤ 0x8000) :
    (beadMem lo n ws).readDoubles (beadMetaAddr b) 8 = (beadMem lo n ws).readDoubles (beadMetaAddr c) 8 := by
  rw [beadMem_metaDoubles ws h.1 h.2 hn, beadMem_metaDoubles ws h2.1 h2.2 hn]


theorem cachedOne_iff (s : State) (e : Slot) (h : Nat) : Claims.unitCached s e h ↔
    e.unitCount = 1 ∧ (∃ key ∈ s.entryKey (e.nsid - 1) e.firstUnit, entTrim ((s.buildPage (key / 1024)).entryAt key) = false ∧
      entPoison ((s.buildPage (key / 1024)).entryAt key) = false ∧ entValid ((s.buildPage (key / 1024)).entryAt key) = true) ∧
    (∃ x ∈ s.fw.hot.head?, x.ns = e.nsid - 1 ∧ x.unit = e.firstUnit ∧ x.bead = h) ∧ s.mem.spanPoisoned h = false := by
  unfold Claims.unitCached
  cases s.fw.hot <;> simp

theorem admin_of {s : State} {k op : Nat} {P : Slot → Prop} (h2 : mayPostB s k = true)
    (h : ∃ e ∈ s.slot k, (e.admin = true ∧ cmdOp e.cmd = op ∧ e.dispatched = true ∧ e.completion = none ∧ e.pullStopped = none ∧
      s.hqe.shutdown = false) ∧ P e) : ∃ e ∈ s.slot k, Claims.AdminCommand s k op e ∧ P e := by
  obtain ⟨e, h, ⟨a, b, c, d, f, g⟩, p⟩ := h
  exact ⟨e, h, ⟨Option.mem_def.1 h, a, b, c, d, f, g, (mayPost_iff s k).2 h2⟩, p⟩

theorem add_one_ne (x : BitVec 384) : x + 1#384 ≠ x := by simp

theorem admin_durable {s : State} {k op : Nat} (P Q : Slot → Prop) (f : Slot → State) (n : Nat) (bd : Band) (h2 : mayPostB s k = true)
    (h : ∃ e ∈ s.slot k, (e.admin = true ∧ cmdOp e.cmd = op ∧ e.dispatched = true ∧ e.completion = none ∧ e.pullStopped = none ∧
      s.hqe.shutdown = false) ∧ P e ∧ durableB (f e) n bd = true) (hq : ∀ e, P e → Q e) :
    ∃ e ∈ s.slot k, Claims.AdminCommand s k op e ∧ Q e ∧ Claims.BecomesDurable (f e) := by
  obtain ⟨e, he, h, p, d⟩ := h
  obtain ⟨e', he', ha, hd⟩ := admin_of (P := fun x => P x ∧ durableB (f x) n bd = true) h2 ⟨e, he, h, p, d⟩
  exact ⟨e', he', ha, hq e' hd.1, flushAll_of hd.2⟩
/-! ### Well-formedness refuses what spells no event -/

def regularStart : BootReport := ⟨true, false, [], [], 0, [], true⟩
def plainPackage : Package := ⟨true, true, none, List.replicate 7 0, List.replicate 6 0#384, 3, 0x207, 0x400⟩

theorem test_wf_reports : (Instr.perstNRelease regularStart).wf = true ∧ (Instr.perstNRelease { regularStart with failedCores := [3, 3] }).wf = false ∧
    (Instr.perstNRelease { regularStart with seqFailed := [1, 1] }).wf = false ∧
    (Instr.perstNRelease { regularStart with unreadable := [2, 2] }).wf = false := by decide

theorem test_wf_packages : (Instr.romEnd .host (some plainPackage)).wf = true ∧
    (Instr.romEnd .host (some { plainPackage with secVer := [0] })).wf = false ∧
    (Instr.romEnd .host (some { plainPackage with measures := [] })).wf = false := by decide

theorem test_wf_links : (Instr.linkStateChange 6 16 true 8 0).wf = true ∧ (Instr.linkStateChange 7 16 true 0 0).wf = false ∧
    (Instr.linkStateChange 6 16 false 0 0).wf = false ∧ (Instr.linkStateChange 3 3 false 0 0).wf = false ∧
    (Instr.linkStateChange 3 0 false 0 0).wf = false ∧ (Instr.linkStateChange 6 4 true 8 0).wf = false := by decide

theorem test_wf_operands : (Instr.illegalOpcode 0 .clean 0#32).wf = false ∧ (Instr.eventLaneToggle 8 0 false).wf = false ∧
    (Instr.writeDataPullDone 0 [⟨[], []⟩]).wf = false ∧ (Instr.readData 0 0 9 (List.replicate 9 ⟨0, 0, 0, 0⟩)).wf = false ∧
    (Instr.wakeManagementBus (List.replicate 65 0)).wf = false ∧ (Instr.opalMethod (.genKey 320)).wf = false := by decide +kernel

/-! ### Words of the Facet families, written out bit by bit from their encodings (R53, R54) -/

theorem test_decode_alu : facetOf 3 .clean .clean 0b000000_11111_00001_00010_00000000000#32 = some (.add 3 .clean 31 1 2) := by decide +kernel
/-- The worked example of spec/02_facet_isa.md: `addi g5, g3, -4` is 0x04A3_FFFC. -/
theorem test_decode_immediate : facetOf 0 .clean .clean 0x04A3FFFC#32 = some (.addi 0 .clean 5 3 0xFFFC) := by decide +kernel
/-- The worked example of spec/02_facet_isa.md: `ctlget g3, hcode` is 0xF860_00D0. -/
theorem test_decode_system : facetOf 0 .clean .clean 0xF86000D0#32 = some (.ctlget 0 .clean 3 3) := by decide +kernel
theorem test_decode_branch : facetOf 0 .clean .clean 0b100001_11111_00000_1000000000000000#32 = some (.bne 0 .clean 31 0 0x8000) := by decide +kernel
theorem test_decode_jump : facetOf 0 .clean .clean 0b101001_11111111111111111111111111#32 = some (.call 0 .clean 0x3FFFFFF) := by decide +kernel
theorem test_decode_memory : facetOf 0 .clean (.corrected 3) 0b011011_01000_01001_0000000000010000#32 = some (.sd 0 .clean 8 9 16 (.corrected 3)) := by decide +kernel
theorem test_decode_atomic : facetOf 0 .clean .clean 0b110000_00001_00010_00011_00000001000#32 = some (.cas 0 .clean 1 2 3 .clean) := by decide +kernel
theorem test_decode_assist : facetOf 0 .clean .clean 0b110100_00001_00010_00000_00000000001#32 = some (.balloc 0 .clean 1 2) := by decide +kernel
theorem test_decode_transaction : facetOf 0 .clean .clean 0b111000_00000_00000_00000_00000000001#32 = some (.tcommit 0 .clean) := by decide +kernel
theorem test_decode_chain : facetOf 0 .clean .clean 0b111100_00010_00011_0101_000000010000#32 = some (.crecv 0 .clean 2 3 5) := by decide +kernel
/-- Major opcode 0x3F is no opcode, and a set bit of a zero field makes a word illegal (R54, R67). -/
theorem test_decode_refuses : facetOf 0 .clean .clean (BitVec.allOnes 32) = none ∧
    facetOf 0 .clean .clean 0b110100_00001_00010_00001_00000000001#32 = none := by decide +kernel

/-! ### Single commands, with results taken from the spec -/

/-- Core 0 about to execute with the registers `g`. -/
def running (g : Tab RVal) : State := State.reset.setCore 0 { Core.fresh 0 with status := .running, pc := 0x100, g := g }
def after (i : Instr) (s : State) : State := match exec i s with | .next t => t | _ => s
def resultOf (i : Instr) (r : Nat) (g : Tab RVal) : Word := (after i (running g)).gv 0 r
def ones64 : RVal := ⟨BitVec.allOnes 64, false⟩

/-- Addition wraps (R55); register 0 reads zero whatever is written to it (R46). -/
theorem test_add_wraps : resultOf (.add 0 .clean 3 1 2) 3 [(1, ones64), (2, ⟨1, false⟩)] = 0 ∧ resultOf (.add 0 .clean 0 1 1) 0 [(1, ones64)] = 0 := by decide +kernel
/-- The worked example of spec/02_facet_isa.md: `lui g4, 0x0057` then `ins32 g4, g4, 0x0004`. -/
theorem test_lui_ins32 : resultOf (.lui 0 .clean 4 0x57) 4 [] = 0x570000 ∧
    resultOf (.ins32 0 .clean 4 4 4) 4 [(4, ⟨0x570000, false⟩)] = 0x0000000400570000 := by decide +kernel
/-- The worked example of spec/03_facet_services.md: 0x80 × 0x02 is 0x1D. -/
theorem test_gfmul : resultOf (.gfmul 0 .clean 3 1 2) 3 [(1, ⟨0x80, false⟩), (2, ⟨2, false⟩)] = 0x1D := by decide +kernel
/-- The worked example of spec/03_facet_services.md: the CRC-32C of 32 zero bytes. -/
theorem test_crcd : let step (a : Word) : Word := resultOf (.crcd 0 .clean 3 1 2) 3 [(1, ⟨a, false⟩), (2, ⟨0, false⟩)]
    (step (step (step (step 0xFFFFFFFF)))).toNat ^^^ 0xFFFFFFFF = 0x8A9136AA := by decide +kernel
/-- A taken branch goes back from its own address (R53, R61). -/
theorem test_branch_back : ((after (.bne 0 .clean 1 0 0xFFFE) (running [(1, ones64)])).core 0).pc = 0xF8 := by decide +kernel
/-- Division by zero gives a zero quotient and the dividend as the remainder, and does not trap (R56). -/
theorem test_divide_by_zero : resultOf (.divu 0 .clean 3 1 2) 3 [(1, ⟨7, false⟩)] = 0 ∧
    resultOf (.remu 0 .clean 3 1 2) 3 [(1, ⟨7, false⟩)] = 7 := by decide +kernel
/-- The worked example of spec/09_reclaim_wear.md: 3,455,985 blocks are committed, and the initial reserve is 696,376. -/
theorem test_committed : committedBlocks 4194304 683 16 24414062500 = 3455985 ∧ 4152361 - committedBlocks 4194304 683 16 24414062500 = 696376 := by decide +kernel
/-- An empty queue is one tick of 40 ns (log entry 2). -/
theorem test_idle_tick : (match step { State.reset with now := 5 } with | .next t => t.now | _ => 0) = 45 := by decide +kernel

/-! ### Sample states

Small states, most of them reset with a few fields set, from which the witnesses below take the states, commands and operands that meet
the hypotheses of a statement. -/

abbrev OutT := Host.Outcome State Fault Refusal
def nx : OutT → State | .next t => t | _ => State.reset
def g0 : Tab RVal := [(1, ⟨0x20040#64, false⟩), (2, ⟨0x8000000000000123#64, false⟩), (3, ⟨BitVec.allOnes 64, true⟩), (4, ⟨0x20048#64, false⟩), (5, ⟨0x0100000040#64, false⟩),
  (6, ⟨0x0200001000#64, false⟩), (7, ⟨0x0400000000#64, false⟩), (8, ⟨0x20041#64, false⟩), (9, ⟨3#64, false⟩), (10, ⟨0x30005#64, false⟩), (11, ⟨0x10000000000#64, false⟩), (12, ⟨1#64, false⟩), (13,⟨0x1000000000#64,false⟩), (14, ⟨0x0000000000010009#64, false⟩), (15, ⟨0xF1E2D3C4B5A69788#64, false⟩), (16, ⟨0x0000000000010078#64, false⟩), (17, ⟨0x1000000000010009#64, false⟩), (18, ⟨2#64, false⟩), (19, ⟨0x20080#64, false⟩), (20, ⟨0#64, false⟩), (21, ⟨0x8#64, false⟩), (22, ⟨0x3C#64, false⟩), (23, ⟨0x123400000001#64, false⟩), (24, ⟨0x10003#64, false⟩)]
def c0 : Core := { Core.fresh 0 with status := .running, pc := 0x100, g := g0 }
def mm : Mem := (⟨[], [(cellKey 0 0x20048, ())], []⟩ : Mem).write (cellKey 0 0x20040) 0xF1E2D3C4B5A69788 8
def b0 : State := { State.reset with mem := mm, pool := { State.reset.pool with beads := [(1, ⟨.granted, 0, 3, 0⟩), (3, ⟨.granted, 0, 3, 0⟩)] } }
def core1 : Core := { Core.fresh 1 with status := .running, pc := 0x40 }
def core9 : Core := { Core.fresh 9 with status := .running, pc := 0x40 }
def b1 : State := ((b0.setCore 0 c0).setCore 9 core9).setCore 1 core1
def m1 : Msg := mkMsg 1 0 3 7 0 0x1234567890ABCDEF#512
def m2 : Msg := mkMsg 9 0 3 8 0 0xFF#512
def b2 : State := { b1 with mbox := [(3, [m1, m2])] }
def b3 : State := { b2 with regs := [(rMAP_CTL, 1#64), (rFCT_TXLIM, 20#64)] }
def tx1 : Tx := { Tx.none with isOpen := true }
def b5 : State := b2.setCore 0 { c0 with tx := { tx1 with sends := [m1] } }
def b6 : State := b2.setCore 0 { c0 with cr := { c0.cr with hstat := 1#64, hresume := 0x1230#64, bpa := 0x1231#64 } }
def b7 : State := b2.setCore 0 { c0 with cr := { c0.cr with hstat := 5#64, hresume := 0x1230#64 } }
def b8 : State := b2.setCore 0 { c0 with cr := { c0.cr with wdog := 0x100000010#64 } }
def b9 : State := b2.setCore 0 { c0 with cr := { c0.cr with wdog := 0x100000010#64, hstat := 1#64 } }
def b10 : State := { b1 with mbox := [(16*9+1, [m1,m1,m1,m1])] }
def b11 : State := (b2.setCore 0 { c0 with status := .waiting (.send 1 9 2) }).setReg rFCT_SENDLIM 100#64
def b12 : State := { (b0.setCore 0 c0) with pool := { b0.pool with beads := [] } }
def b15 : State := b11.setReg rFCT_SENDLIM 0#64
def nextOf (i : Instr) (s : State) : State := match exec i s with | .next t => t | _ => s
def b17 : State := nextOf (.bpmEnable 0) b12
def b18 : State := { b17 with pool := { b17.pool with beads := [(1, ⟨.granted, 0, 3, 0⟩), (3, ⟨.granted, 0, 3, 0⟩)] } }
def b19 : State := b17.setFld (fBPM_CST_HELD 1) 40000
def b21 : State := b3.setFld fMAP_CTL_EN 0
def b22 : State := b3.setFld fMAP_CTL_EN 1
def allClosed (st : Nat) (s : State) : State := (List.range 76).foldl (fun (t : State) c => t.setFld (fCLP_STAT_STATE c) st) { s with clasps := { s.clasps with inReset := [] } }
def k1 := allClosed 2 b2
def k2 := allClosed 1 b2
def k3 := allClosed 3 b2
def k4 := allClosed 0 b2
def k7 := { k1 with net := [m1, m2] }
def k8 := { b10 with net := [mkMsg 3 9 1 7 0 1] }
def fl0 : State := { b12 with part := .ahm4816 }
def fl1 : State := fl0.setReg rBPM_CTL 2#64
def fl2 : State := nextOf (.bpmEnable 0) fl1
def cp : State := { b18 with mem := (⟨[], [], []⟩ : Mem).write 0x0200001000 0xAABBCCDDEEFF 8 }
def evOn : State := nx (execEvrEnable 112 b2)
def sc1 : State := { evOn with mec := { evOn.mec with secondDram := 3, secondSram := 1 } }
def sc2 : State := { evOn with now := 10^18 }
def sc3 : State := { evOn with mec := { evOn.mec with dramWarned := true } }
def gate1 : State := (evOn.setFld fFLT_STAT_GATE 1)
def gate2 : State := nx (execInjectorArm 0 0 0x10020#64 (gate1.setFld (fFLT_INJC_SKIP 0) 1))
def sc4 : State := evOn.setFld fMEC_SCRUB_SRAMEN 0x3FF
def rg : BootReport := ⟨true, false, [], [], 0, [], true⟩
def rec1 : BootReport := ⟨true, true, [], [], 0, [], true⟩
def pk : Package := ⟨true, true, none, [0,0,0,0,0,0,0], [], 3, 0x207, 0x400⟩
def pwr (s : State) (f : Pwr → Pwr) : State := { s with pwr := f s.pwr }
def z0 := State.reset
def z1 := pwr z0 fun p => { p with vaon := false, porDone := false }
def z2 := pwr z0 fun p => { p with porDone := false }
def z3 := pwr z0 fun p => { p with porDone := false, perstLow := false }
def z4 := nx (execPerstNRelease rg z0)
def rom := nx (execPerstNRelease rec1 z0)
def rom1 := nx (execRomBegin .host 0x1000 2 rom)
def rom2 := nx (execRomData .host 0 0x1000 rom1)
def rom3 := nx (execRomEnd .host (some pk) rom2)
def n1 := nx (execPaceUpdate 100 true z4)
def n1b := n1.setFld fPWR_AVS_BUSY 1
def n2 := (z4.setFld fARC_MODE_CUR 8).setFld fARC_MODE_HEALTH 2
def n4 : State := { n2 with lkt := { n2.lkt with program := some ⟨0, 1, 5, 7⟩ } }
def n5 := pwr n2 fun p => { p with entry := 3, lastOp := 1 }
def sl3 : State := (((State.reset.setFld fPWR_STAT_STATE 2).setFld fPWR_WAKE_MBEN 1).setFld fPWR_WAKE_ALMEN 1).setFld fPWR_WAKE_PCIEN 1
def sl3b : State := sl3.setFld fPWR_WAKE_PCIEN 0
def waking (step tries : Nat) (deep : Bool) : State :=
  pwr ((State.reset.setFld fPWR_STAT_STATE 3).setFld fARC_MODE_CUR 8) fun p => { p with wakeStep := step, wakeTry := tries, porDone := true, deep := deep }
def w1 := (waking 2 1 false).setFld fPWR_AVS_BUSY 1
def w2 := (waking 3 1 false).setFld fARC_MODE_HEALTH 3
def w2d := waking 3 1 true
def w4 := waking 2 4 false
def tj : State := allClosed 2 (pwr State.reset fun p => { p with perstLow := false })
def hm := (tj.setFld fARC_MODE_CUR 2)
def lk (s : State) (f : Lkt → Lkt) : State := { s with lkt := f s.lkt }
def L0 := lk b2 fun l => { l with words := [(0x10, ⟨0x1234567890ABCDEF1122334455667788, true, true⟩), (0xF000, ⟨7, true, true⟩)] }
def L1 := L0.setCore 0 { c0 with g := g0 ++ [(25, ⟨0x0500000100#64, false⟩), (26, ⟨0x0500008000#64, false⟩)] }
def U0 := tj
def U1 := nx (execLktUnlock 0 0xA5C36E1D#64 U0)
def P1 := lk ((tj.setFld (fLKT_STAT_SEQ 0) 5).setFld (fLKT_STAT_OWNER 0) 0) fun l => { l with op := [(0,1)], addr := [(0, 0xF001)], d0 := [(0, 99)] }
def P2 := lk ((tj.setFld (fLKT_STAT_SEQ 0) 3).setFld (fLKT_STAT_OWNER 0) 0) fun l => { l with op := [(0,2)] }
def P3 := lk ((tj.setFld (fLKT_STAT_SEQ 0) 3).setFld (fLKT_STAT_OWNER 0) 0) fun l => { l with op := [(0,3)], words := [(0xF000, ⟨7, true, true⟩)] }
def E1 := nx (execLktProgram 0 55#64 P1)
def E2 := nx (execLktErase 0 0xF0000#64 P2)
def E3 := lk E2 fun l => { l with erase := l.erase.map fun e => { e with suspended := true } }
def Wm := lk tj fun l => { l with words := [(3, ⟨7, true, true⟩)] }
def hq (s : State) (f : Hqe → Hqe) : State := { s with hqe := f s.hqe }
def cmd0 : NvmeCmd := ⟨0x00050002#32, 1#32, 0, 0, 3#32, 0, 0x1#32, 0, 0, 0, .none, 0, 0⟩      -- read 2 blocks cid5
def cmdW : NvmeCmd := { cmd0 with dw0 := 0x00060001#32 }
def cmdBad : NvmeCmd := { cmd0 with dw0 := 0x000500FF#32 }
def cmdDsm : NvmeCmd := ⟨0x00070009#32, 1#32, 0, 0, 1#32, 4#32, 0, 0, 0, 0, .none, 0, 0⟩
def cmdId : NvmeCmd := ⟨0x00090006#32, 0#32, 0, 0, 1#32, 0, 0, 0, 0, 0, .none, 0, 0⟩
def qcmd (op d10 d11 : Nat) : NvmeCmd := ⟨BitVec.ofNat 32 (0x00110000 + op), 0#32, 0, 0, BitVec.ofNat 32 d10, BitVec.ofNat 32 d11, 0, 0, 0, 0, .none, 0, 0⟩
def ns1 : Namespace := ⟨0, 64, 0, 0, false, true, false, none, none⟩
def bbs (i : Nat) : List Nat := [0, 16, 32].map (· * 2 ^ 17 + i)
def uses : List (Nat × Nat) := [(1, 0), (2, 1), (3, 2), (4, 3), (5, 4), (6, 5)]
def readyFw (f : Fw) : Fw := { f with
  shapeK := 1, bandSerial := 6, wordlines := 100
  lostDies := []
  bands := uses.map fun x => (x.1, ⟨x.2, 1, bbs x.1, 0, 0, 0, 0, 0, 0, false, 15, 0, []⟩)
  blocks := (uses.flatMap fun x => (bbs x.1).map fun b => (b, x.2)).foldl (fun t x => tput t x.1 { BlockRec.fresh with state := 2, use := x.2, durable := some 0, lastSlc := slcUse x.2 }) []
  frontier := (uses.flatMap fun x => bbs x.1).foldl (fun t b => tput t b (blockPpa b)) []
  durFrontier := (uses.flatMap fun x => bbs x.1).foldl (fun t b => tput t b (blockPpa b)) []
  stripes := uses.map fun x => .window x.1 0 15
  stripesDone := 6 }
def g3 : State := let s : State := { b18 with ns := [(0, ns1)] }; { s with fw := readyFw s.fw }
def h0 := allClosed 2 <| (((((nx (execCcWrite 1#32 0x001F001F#32 g3)).setFld fHQE_CTL_FETCH 1).setFld fHQE_DCFG_AEP 9).setFld fARC_MODE_CUR 2).setFld fARC_MODE_HEALTH 2).setFld fHQE_LINK_LTSSM 2
def cq1 : ComQueue := ⟨8, 0, 0, 3, true, true⟩
def sq1 : SubQueue := ⟨8, 0, 0, 1, 0, false, none⟩
def h1 := ((((hq h0 fun h => { h with sqs := tput h.sqs 1 sq1, cqs := tput h.cqs 1 cq1 }).setFld (fHQE_DISP_VALID 0) 1).setFld (fHQE_DISP_EP 0) 1).setFld (fHQE_DISP_MBX 0) 3)
def h2 := hq h1 fun h => { h with cqs := tput (tput h.cqs 1 { cq1 with tail := 3, head := 1 }) 0 ⟨32, 2, 5, 0, true, true⟩ }
def h3 := nx (execSqTailDoorbell 0 5 h1)
def h4 := nx (execSqTailDoorbell 1 3 h1)
def h5 := nx (execFetchTurn h3)
def h6 := nx (execFetchTurn h4)
/-- A command in a slot, fetched and dispatched. -/
def arr (sq : BitVec 16) (c : NvmeCmd) (s : State) : State := hq s fun h => { h with
  slots := h.slots ++ [(h.slots.length, { s.newSlot sq.toNat c with dispatched := true, inHazard := sq != 0, ep := if sq = 0 then 9 else 1, mbx := if sq = 0 then 0 else 3 })],
  nextOrder := h.nextOrder + 1 }
def h7 := arr 1 cmdDsm h1
def h8 := arr 1 cmd0 h1      -- read dispatched
def h9 := arr 1 cmdW h1      -- write dispatched
def hA := arr 0 cmdId h1
def c5 (d10 d11) := arr 0 (qcmd 5 d10 d11) h1
def c5a := c5 0x70002 0x30003
def c5b := c5 0x70001 0x30003
def c1a := arr 0 (qcmd 1 0x70002 0x10001) h1
def c4a := arr 0 (qcmd 4 0x2 0) (hq h1 fun h => { h with cqs := tput h.cqs 2 cq1 })
def c0a := arr 0 (qcmd 0 0x1 0) h1
def c0b := arr 0 (qcmd 0 0x1 0) h8
def c0c := nx (execDeleteIoSq 1 c0b)
def c0d := hq c0c fun h => { h with sqs := h.sqs.filter (fun x => x.1 = 1) }
def c0e := hq c0c fun h => { h with slots := h.slots.filter (fun x => x.1 = 1) }
def cmdW1 : NvmeCmd := { cmdW with dw12 := 0 }
def h9b := arr 1 cmdW1 h1
def d2 := nx (execWriteDataGrant 0 h9b)
def cmdFw : NvmeCmd := ⟨0x000B0011#32, 0#32, 0, 0, 0x3FF#32, 0, 0, 0, 0, 0, .none, 0, 0⟩
def hB := arr 0 cmdFw h1
def d3 := nx (execWriteDataGrant 0 hB)
def pu : PulledUnit := ⟨[0x1122#64, 0x99AABBCCDDEEFF00#64], []⟩
def bead113 (s : State) (b : Nat) : State := { s with pool := { s.pool with beads := tput s.pool.beads b ⟨.granted, 113, 3, 0⟩ } }
def d4 := bead113 h8 5
def d5 := nx (execReadData 1 0 1 [⟨0, 5, 0, 0⟩] d4)
def d6 := bead113 hA 5
def d7 := nx (execReadData 9 0 1 [⟨0, 5, 0, 0⟩] d6)
def dC : State := match h8.slot 0 with | some e => h8.setSlot 0 { e with completion := some ⟨0, 3, 4, false⟩ } | none => h8
def ac (op d10 d11 d12 : Nat) (nsid : Nat := 0) : NvmeCmd := ⟨BitVec.ofNat 32 (0x00210000 + op), BitVec.ofNat 32 nsid, 0, 0, BitVec.ofNat 32 d10, BitVec.ofNat 32 d11, BitVec.ofNat 32 d12, 0, 0, 0, .none, 0, 0⟩
def adOn (s : State) (op d10 d11 d12 : Nat) (nsid : Nat := 0) : State := arr 0 (ac op d10 d11 d12 nsid) s
def ad (op d10 d11 d12 : Nat) (nsid : Nat := 0) : State := adOn h1 op d10 d11 d12 nsid
def withBead (s : State) (b : Nat) (ws : List Word) : State :=
  { s with pool := { s.pool with beads := tput s.pool.beads b ⟨.granted, 9, 8, 0⟩ }, mem := beadMem b 1 fun _ => ws }
def lg1 := ad 0x02 (0x02 + 0x7F * 65536) 0 0
def lg4 := ad 0x02 (0x77 + 0xFF * 65536) 0 4
def id1 := ad 0x06 1 0 0
def id00 := ad 0x06 0 0 0 0
def ab1 := ad 0x08 1 0 0
def ab5 := [1,2,3,4].foldl (fun (s : State) k => arr 0 { ac 0x08 1 0 0 with dw0 := BitVec.ofNat 32 (0x10000 * k + 8) } s) h1
def ab6 := arr 0 { ac 0x08 1 0 0 with dw0 := 0x00090008#32 } ab5
def ae := ad 0x0C 0 0 0
def ae8 := hq ae fun h => { h with aers := [5,6,7,8,9,10,11,12] }
def st1 := ad 0x14 1 0 0
def sf1 := ad 0x09 0x08 0x203 0
def sf6 := ad 0x09 6 1 0
def gf1 := hq (ad 0x0A 0x08 0 0) fun h => { h with features := [(8, 0x203)] }
def gf2 := ad 0x0A 0x0E 0 0
def pm1 := ad 0x09 2 1 0
def pm3a := adOn h8 0x09 2 3 0
def pm3 : State := { pm3a with ns := [] }
def ts1 := withBead (ad 0x09 0x0E 0 0) 7 [0x0001020304050607#64]
def nsw (nsze fmt pi : Nat) : List Word := [BitVec.ofNat 64 nsze, BitVec.ofNat 64 nsze, 0, BitVec.ofNat 64 (fmt * 2^16 + pi * 2^40)]
def nm1 := withBead (ad 0x0D 0 0 0) 7 (nsw 2048 1 1)
def nm2 := ad 0x0D 1 0 0 1
def na1 : State := let s := withBead (ad 0x15 0 0 0 1) 7 [0x00010001#64]; { s with ns := [(0, { ns1 with attached := false })] }
def fm1 := ad 0x80 0x201 0 0 1
def hm2 (s : State) : State := (s.setFld fARC_MODE_CUR 2).setFld fARC_MODE_HEALTH 2
def sa (a : Nat) : State := hm2 (ad 0x84 a 0 0)
def saS (a n : Nat) (ause : Bool) : State := let s := sa a; { s with sig := { s.sig with sanState := n, sanAuse := ause } }
def ss1 := withBead (ad 0x81 0xF0000000 8 0) 7 [5#64]
def ss2 := withBead (ad 0x81 0xF1000000 8 0) 7 [5#64]
def sr1 := ad 0x82 0 64 0
def io (s : State) (op d10 d12 : Nat) (d11 : Nat := 0) : State := arr 1 ⟨BitVec.ofNat 32 (0x00310000 + op), 1#32, 0, 0, BitVec.ofNat 32 d10, BitVec.ofNat 32 d11, BitVec.ofNat 32 d12, 0, 0, 0, .none, 0, 0⟩ s
def fl_ := io h1 0 0 0
def vd (s : State) (st : Nat) : State := match s.slot 0 with | some e => s.setSlot 0 { e with verdict := some st } | none => s
def fl2_ := vd fl_ 0x4020
def wb (s : State) (b : Nat) (ws : List Word) : State :=
  { s with pool := { s.pool with beads := tput s.pool.beads b ⟨.granted, 1, 8, 0⟩ }, mem := beadMem b 1 fun _ => ws }
def wr1 := wb (io h1 1 3 0) 7 [5#64]
def trimd (s : State) (u : Nat) (c : Nat := 0) : State := { s with fw := { s.fw with entries := tput s.fw.entries u (mkEntry c true false false false 0) } }
def cached (s : State) (u b : Nat) : State := { s with fw := { s.fw with entries := tput s.fw.entries u (mkEntry 77 false false true false 5), hot := [⟨0, u, b, 1, 0⟩] } }
def dul (s : State) : State := hq s fun h => { h with features := [(0x100005, 0x10000)] }
def rd1 := trimd (io h1 2 3 0) 3
def rd2 := cached (wb (io h1 2 3 0) 9 [6#64]) 3 9
def rd3 := dul rd1
def ve1 := trimd (io h1 0x0C 3 0) 3
def ve2 := dul ve1
def wb2 (s : State) (v w : List Word) : State :=
  { s with pool := { s.pool with beads := tput (tput s.pool.beads 7 ⟨.granted, 1, 8, 0⟩) 9 ⟨.granted, 1, 8, 0⟩ }, mem := beadMem 7 3 fun b => if b = 7 then v else w }
def co (a b : Word) := cached (wb2 (io h1 5 3 0) [b] [a]) 3 9
def co1 := co 6 6
def co2 := co 6 7
def wu := io h1 4 3 1
def wz := io h1 8 3 1
def dm1 := nx (execDsmRangeListArrival 0 [⟨1,5,3⟩,⟨0,2,9⟩] false h7)
def dm2 := nx (execDsmRangeListArrival 0 [⟨1,5,3⟩,⟨0,2,9⟩] false (arr 1 { cmdDsm with dw11 := 0 } h1))
def bt (s : State) (f : Boot → Boot) : State := { s with boot := f s.boot }
def fb : State := bt h1 fun b => { b with dir := { b.dir with valid2 := true }, slots := [(1, pk), (2, pk)], pieces := [(0, 8)] }
def fd1 := withBead (adOn fb 0x11 7 8 0) 7 [5#64]
def fd2 := withBead (adOn fb 0x11 7 4 0) 7 [5#64]
def fc (ca fs : Nat) : State := adOn fb 0x10 (fs + 8 * ca) 0 0
def cps : List CopyAt := (List.range 8).map fun i => ⟨BitVec.ofNat 16 (16 * i), 1, 2⟩
def fa := hm2 (fc 3 2)
def saA : State := ((hm2 (adOn fb 0xC0 2 1000 0)).setFld fTMR_STAMP_ORIGIN 1)
def saB := nx (execScheduledActivation 0 true saA)
def saC := adOn fb 0xC0 0x100 0 0
def saD := arr 0 { ac 0xC0 0x100 0 0 with dw0 := 0x002200C0#32 } saB
def ka1 := nx (execFirmwareCommitActivate 0 true fa)
def parkM : Msg := mkMsg 0 112 1 0x1A3 0 0
def ka2 : State := ka1.setBox 112 1 [parkM]
def ka3 : State := [0,1,9].foldl (fun (s : State) n => s.setCore n { s.core n with parked := true }) ka1
def fwU (s : State) (f : Fw → Fw) : State := { s with fw := f s.fw }
def lostD : Tab Nat := ((List.range 512).filter (fun d => d % 16 ≠ 0 || 32 < d)).map fun d => (d, 1)
def pl0 : StripeAt := ⟨1, 0, 0, none⟩
def addSys (f : Fw) : Fw := { f with
  bands := tput f.bands 7 ⟨6, 1, bbs 7, 0, 0, 0, 0, 0, 0, false, 15, 0, []⟩, bandSerial := 7
  blocks := (bbs 7).foldl (fun t b => tput t b { BlockRec.fresh with state := 2, use := 6, durable := some 0, lastSlc := true }) f.blocks
  frontier := (bbs 7).foldl (fun t b => tput t b (blockPpa b)) f.frontier
  durFrontier := (bbs 7).foldl (fun t b => tput t b (blockPpa b)) f.durFrontier
  stripes := f.stripes ++ [.window 7 0 15], stripesDone := 7, wordlines := 100000 }
def fw0 := fwU (nx (execNvmWrite 0 [7] [] [] (hm2 (wr1)))) fun f => { (addSys f) with lostDies := lostD, planes := 1, blocksPer := 100 }
def fw1 := nx (execStagingStripeTimeout pl0 fw0)
def fwStop := fwU fw1 fun f => { f with pfailStop := true }
def fwF := nx (execJournalFlushStart { fw1 with now := 10^10 })
def fwRep : State := fwU fw1 fun f => { f with replayIndex := [(0, 3)] }
def hotS : State := { rd2 with now := 10^9 }
def wearS : State := fwU h8 fun f => { f with ewDay := 5, readsDay := 100 }
def evS : State := nx (execEvrEnable 112 h8)
def pfI : State := fwU fwF fun f => { f with pfailIgnore := true }
def off1 : State := fwU (hm2 h8) fun f => { f with offlineAt := [(3, 5)] }
def Q0 : State := tj
def Q2 : State := ((tj.setFld (fPSQ_CTL_EN 0) 1).setFld (fPSQ_STAT_STATE 0) 2).setFld (fPSQ_SIG_LOADED 0) 1
def tr (k : Nat) (f : Nat := 0) : State := Q2.setSq 0 { Q2.sq 0 with training := k, retrimFails := f }
def rq (op flags ppa mask senses sel tag : Nat) (b : Nat := 7) : Msg := mkMsg 1 64 0 0x150 0 (payloadOf [(0,1,op),(1,1,flags),(2,1,3),(3,1,1),(4,5,ppa),(9,1,mask),(10,1,senses),(11,1,sel),(12,4,tag),(16,2,b),(18,2,b+1),(20,2,b+2),(22,2,b+3),(24,2,0xFFFF),(26,2,0xFFFF),(28,2,0xFFFF),(30,2,0xFFFF),(32,2,0xFFFF),(34,2,0xFFFF),(36,2,0xFFFF),(38,2,0xFFFF)])
def ownB (s : State) (e : Nat) (l : List Nat) : State := l.foldl (fun (s : State) b => { s with pool := { s.pool with beads := tput s.pool.beads b ⟨.granted, e, 3, 0⟩ } }) s
def QB : State := ownB Q2 1 [7,8,9,10]
def withRq (m : Msg) (s : State := QB) : State := s.setBox 64 0 [m]
def rd1Q := nx (execPsqRead 0 .clean (withRq (rq 1 0 0 1 0 0 77)))
def pgQ := nx (execPsqProg 0 (withRq (rq 2 1 0 1 0 0 77)))
def erQ := nx (execPsqErase 0 (withRq (rq 3 0 0 1 0 0 77)))
def phQ := nx (execPsqProg 0 (withRq (rq 2 3 0 1 0 0 77)))
def spQ := nx (execSequencerFailure 0 erQ)
def noSp : State := (erQ.setFld (fPSQ_CTL_CHAN 32) 30).setFld (fPSQ_CTL_CHAN 33) 31
def mic (op arg : Nat) (pc : Nat := 0) (s : State := pgQ) : State := ((s.setReg (rPSQ_MICRO 0 pc) (BitVec.ofNat 64 (op * 2^21 + arg))).setFld (fPSQ_STAT_PC 0) pc).setFld (fPSQ_SIG_LOADED 0) 1
def stk (l : List Nat) (s : State) : State := s.setSq 0 { s.sq 0 with stack := l }
def cap0 : State := (nx (execDieOperationComplete 0 0 5 true [] [] (nx (execPsqRead 0 .clean (withRq (rq 1 0 0 3 0 0 77)))))).setFld (fLPE_CTL_EN 0) 1
def capN : State := (cap0.setFld (fLPE_CTL_RETX 0) 0).setSq 0 { cap0.sq 0 with shadow := (cap0.sq 0).shadow.map fun r =>
  { r with slots := [⟨0, [⟨[1], some 0, none⟩], false, none, 0⟩, ⟨1, [], false, none, 0⟩] } }
def lr (f : LearnRec → LearnRec := id) : LearnRec := f ⟨0, 1, 0, 1, 5, 0, 1, 0, 20, 3, 4, [(1,2),(3,4),(5,6),(7,8),(9,10),(11,12),(13,14)], [0,0,0,0,0,0,0], [0,0,0,0,0,0,0,0]⟩
def AS (r : LearnRec) (s : State := evS) : State := { s with assay := { s.assay with input := [r, lr] } }
def AR (r : LearnRec) : State := ((AS r).setFld fASY_CTL_LEARN 1).setFld fASY_STAT_READY 1
def ARf : State := let s := AR (lr); { s with assay := { s.assay with entries := tput s.assay.entries (s.recordEntry lr) { AsyEntry.zero with frozen := true } } }
def AR3 : State := let s := AR (lr); { s with assay := { s.assay with entries := tput s.assay.entries (s.recordEntry lr) { AsyEntry.zero with alarm := true, acause := 1, n := 65535 } } }
def ld1 := nx (execAsyLoad 112 evS)
def sn1 := nx (execAsySnap 112 (AR3))
def prm (op k a b : Nat) (bds : List Nat) : Msg := mkMsg 1 115 0 0x170 0 (payloadOf ([(0,1,op),(1,1,k),(2,1,3),(3,1,1),(4,1,a),(5,1,b),(8,4,55)] ++ (bds ++ List.replicate (18 - bds.length) 0xFFFF).mapIdx fun i x => (12 + 2*i, 2, x)))
def pj (m : Msg) (s : State) : State := s.setBox 115 0 [m]
def svcP (svc : Nat) (l : List (Nat × Nat × Nat)) : BitVec 512 := payloadOf ([(0,1,svc),(4,4,0x1234)] ++ l)
def svcM (src : Nat) (p : BitVec 512) : Msg := mkMsg src 112 0 0x1A0 0 p
def sv (s : State) (p : BitVec 512) : State := s.setBox 112 0 [svcM 9 p]
def sB : State := hm2 g3
def sgs : State → (Sig → Sig) → State := fun s f => { s with sig := f s.sig }
def P1_ := svcP 1 []
def P2_ := svcP 2 [(10,1,0x02)]
def P3_ := svcP 3 [(12,4,100)]
def P4_ := svcP 4 []
def P5_ := svcP 5 [(8,1,1),(9,1,3)]
def P5b := svcP 5 [(8,1,7),(9,1,3)]
def P6_ := svcP 6 []
def P7_ := svcP 7 [(8,1,3)]
def P8_ := svcP 8 []
def P9_ := svcP 9 [(8,1,2)]
def s6 : State := sv (sgs (sB.setFld fARC_MODE_CUR 6) fun g => { g with sanState := 1 }) P6_
def s8b : State := sv h8 P8_
def s9 : State := sv ({ (nx (execPerstNRelease rg z0)) with ns := [] }) P9_
def pd (a : Nat) : BitVec 384 := Config.pinDigest a 5
def op0 (s : State) : State := sgs s fun g => { g with auths := [(1, ⟨pd 1, 0, 5, true⟩), (2, ⟨~~~(pd 2), 1, 5, true⟩), (6, ⟨pd 6, 0, 5, true⟩)], locking := true }
def opB : State := op0 sB
def os (a : Nat) : OpalSession := ⟨a, true, 0, false, [], [], [], [], [], []⟩
def opS (a : Nat) (tx : Bool) : State := sgs opB fun g => { g with opal := some { os a with inTx := tx, savedRanges := [(7, ⟨true, 0, 1, 2, true, true, false, []⟩)], savedAuth := [(3, ⟨7, 0, 5, true⟩)], savedData := [(4, 6)] }, ranges := [(0, ⟨true, 0, 0, 0, true, true, false, []⟩), (257, ⟨true, 0, 8, 8, true, true, true, []⟩)] }
def ksK (s : State) : State := sgs s fun g => { g with keys := [(0, ⟨7, 0x1F, 3, 0, 0⟩), (1, ⟨8, 0x07, 3, 0, 0⟩), (2, ⟨9, 0xF, 3, 4, 0⟩), (3, ⟨9, 0xF, 3, 7, 10^12⟩)] }
def kB := ksK sB
def kO (id : Nat) (privs : Nat) := nx (execKsOpen .bus (BitVec.ofNat 3 id) (BitVec.ofNat 5 privs) 99 kB)
def s1 : State := State.reset.setCore 0 c0
def s3 : State := State.reset.setCore 0 { c0 with cr := { c0.cr with bpa := 0x101#64 } }
def s4 : State := State.reset.setCore 0 { c0 with pc := 0x10000 }
def s5 : State := (State.reset.setCore 0 { c0 with cr := { c0.cr with hstat := 1#64 } }).setReg rFCT_SPARE 0
def sQ : State := { State.reset.setCore 0 c0 with pending := [.fence 0 .clean] }
def s7 : State := (State.reset.setCore 0 c0).setFld fPWR_STAT_STATE 2
def s8 : State := { State.reset.setCore 0 { c0 with pc := 0x100 } with mem := ⟨[], [(cellKey 0 0x100, ())], []⟩ }
def sp0 (a b c : Bool) (s : State) : State := sgs s fun g => { g with spdm := ⟨a, b, c, [(2, [3, 4, 5])]⟩ }
def pw (n : Nat) (s : State) : State := s.setFld fPWR_STAT_STATE n
def ms1 := ad 0x1D 3 0x201 0
def ms2 := ad 0x1D 5 0x201 0
def mr1 := ad 0x1E 4 1 0
def mr2 := ad 0x1E 1 0 0
def sBp : State := s3
def sDiv : State := State.reset.setCore 0 { c0 with g := [(1, ⟨0x8000000000000000#64, false⟩), (2, ⟨BitVec.allOnes 64, false⟩)] }
def b25 : State := { b1 with mem := mm.write (cellKey 0 0x20080) 0x1234 64 }
def b26 : State := { b10 with mem := mm.write (cellKey 0 0x20080) 0x1234 64 }
def fRO : FieldSpec := ⟨0, 4, .ro, 0⟩
def kOff : State := { k3 with clasps := { k3.clasps with inReset := [(2, ())] } }
def heldFirst (n : Nat) : State := { evOn with evr := { evOn.evr with firsts := [(n, draftOf n 0x10000000000#512)] } }
def hFetching : State := hq h1 fun h => { h with fetching := [(1, 0, 1)] }
def hCoalesced : State := hq h1 fun h => { h with coalesced := [(3, 2)] }
def entry5 : ReadEntry := ⟨0, 5, 0, 0⟩
def d7b : State := { d7 with mem := beadMem 5 1 fun _ => [1#64, 2#64] }
def opR (a : Nat) : State := sgs sB fun g => { g with auths := [(a, ⟨Config.pinDigest a 5, 0, 5, true⟩)] }
def opW (a : Nat) : State := sgs sB fun g => { g with auths := [(a, ⟨Config.pinDigest a 5 + 1#384, 0, 5, true⟩)] }
def kR : State := sgs kB fun g => { g with ks := some ⟨0, 0x1F, 0, 0, 0x1F, true, 0, 0, 0⟩ }
def kR7 : State := kR.setFld fARC_MODE_CUR 7
def kRA : State := kR.setFld fARC_MODE_CUR 0xA
def bkE : State := (sB.setBlk 0 { BlockRec.fresh with state := 5 }).setBlk 5 { BlockRec.fresh with pooled := false }
def pfL : State := fwU sB fun f => { f with pfailLow := true }
def bCk : State := { b1 with mem := mm.write (b1.ckAddr 0 0) (256 ^ 0x108 + 0x50590662 * 256 ^ 0x11C) 0x120 }
def band3 (serial use : Nat) : Band := ⟨use, 1, bbs serial, 0, 0, 0, 0, 0, 0, false, 15, 0, []⟩
def fJ : State := fwU sB fun f => { f with jEarly := true }
def fJr : State := fwU fJ fun f => { f with ranges := [⟨9, 0, 0, 5, 1, none⟩] }
def fJ4 : State := fwU fJ fun f => { f with jFlush := some ([], false, []) }
def fJ5 : State := fwU sB fun f => { f with jFlush := some ([.nop], false, [1]) }
def fJ6 : State := fwU fJ5 fun f => { f with ranges := [⟨9, 0, 0, 5, 1, some 3⟩] }
def ns2 : Namespace := ⟨0, 2048, 1, 1, false, false, false, none, none⟩
def gone1 (e : Slot) : Namespace := { ns1 with leaving := some (e.order, true) }
def fmt1 (e : Slot) : FormatTo := ⟨e.cmd.dw10.toNat % 16, 0, e.cmd.dw10.getLsbD 8, e.cmd.dw10.getLsbD 4, 1 ≤ e.cmd.dw10.toNat / 512 % 8, false, e.order⟩
def nsF (e : Slot) : Namespace := { ns1 with formatTo := some (fmt1 e) }
def fP : State := fwU { sB with now := 10 ^ 12 } fun f => { f with entries := [(3, mkEntry 0 true false false false 1)], dirtySince := [(0, 0)] }
def addBand (s : State) (serial use k wl : Nat) : State :=
  let bs := (List.range (k + 2)).map fun c => c * 16 * 2 ^ 17 + serial
  fwU s fun f => { f with
    wordlines := wl, bands := f.bands ++ [(serial, ⟨use, k, bs, 0, 0, 0, 0, 0, 0, false, 15, 0, []⟩)]
    blocks := bs.foldl (fun t b => tput t b { BlockRec.fresh with state := 2, use := use, durable := some 0, lastSlc := slcUse use }) f.blocks
    stripes := f.stripes ++ [.window serial 0 15], stripesDone := 7 }
def bandK (serial use k : Nat) : Band := ⟨use, k, (List.range (k + 2)).map fun c => c * 16 * 2 ^ 17 + serial, 0, 0, 0, 0, 0, 0, false, 15, 0, []⟩
def fSn : State := addBand sB 7 6 16 1200
def snapX : Snapshot := ⟨3, false, [], [], [], [], 0, 77, 7, (bandK 7 6 16).ppaOn ((((bandK 7 6 16).layoutAt 7 0).1.headD []).headD 0) 0 0, 5⟩
def fSn2 : State := fwU fSn fun f => { f with snaps := [snapX] }
def wt1 : Waiting := ⟨9, 0, 5, none, 7, 255, 0, 0, 1, false⟩
def fSt : State := fwU sB fun f => { f with staging := [wt1] }
def portion : List Waiting := (List.range 64).map fun i => { wt1 with unit := i, count := 64, index := i }
def fDi : State := fwU (addBand sB 7 1 16 100) fun f => { f with direct := [portion] }
def uU : List Word := mkUnit [] [] 3 5 0 0 0
def oneUnit (s : State) (p : Nat) : State := fwU s fun f => { f with flash := [(p, uU)], entries := [(5, mkEntry p false false true false 3)] }
def fMv : State := fwU (oneUnit sB (2 ^ 14)) fun f => { f with dies := 33, planes := 1, blocksPer := 60, lostDies := ((List.range 33).filter fun d => d % 16 ≠ 0).map fun d => (d, 1) }
def fRc : State := fwU (oneUnit sB (2 * 2 ^ 14)) fun f => { f with dies := 33, planes := 1, blocksPer := 60, bands := tput f.bands 2 { band3 2 1 with state := 1, valid := 1, capacity := 9 } }
def fRl : State := oneUnit (sB.setBlk 1 { sB.blk 1 with reads := 4000000 }) (2 ^ 14)
def fRs : State := oneUnit sB (2 ^ 14)
def fRs2 : State := fwU sB fun f => { f with bands := [] }
def fRs3 : State := (fwU sB fun f => { f with reshapeState := 2 }).setFld fARC_MODE_CUR 7
def fRb : State := fwU (oneUnit sB (2 ^ 14)) fun f => { f with lostDies := [(16, 1)] }
def fRp : State := fwU (oneUnit sB (2 ^ 14)) fun f => { f with repairs := [(2 ^ 19, 0)] }
def fBd : State := fwU { sB with now := 10 ^ 18 } fun f => { f with bands := tput f.bands 2 { band3 2 1 with state := 1 } }
def fCp (n : Nat) : State := (fwU sB fun f => { f with copies := (([(0, 9), (32, 9), (64, 9)] : List (Nat × Nat)).take n), copyUsed := [0, 0, 0] }).setBlk (48 * 2 ^ 17 + 5) { BlockRec.fresh with pooled := true }
def fRe : State := sB.setFld fARC_MODE_CUR 1
def recB : LearnRec := lr fun r => { r with selector := 3 }
def recM (s : State) : State := { s with mem := ((⟨[], [], []⟩ : Mem).write (tableAddr s (s.recordEntry lr)) 0 8) }
def pgM : State := { pgQ with mem := beadMem 7 4 fun _ => [] }
def pgR : PsqReq := (pgQ.runningOn 0 0).headD (parseReq 0 (rq 2 1 0 1 0 0 77))
def mi : Nat → NvmeCmd := fun op => { cmd0 with dw0 := BitVec.ofNat 32 op, dw10 := 0x07#32 }
def mapHit : State := { b22 with map := { b22.map with frames := [(b22.mapSet 1 * 8, { Frame.empty with mpn := 1, valid := true })] } }
def mapBusy : State := { b22 with map := { b22.map with frames := [(b22.mapSet 1 * 8, { Frame.empty with mpn := 1, valid := true, busy := true })] } }
def pz (m : Msg) (w : List Word) : State :=
  { pj m (ownB (sB.setFld fPAR_CTL_EN 1) 1 [7, 8, 9, 10, 11, 12]) with mem := beadMem 7 6 fun b => if b = 7 then w else [] }
def pzm (op a b : Nat) : Msg := prm op 4 a b [7, 8, 9, 10, 11, 12]
/-! ### A stripe of six beads, four of data -/

theorem pz_job {m : Msg} {w : List Word} {op : Nat} (hm : (pz m w).box 115 0 = [m]) (h : (parseParReq m).op = op ∧ (pz m w).fld fPAR_CTL_EN = 1 ∧
    (pz m w).par.length < (pz m w).fld fPAR_CFG_SLOTS ∧ (pz m w).parValid (parseParReq m) = true)
    (hb : ∀ i ∈ (parseParReq m).reads, 7 ≤ (parseParReq m).at i ∧ (parseParReq m).at i < 13) :
    Claims.ParityJob (pz m w) op m [] :=
  ⟨hm, h.1, h.2.1, h.2.2.1, h.2.2.2, fun i hi => beadMem_clean _ (hb i hi).1 (hb i hi).2 (by decide)⟩

theorem pz_span (m : Msg) (w : List Word) {b : Nat} (h : 7 ≤ b ∧ b < 13) (h0 : b ≠ 7 ∨ w = []) : (pz m w).mem.span b = zeroSpan := by
  show (beadMem 7 6 _).span b = zeroSpan
  rw [Mem.span, beadMem_doubles _ h.1 h.2, beadMem_metaDoubles _ h.1 h.2 (by decide)]
  have e : (if b = 7 then w else []) = [] := by
    rcases h0 with h0 | h0
    · rw [if_neg h0]
    · rw [h0]; split <;> rfl
  rw [e]
  show (List.range 512).map (fun _ => 0#64) ++ List.replicate 8 0#64 = _
  rw [List.map_const', List.length_range, List.replicate_append_replicate]
  rfl

theorem pz_data {m : Msg} (l : List Nat) (hk : (parseParReq m).k = 4)
    (hb : ∀ i ∈ List.range 4, 7 ≤ (parseParReq m).at i ∧ (parseParReq m).at i < 13) :
    (pz m []).parData (parseParReq m) l = ((List.range 4).filter fun i => !l.contains i).map fun i => (i, zeroSpan) := by
  rw [State.parData, hk]
  exact List.map_congr_left fun i hi => by rw [pz_span m [] (hb i (List.mem_filter.1 hi).1) (Or.inr rfl)]

theorem xor_zero : xorSpan zeroSpan zeroSpan = zeroSpan := by
  unfold xorSpan zeroSpan
  rw [List.zipWith_replicate]
  rfl
theorem scale_zero (i : Nat) (h : i < 4) : scaleSpan (gfPow i) zeroSpan = zeroSpan := by
  have e : ∀ i, i < 4 → gfScale (gfPow i) 0#64 = 0#64 := by decide +kernel
  simp only [scaleSpan, zeroSpan, List.map_replicate, e i h]

theorem sumP_zero (l : List Nat) : sumP (l.map fun i => (i, zeroSpan)) = zeroSpan := by
  rw [sumP, List.foldl_map]
  induction l with
  | nil => rfl
  | cons i l ih => rw [List.foldl_cons, xor_zero, ih]

theorem sumQ_zero (l : List Nat) (h : ∀ i ∈ l, i < 4) : sumQ (l.map fun i => (i, zeroSpan)) = zeroSpan := by
  rw [sumQ, List.foldl_map]
  induction l with
  | nil => rfl
  | cons i l ih =>
    rw [List.foldl_cons, scale_zero i (h i List.mem_cons_self), xor_zero]
    exact ih fun j hj => h j (List.mem_cons_of_mem _ hj)

theorem below4 (l : List Nat) : ∀ i ∈ (List.range 4).filter fun i => !l.contains i, i < 4 := fun _ hi =>
  List.mem_range.1 (List.mem_filter.1 hi).1

/-! ### StepRunsTheFrontCommandOrTicks -/

theorem witness_stepOnAnEmptyQueue :
    (s7.pending = [] ∧ 2 ≤ s7.fld fPWR_STAT_STATE) ∧ (s1.pending = [] ∧ s1.fld fPWR_STAT_STATE < 2) :=
  by decide +kernel
theorem witness_stepRunsTheFrontCommand :
    sQ.pending = Instr.fence 0 Ecc.clean :: [] :=
  by decide +kernel

/-! ### FacetWordsDecodeAndEncodeAgree -/

theorem witness_facetWordsDecodeAndEncodeAgree :
    (facetWord (Instr.bne 7 Ecc.clean 31 0 0x8000#16) = some 0b100001_11111_00000_1000000000000000#32) ∧
    (facetOf 9 Ecc.clean Ecc.clean 0b100001_11111_00000_1000000000000000#32 = some (Instr.bne 9 Ecc.clean 31 0 0x8000#16)) :=
  by decide +kernel

/-! ### FetchTakesTheFirstTrapInOrder -/

theorem witness_fetchTakesTheFirstTrapInOrder :
    ((s1.core 0).status = .running ∧ (s1.core 0).stallBy = none ∧ Plain s1 0 ∧ Ready s1 0) ∧ ((sBp.core 0).status = .running ∧
    (sBp.core 0).stallBy = none ∧ Plain sBp 0 ∧ (sBp.core 0).bpHit = true) ∧ ((s4.core 0).status = .running ∧ (s4.core 0).stallBy = none ∧
    Plain s4 0 ∧ (s4.core 0).bpHit = false ∧ (s4.core 0).pc = 0x10000) ∧ ((s8.core 0).status = .running ∧ (s8.core 0).stallBy = none ∧ Plain s8 0 ∧
    (s8.core 0).bpHit = false ∧ (s8.core 0).pc < 0x10000 ∧ s8.fetchPoison 0 = true) :=
  by simp only [Plain, Ready]; decide +kernel

/-! ### IllegalWordsAndDoubleTraps -/

theorem witness_doubleTrapStopsTheCore :
    Fetches s5 s5 0 Ecc.clean ∧ (s5.core 0).inTrap = true ∧ (illegalDetail (BitVec.allOnes 32)).isSome = true ∧
    bit (s5.reg rFCT_SPARE) (8 * (0 / 9) + 7) = false :=
  ⟨fetched (by decide +kernel), by decide +kernel⟩
theorem witness_illegalWordTraps :
    Fetches s1 s1 0 Ecc.clean ∧ Plain s1 0 ∧ illegalDetail (BitVec.allOnes 32) ≠ none :=
  ⟨fetched (by decide +kernel), by simp only [Plain]; decide +kernel⟩

/-! ### AluResults -/

theorem witness_registerAluResults :
    Fetches s1 s1 0 Ecc.clean :=
  fetched (by decide +kernel)
theorem witness_unaryAluResults :
    Fetches s1 s1 0 Ecc.clean :=
  fetched (by decide +kernel)

/-! ### DivisionNeverTraps -/

theorem witness_divisionNeverTraps :
    Fetches s1 s1 0 Ecc.clean ∧ (s1.gv 0 20 = 0#64 ∧ s1.gv 0 12 ≠ 0#64) ∧ sDiv.gv 0 1 = 0x8000000000000000#64 ∧ sDiv.gv 0 2 = BitVec.allOnes 64 :=
  ⟨fetched (by decide +kernel), by decide +kernel⟩

/-! ### ImmediateResults -/

theorem witness_immediateResults :
    (Fetches s1 s1 0 Ecc.clean) ∧
    (bits ((0b000111_00001_00010_0000000001000000#32).zeroExtend 64) 26 6 ∈ [7, 8, 9] ∧
    bits ((0b000111_00001_00010_0000000001000000#32).zeroExtend 64) 6 10 ≠ 0 ∧
    bits ((0b001010_00001_00001_0000000000000000#32).zeroExtend 64) 26 6 ∈ [10, 14] ∧
    bits ((0b001010_00001_00001_0000000000000000#32).zeroExtend 64) 16 5 ≠ 0) :=
  ⟨fetched (by decide +kernel),
  by decide +kernel⟩

/-! ### BranchesJumpsAndCallsTransfer -/

theorem witness_branchesGoWhereTheirConditionSays :
    (Fetches s1 s1 0 Ecc.clean ∧ s1.gp 0 1 = false ∧ s1.gp 0 1 = false) ∧
    (Fetches s1 s1 0 Ecc.clean ∧ Plain s1 0 ∧ s1.gp 0 3 = true) ∧
    (Fetches s1 s1 0 Ecc.clean ∧ Plain s1 0 ∧ s1.gp 0 1 = false ∧ s1.gp 0 3 = true) ∧
    (Fetches s1 s1 0 Ecc.clean) ∧
    (bits ((0b100110_00001_00001_0000000000000000#32).zeroExtend 64) 26 6 = 0x26 ∧
    bits ((0b100110_00001_00001_0000000000000000#32).zeroExtend 64) 16 5 ≠ 0) :=
  ⟨⟨fetched (by decide +kernel), by decide +kernel⟩,
  ⟨fetched (by decide +kernel), by simp only [Plain]; decide +kernel⟩,
  ⟨fetched (by decide +kernel), by simp only [Plain]; decide +kernel⟩,
  fetched (by decide +kernel),
  by decide +kernel⟩
theorem witness_jumpsAndCallsGoToTheirTargets :
    (Fetches s1 s1 0 Ecc.clean) ∧
    (Fetches s1 s1 0 Ecc.clean ∧ s1.gp 0 1 = false) ∧
    (Fetches s1 s1 0 Ecc.clean ∧ s1.gp 0 3 = true ∧ Plain s1 0) :=
  ⟨fetched (by decide +kernel),
  ⟨fetched (by decide +kernel), by decide +kernel⟩,
  ⟨fetched (by decide +kernel), by simp only [Plain]; decide +kernel⟩⟩

/-! ### LoadsReadMemoryAndRegisters -/

theorem witness_controlSpaceLoadsReadTheRegister :
    Fetches b2 b2 0 Ecc.clean ∧ b2.gp 0 7 = false ∧ regionAt (BitVec.toNat (b2.gv 0 7 + BitVec.signExtend 64 0#16)) = Region.control 0 ∧
    BitVec.toNat (b2.gv 0 7 + BitVec.signExtend 64 0#16) % 8 = 0 ∧ b2.ctlLoadFault (b2.mailEp 0) 0 = none ∧ b2.heldBlock 0 0 = false :=
  ⟨fetched (by decide +kernel), by decide +kernel⟩
theorem witness_loadsReadTheirBytes :
    (Fetches b1 b1 0 Ecc.clean ∧ b1.gp 0 1 = false ∧ Claims.inMemory (BitVec.toNat (b1.gv 0 1 + BitVec.signExtend 64 0#16)) ∧
    b1.accessFault 0 (BitVec.toNat (b1.gv 0 1 + BitVec.signExtend 64 0#16)) (Instr.lb, 1, true).snd.fst Access.load = none) ∧
    (Fetches b1 b1 0 Ecc.clean ∧ b1.gp 0 1 = false ∧ b1.gp 0 5 = false ∧ Claims.inMemory (BitVec.toNat (b1.gv 0 1 + b1.gv 0 5)) ∧
    b1.accessFault 0 (BitVec.toNat (b1.gv 0 1 + b1.gv 0 5)) 8 Access.load = none) :=
  ⟨⟨fetched (by decide +kernel), by simp only [inMemory_iff]; decide +kernel⟩,
  ⟨fetched (by decide +kernel), by simp only [inMemory_iff]; decide +kernel⟩⟩

/-! ### StoresWriteMemory -/

theorem witness_storesWriteTheirBytes :
    (Fetches b1 b1 0 Ecc.clean ∧ b1.gp 0 1 = false ∧ Claims.inMemory (BitVec.toNat (b1.gv 0 1 + BitVec.signExtend 64 0#16)) ∧
    b1.accessFault 0 (BitVec.toNat (b1.gv 0 1 + BitVec.signExtend 64 0#16)) (Instr.sb, 1).snd Access.store = none) ∧
    (Fetches b1 b1 0 Ecc.clean ∧ b1.gp 0 1 = false ∧ Claims.inMemory (BitVec.toNat (b1.gv 0 1 + BitVec.signExtend 64 0#16)) ∧
    b1.accessFault 0 (BitVec.toNat (b1.gv 0 1 + BitVec.signExtend 64 0#16)) 8 Access.store = none) ∧
    (Fetches b1 b1 0 Ecc.clean ∧ b1.gp 0 1 = false ∧ Claims.inMemory (BitVec.toNat (b1.gv 0 1 + BitVec.signExtend 64 0#16)) ∧
    b1.accessFault 0 (BitVec.toNat (b1.gv 0 1 + BitVec.signExtend 64 0#16)) 8 Access.sdp = none) ∧
    (Fetches b1 b1 0 Ecc.clean ∧ b1.gp 0 1 = false ∧ b1.gp 0 5 = false ∧ Claims.inMemory (BitVec.toNat (b1.gv 0 1 + b1.gv 0 5)) ∧
    b1.accessFault 0 (BitVec.toNat (b1.gv 0 1 + b1.gv 0 5)) 8 Access.store = none) :=
  ⟨⟨fetched (by decide +kernel), by simp only [inMemory_iff]; decide +kernel⟩,
  ⟨fetched (by decide +kernel), by simp only [inMemory_iff]; decide +kernel⟩,
  ⟨fetched (by decide +kernel), by simp only [inMemory_iff]; decide +kernel⟩,
  ⟨fetched (by decide +kernel), by simp only [inMemory_iff]; decide +kernel⟩⟩
theorem witness_zeroLineClearsItsBlock :
    Fetches b1 b1 0 Ecc.clean ∧ b1.gp 0 1 = false ∧ b1.accessFault 0 (BitVec.toNat (b1.gv 0 1 + BitVec.signExtend 64 0#16)) 64 Access.zl = none :=
  ⟨fetched (by decide +kernel), by decide +kernel⟩

/-! ### AtomicsReadAndWriteAtOnce -/

theorem witness_atomicsReadAndWriteAtOnce :
    (Fetches b1 b1 0 Ecc.clean ∧ b1.gp 0 4 = false ∧ b1.gp 0 12 = false ∧ b1.accessFault 0 (b1.gv 0 4).toNat 8 Access.atomic = none ∧
    ((b1.readOutcome 0 (b1.gv 0 4).toNat Ecc.clean Consumer.load 0).2 || b1.mem.poisoned (cellKey 0 (b1.gv 0 4).toNat - cellKey 0 (b1.gv 0 4).toNat % 8)) = true) ∧
    (Fetches b1 b1 0 Ecc.clean ∧ b1.gp 0 1 = false ∧ b1.gp 0 1 = false ∧ b1.accessFault 0 (BitVec.toNat (b1.gv 0 1)) 8 Access.atomic = none ∧
    ((b1.readOutcome 0 (BitVec.toNat (b1.gv 0 1)) Ecc.clean Consumer.load 0).snd || (b1.settleHalf (BitVec.toNat (b1.gv 0 1))).mem.poisoned (cellKey 0 (BitVec.toNat (b1.gv 0 1)) - cellKey 0 (BitVec.toNat (b1.gv 0 1)) % 8)) = false) ∧
    (Fetches b1 b1 0 Ecc.clean ∧ b1.gp 0 4 = false ∧ b1.gp 0 12 = false ∧ b1.accessFault 0 (b1.gv 0 4).toNat 8 Access.atomic = none ∧
    b1.gp 0 15 = false ∧
    ((b1.readOutcome 0 (b1.gv 0 4).toNat Ecc.clean Consumer.load 0).2 || b1.mem.poisoned (cellKey 0 (b1.gv 0 4).toNat - cellKey 0 (b1.gv 0 4).toNat % 8)) = true) ∧
    (Fetches b1 b1 0 Ecc.clean ∧ b1.gp 0 1 = false ∧ b1.gp 0 1 = false ∧ b1.accessFault 0 (BitVec.toNat (b1.gv 0 1)) 8 Access.atomic = none ∧
    b1.gp 0 1 = false ∧
    ((b1.readOutcome 0 (BitVec.toNat (b1.gv 0 1)) Ecc.clean Consumer.load 0).snd || (b1.settleHalf (BitVec.toNat (b1.gv 0 1))).mem.poisoned (cellKey 0 (BitVec.toNat (b1.gv 0 1)) - cellKey 0 (BitVec.toNat (b1.gv 0 1)) % 8)) = false ∧
    BitVec.ofNat 64 ((b1.settleHalf (BitVec.toNat (b1.gv 0 1))).mem.read (cellKey 0 (BitVec.toNat (b1.gv 0 1))) 8) ≠ b1.gv 0 1) ∧
    (Fetches b1 b1 0 Ecc.clean ∧ b1.gp 0 1 = false ∧ b1.gp 0 1 = false ∧ b1.accessFault 0 (BitVec.toNat (b1.gv 0 1)) 8 Access.atomic = none ∧
    b1.gp 0 15 = false ∧
    ((b1.readOutcome 0 (BitVec.toNat (b1.gv 0 1)) Ecc.clean Consumer.load 0).snd || (b1.settleHalf (BitVec.toNat (b1.gv 0 1))).mem.poisoned (cellKey 0 (BitVec.toNat (b1.gv 0 1)) - cellKey 0 (BitVec.toNat (b1.gv 0 1)) % 8)) = false ∧
    BitVec.ofNat 64 ((b1.settleHalf (BitVec.toNat (b1.gv 0 1))).mem.read (cellKey 0 (BitVec.toNat (b1.gv 0 1))) 8) = b1.gv 0 15) :=
  ⟨⟨fetched (by decide +kernel), by decide +kernel⟩,
  ⟨fetched (by decide +kernel), by decide +kernel⟩,
  ⟨fetched (by decide +kernel), by decide +kernel⟩,
  ⟨fetched (by decide +kernel), by decide +kernel⟩,
  ⟨fetched (by decide +kernel), by decide +kernel⟩⟩

/-! ### AccessesAreCheckedAndTrap -/

theorem witness_accessesFaultAsTheMapSays :
    (0 < 65536) ∧ (131072 ≤ 131072 ∧ 131072 < 262144) ∧ (0 < 6 ∧ 0 < 4194304 ∧ 4294967296 = 4294967296 + 0 * 16777216 + 0) ∧ (1 < 32768 ∧ 0 < 4096 ∧
    8589938688 = 8589934592 + 1 * 4096 + 0) ∧ (17179869184 ≤ 17179869184 ∧ 17179869184 < 17185832960) ∧ (21474836480 ≤ 21474836480 ∧
    21474836480 < 21476933632 ∧ Access.store ≠ Access.load) ∧ (68719476736 + b1.dramMiB * 1048576 ≤ 103079215104 ∧ 103079215104 < 137438953472 ∧
    68719476736 ≤ 103079215104) ∧ (65536 ≤ 65536 ∧ 65536 < 131072) :=
  by decide +kernel
theorem witness_refusedAccessesTrap :
    (Fetches b1 b1 0 Ecc.clean ∧ Plain b1 0 ∧ b1.gp 0 3 = true) ∧
    (Fetches b1 b1 0 Ecc.clean ∧ Plain b1 0 ∧
    ∃ c ∈ Option.map (fun q => q.fst) (b1.accessFault 0 (BitVec.toNat (b1.gv 0 1 + BitVec.signExtend 64 32776#16)) (Instr.lb, 1, true).snd.fst Access.load), ∃ d ∈ Option.map (fun q => q.snd) (b1.accessFault 0 (BitVec.toNat (b1.gv 0 1 + BitVec.signExtend 64 32776#16)) (Instr.lb, 1, true).snd.fst Access.load), b1.gp 0 1 = false ∧
    b1.accessFault 0 (BitVec.toNat (b1.gv 0 1 + BitVec.signExtend 64 32776#16)) (Instr.lb, 1, true).snd.fst Access.load = some (c, d)) ∧
    (Fetches b1 b1 0 Ecc.clean ∧ Plain b1 0 ∧
    ∃ c ∈ Option.map (fun q => q.fst) (b1.accessFault 0 (BitVec.toNat (b1.gv 0 1 + BitVec.signExtend 64 32776#16)) (Instr.sb, 1).snd Access.store), ∃ d ∈ Option.map (fun q => q.snd) (b1.accessFault 0 (BitVec.toNat (b1.gv 0 1 + BitVec.signExtend 64 32776#16)) (Instr.sb, 1).snd Access.store), b1.gp 0 1 = false ∧
    Claims.inMemory (BitVec.toNat (b1.gv 0 1 + BitVec.signExtend 64 32776#16)) ∧
    b1.accessFault 0 (BitVec.toNat (b1.gv 0 1 + BitVec.signExtend 64 32776#16)) (Instr.sb, 1).snd Access.store = some (c, d)) :=
  ⟨⟨fetched (by decide +kernel), by simp only [Plain]; decide +kernel⟩,
  ⟨fetched (by decide +kernel), by simp only [Plain]; decide +kernel⟩,
  ⟨fetched (by decide +kernel), by simp only [Plain, inMemory_iff]; decide +kernel⟩⟩

/-! ### ControlRegistersReadAndWrite -/

theorem witness_controlRegistersReadAndWrite :
    (Fetches b1 b1 0 Ecc.clean ∧ b1.crValue 0 0 = some 0#64) ∧
    (Fetches b1 b1 0 Ecc.clean ∧ 12 ≤ 12 ∧ Plain b1 0) ∧
    (Fetches b1 b1 0 Ecc.clean ∧ (5, BitVec.allOnes 64) ∈ Claims.crMask ∧ b1.gp 0 1 = false ∧ (b1.crValue 0 5).isSome = true) ∧
    (Fetches b1 b1 0 Ecc.clean ∧ b1.gp 0 3 = true ∧ Plain b1 0 ∧ crWritable 1 = true) :=
  ⟨⟨fetched (by decide +kernel), by decide +kernel⟩,
  ⟨fetched (by decide +kernel), by simp only [Plain]; decide +kernel⟩,
  ⟨fetched (by decide +kernel), by simp [Claims.crMask], by decide +kernel, by decide +kernel⟩,
  ⟨fetched (by decide +kernel), by simp only [Plain]; decide +kernel⟩⟩

/-! ### SystemInstructionsAndWatchdog -/

theorem witness_leaveReturnsFromTheTrap :
    Fetches b6 b6 0 Ecc.clean ∧ (b6.core 0).inTrap = true ∧ (b6.core 0).wdPend = false :=
  ⟨fetched (by decide +kernel), by decide +kernel⟩
theorem witness_leaveTakesThePendingWatchdog :
    Fetches b7 b7 0 Ecc.clean ∧ (b7.core 0).inTrap = true ∧ (b7.core 0).wdPend = true ∧ (b7.core 0).tx.isOpen = false :=
  ⟨fetched (by decide +kernel), by decide +kernel⟩
theorem witness_serviceBreakAndFence :
    (Fetches b1 b1 0 Ecc.clean ∧ Plain b1 0) ∧
    (Fetches b1 b1 0 Ecc.clean) :=
  ⟨⟨fetched (by decide +kernel), by simp only [Plain]; decide +kernel⟩,
  fetched (by decide +kernel)⟩
theorem witness_watchdogExpiryTrapsOrBecomesPending :
    ((b8.core 0).status = CoreStatus.running ∧ bit (b8.core 0).cr.wdog 32 = true ∧ bits (b8.core 0).cr.wdog 0 32 ≠ 0 ∧ Plain b8 0) ∧
    ((b9.core 0).status = CoreStatus.running ∧ bit (b9.core 0).cr.wdog 32 = true ∧ bits (b9.core 0).cr.wdog 0 32 ≠ 0 ∧ (b9.core 0).inTrap = true ∧
    (b9.core 0).wdPend = false) ∧ ((b1.core 0).status = CoreStatus.running ∧ (bit (b1.core 0).cr.wdog 32 = false ∨ bits (b1.core 0).cr.wdog 0 32 = 0)) :=
  by simp only [Plain]; decide +kernel

/-! ### CoresReceiveMessages -/

theorem witness_pollsReportTheMailboxes :
    Fetches b1 b1 0 Ecc.clean :=
  fetched (by decide +kernel)
theorem witness_receivesTakeTheHeadMessage :
    (Fetches b2 b2 0 Ecc.clean ∧ b2.gp 0 19 = false ∧ (b2.core 0).tx.isOpen = false ∧ bufferFault 0 (b2.gv 0 19).toNat = none ∧
    (∃ m ∈ (b2.box (b2.core 0).role 3).head?, m.chkOk = true ∧ m.seqOk = true) ∧ (b2.box (b2.core 0).role 3).length = 2) ∧
    (Fetches b1 b1 0 Ecc.clean ∧ b1.gp 0 19 = false ∧ (b1.core 0).tx.isOpen = false ∧ bufferFault 0 (BitVec.toNat (b1.gv 0 19)) = none ∧
    b1.box (b1.core 0).role 1 = []) :=
  ⟨⟨fetched (by decide +kernel), by decide +kernel⟩,
  ⟨fetched (by decide +kernel), by decide +kernel⟩⟩

/-! ### TransactionsCommitAbortAndResume -/

theorem witness_abortsEndTheTransaction :
    (Fetches b5 b5 0 Ecc.clean ∧ b5.gp 0 1 = false ∧ (b5.core 0).inTrap = false ∧ (b5.core 0).tx.isOpen = true ∧ (b5.core 0).tx.taken = [] ∧
    (b5.core 0).tx.effects = []) ∧
    ((b5.core 0).status = .running ∧ (b5.core 0).inTrap = false ∧ (b5.core 0).tx.isOpen = true ∧ (b5.core 0).tx.taken = [] ∧
    (b5.core 0).tx.effects = []) :=
  ⟨⟨fetched (by decide +kernel), by decide +kernel⟩,
  by decide +kernel⟩
theorem witness_commitSendsEverythingHeld :
    Fetches b5 b5 0 Ecc.clean ∧ (b5.core 0).tx.isOpen = true ∧ (b5.core 0).tx.effects = [] ∧ (b5.core 0).tx.stores = [] ∧
    (b5.core 0).tx.sends.length = 1 :=
  ⟨fetched (by decide +kernel), by decide +kernel⟩
theorem witness_resumeLoadsTheCheckpoint :
    (Fetches bCk bCk 0 Ecc.clean ∧ (bCk.core 0).tx.isOpen = false ∧ bCk.ckSlot (bCk.core 0).role = some 0) ∧
    (Fetches b1 b1 0 Ecc.clean ∧ (b1.core 0).tx.isOpen = false ∧ b1.ckSlot (b1.core 0).role = none) :=
  ⟨⟨fetched (by decide +kernel), by decide +kernel, by set_option maxRecDepth 1000000 in decide +kernel⟩,
  ⟨fetched (by decide +kernel), by decide +kernel⟩⟩
theorem witness_transactionsOpenAndReport :
    (Fetches b1 b1 0 Ecc.clean ∧ (b1.core 0).tx.isOpen = false) ∧
    (Fetches b1 b1 0 Ecc.clean) :=
  ⟨⟨fetched (by decide +kernel), by decide +kernel⟩,
  fetched (by decide +kernel)⟩

/-! ### CoresSendMessages -/

theorem witness_badSendsTakeTheChainFault :
    Fetches b25 b25 0 Ecc.clean ∧ Plain b25 0 ∧ b25.gp 0 19 = false ∧ b25.gp 0 14 = false ∧ b25.gp 0 22 = false ∧ b25.gp 0 17 = false ∧
    bufferFault 0 (b25.gv 0 19).toNat = none ∧ b25.mem.firstPoison (cellKey 0 (b25.gv 0 19).toNat) 8 = none ∧
    b25.epAbsent (bits (b25.gv 0 22) 0 7) = true ∧ (b25.epAbsent (bits (b25.gv 0 17) 0 7) = false ∧
    (bits (b25.gv 0 17) 7 9 ≠ 0 ∨ bits (b25.gv 0 17) 28 36 ≠ 0)) ∧ (b25.epAbsent (bits (b25.gv 0 14) 0 7) = false ∧ bits (b25.gv 0 14) 7 9 = 0 ∧
    bits (b25.gv 0 14) 28 36 = 0) :=
  ⟨fetched (by decide +kernel), by simp only [Plain]; decide +kernel⟩
theorem witness_heldBackSendTimesOut :
    ((b15.core 0).status = CoreStatus.waiting (Wait.send (nat_lit 1) (nat_lit 9) (nat_lit 2)) ∧ b15.fld fFCT_SENDLIM_LIMIT = 0) ∧
    ((b11.core 0).status = CoreStatus.waiting (Wait.send (nat_lit 1) (nat_lit 9) (nat_lit 2)) ∧ b11.fld fFCT_SENDLIM_LIMIT ≠ 0 ∧ Plain b11 0) :=
  by simp only [Plain]; decide +kernel
theorem witness_sendsPlaceTheirMessage :
    (Fetches b25 b25 0 Ecc.clean ∧ b25.gp 0 19 = false ∧ b25.gp 0 14 = false ∧ (b25.core 0).tx.isOpen = false ∧
    bufferFault 0 (b25.gv 0 19).toNat = none ∧ b25.mem.firstPoison (cellKey 0 (b25.gv 0 19).toNat) 8 = none ∧ b25.sendCause (b25.gv 0 14) 1 = none ∧
    b25.wouldWait (bits (b25.gv 0 14) 0 7) 1 = false) ∧
    (Fetches b26 b26 0 Ecc.clean ∧ b26.gp 0 19 = false ∧ b26.gp 0 14 = false ∧ (b26.core 0).tx.isOpen = false ∧
    bufferFault 0 (b26.gv 0 19).toNat = none ∧ b26.mem.firstPoison (cellKey 0 (b26.gv 0 19).toNat) 8 = none ∧ b26.sendCause (b26.gv 0 14) 1 = none ∧
    b26.wouldWait (bits (b26.gv 0 14) 0 7) 1 = true) :=
  ⟨⟨fetched (by decide +kernel), by decide +kernel⟩,
  ⟨fetched (by decide +kernel), by decide +kernel⟩⟩

/-! ### ChecksumsProductsAndHashes -/

theorem witness_checksumsAndFieldProducts :
    (Fetches b1 b1 0 Ecc.clean ∧ b1.gp 0 1 = false ∧ b1.gp 0 2 = false) ∧
    (Fetches b1 b1 0 Ecc.clean ∧ b1.gp 0 0 = false ∧ b1.gp 0 0 = false) ∧
    (Fetches b1 b1 0 Ecc.clean ∧ b1.gp 0 1 = false ∧ b1.gp 0 9 = false ∧ bits (b1.gv 0 9) 2 62 = 0) ∧
    (Fetches b1 b1 0 Ecc.clean ∧ b1.gp 0 1 = false ∧ b1.gp 0 2 = false ∧ bits (b1.gv 0 2) 2 62 ≠ 0 ∧ Plain b1 0) :=
  ⟨⟨fetched (by decide +kernel), by decide +kernel⟩,
  ⟨fetched (by decide +kernel), by decide +kernel⟩,
  ⟨fetched (by decide +kernel), by decide +kernel⟩,
  ⟨fetched (by decide +kernel), by simp only [Plain]; decide +kernel⟩⟩
theorem witness_checksumsOverMemory :
    (Fetches b1 b1 0 Ecc.clean ∧ b1.gp 0 1 = false ∧ b1.gp 0 1 = false ∧ 131072 ≤ BitVec.toNat (b1.gv 0 1) ∧ BitVec.toNat (b1.gv 0 1) + 64 ≤ 262144 ∧
    BitVec.toNat (b1.gv 0 1) % 64 = 0) ∧
    (Fetches b1 b1 0 Ecc.clean ∧ b1.gp 0 1 = false ∧ b1.gp 0 12 = false ∧ BitVec.toNat (b1.gv 0 12) < 32768 ∧
    b1.granted (BitVec.toNat (b1.gv 0 12)) (b1.mailEp 0) = true) :=
  ⟨⟨fetched (by decide +kernel), by decide +kernel⟩,
  ⟨fetched (by decide +kernel), by decide +kernel⟩⟩
theorem witness_checksumsProductsAndHashes :
    (Fetches b1 b1 0 Ecc.clean ∧ b1.gp 0 0 = false ∧ b1.gp 0 0 = false) ∧
    (Fetches b1 b1 0 Ecc.clean ∧ b1.gp 0 0 = false ∧ b1.gp 0 0 = false ∧ bits (b1.gv 0 0) 2 62 = 0) ∧
    (Fetches b1 b1 0 Ecc.clean ∧ b1.gp 0 0 = false ∧ b1.gp 0 1 = false ∧ bits (b1.gv 0 1) 2 62 ≠ 0 ∧ Plain b1 0) ∧
    (Fetches b1 b1 0 Ecc.clean ∧ b1.gp 0 0 = false ∧ b1.gp 0 1 = false ∧ 131072 ≤ BitVec.toNat (b1.gv 0 1) ∧ BitVec.toNat (b1.gv 0 1) + 64 ≤ 262144 ∧
    BitVec.toNat (b1.gv 0 1) % 64 = 0) ∧
    (Fetches b1 b1 0 Ecc.clean ∧ b1.gp 0 0 = false ∧ b1.gp 0 9 = false ∧ BitVec.toNat (b1.gv 0 9) < 32768 ∧
    b1.granted (BitVec.toNat (b1.gv 0 9)) (b1.mailEp 0) = true) :=
  ⟨⟨fetched (by decide +kernel), by decide +kernel⟩,
  ⟨fetched (by decide +kernel), by decide +kernel⟩,
  ⟨fetched (by decide +kernel), by simp only [Plain]; decide +kernel⟩,
  ⟨fetched (by decide +kernel), by decide +kernel⟩,
  ⟨fetched (by decide +kernel), by decide +kernel⟩⟩

/-! ### BeadAssists -/

theorem witness_allocationGrantsOrRefuses :
    (Fetches b17 b17 0 Ecc.clean ∧ b17.gp 0 12 = false ∧ (b17.core 0).tx.isOpen = false ∧ bits (b17.gv 0 12) 4 60 = 0 ∧
    b17.decideBeads (BitVec.toNat (b17.gv 0 12) % 16) 1 = Decision.grant ∧ ∃ b ∈ b17.nextBead, True) ∧
    (Fetches b19 b19 0 Ecc.clean ∧ b19.gp 0 12 = false ∧ (b19.core 0).tx.isOpen = false ∧ bits (b19.gv 0 12) 4 60 = 0 ∧
    b19.decideBeads (BitVec.toNat (b19.gv 0 12) % 16) 1 = Decision.quota) ∧
    (Fetches b12 b12 0 Ecc.clean ∧ b12.gp 0 12 = false ∧ (b12.core 0).tx.isOpen = false ∧ bits (b12.gv 0 12) 4 60 = 0 ∧
    b12.decideBeads (BitVec.toNat (b12.gv 0 12) % 16) 1 = Decision.noBead) :=
  ⟨⟨fetched (by decide +kernel), by decide +kernel⟩,
  ⟨fetched (by decide +kernel), by decide +kernel⟩,
  ⟨fetched (by decide +kernel), by decide +kernel⟩⟩
theorem witness_releaseAndTransferOfBeads :
    (Fetches b18 b18 0 Ecc.clean ∧ b18.gp 0 12 = false ∧ b18.gp 0 12 = false ∧ (b18.core 0).tx.isOpen = false ∧ bits (b18.gv 0 12) 15 49 = 0 ∧
    bits (b18.gv 0 12) 7 57 = 0 ∧ b18.granted (BitVec.toNat (b18.gv 0 12) % 32768) (b18.mailEp 0) = true ∧
    (b18.bead (BitVec.toNat (b18.gv 0 12) % 32768)).ue < 2 ∧ b18.pool.waiting = []) ∧
    (Fetches b18 b18 0 Ecc.clean ∧ b18.gp 0 12 = false ∧ b18.gp 0 12 = false ∧ (b18.core 0).tx.isOpen = false ∧ bits (b18.gv 0 12) 15 49 = 0 ∧
    bits (b18.gv 0 12) 7 57 = 0 ∧ b18.granted (BitVec.toNat (b18.gv 0 12) % 32768) (b18.mailEp 0) = true ∧
    takesBeads (BitVec.toNat (b18.gv 0 12) % 128) = true) ∧
    (Fetches b1 b1 0 Ecc.clean ∧ b1.gp 0 12 = false ∧ b1.gp 0 22 = false ∧ (b1.core 0).tx.isOpen = false ∧ bits (b1.gv 0 12) 15 49 = 0 ∧
    bits (b1.gv 0 22) 7 57 = 0 ∧ b1.granted ((b1.gv 0 12).toNat % 32768) (b1.mailEp 0) = true ∧ takesBeads ((b1.gv 0 22).toNat % 128) = false) ∧
    (Fetches b12 b12 0 Ecc.clean ∧ b12.gp 0 12 = false ∧ b12.gp 0 12 = false ∧ (b12.core 0).tx.isOpen = false ∧ bits (b12.gv 0 12) 15 49 = 0 ∧
    bits (b12.gv 0 12) 7 57 = 0 ∧ b12.granted (BitVec.toNat (b12.gv 0 12) % 32768) (b12.mailEp 0) = false ∧ Plain b12 0) :=
  ⟨⟨fetched (by decide +kernel), by decide +kernel⟩,
  ⟨fetched (by decide +kernel), by decide +kernel⟩,
  ⟨fetched (by decide +kernel), by decide +kernel⟩,
  ⟨fetched (by decide +kernel), by simp only [Plain]; decide +kernel⟩⟩

/-! ### MapLookupHitsOrMisses -/

theorem witness_mapLookupHitsOrMisses :
    (Fetches b21 b21 0 Ecc.clean ∧ b21.gp 0 1 = false ∧ b21.gp 0 20 = false ∧ bits (b21.gv 0 1) 32 32 = 0 ∧ b21.gv 0 20 = 0#64 ∧
    b21.flag fMAP_CTL_EN = false) ∧
    (Fetches mapHit mapHit 0 Ecc.clean ∧ mapHit.gp 0 12 = false ∧ mapHit.gp 0 20 = false ∧ bits (mapHit.gv 0 12) 32 32 = 0 ∧ mapHit.gv 0 20 = 0#64 ∧
    mapHit.flag fMAP_CTL_EN = true ∧ Claims.setReads mapHit (BitVec.toNat (mapHit.gv 0 12) % 2 ^ 32) ∧
    ∃ x ∈ mapHit.findPage (BitVec.toNat (mapHit.gv 0 12) % 2 ^ 32), (mapHit.frame x).busy = false) ∧
    (Fetches b22 b22 0 Ecc.clean ∧ b22.gp 0 1 = false ∧ b22.gp 0 20 = false ∧ bits (b22.gv 0 1) 32 32 = 0 ∧ b22.gv 0 20 = 0#64 ∧
    b22.flag fMAP_CTL_EN = true ∧ Claims.setReads b22 (BitVec.toNat (b22.gv 0 1) % 2 ^ 32) ∧
    b22.findPage (BitVec.toNat (b22.gv 0 1) % 2 ^ 32) = none ∧ ∃ w, w < 8 ∧
    (b22.frame (b22.mapSet (BitVec.toNat (b22.gv 0 1) % 2 ^ 32) * 8 + w)).valid = false) :=
  ⟨⟨fetched (by decide +kernel), by decide +kernel⟩,
  ⟨fetched (by decide +kernel), by simp only [Claims.setReads]; decide +kernel⟩,
  ⟨fetched (by decide +kernel), by simp only [Claims.setReads]; decide +kernel⟩⟩

/-! ### ControlSpaceWrites -/

theorem witness_facetTableWrites :
    (b1.badDepths 0 4919131752989213764#64 = false) ∧ (b1.badDepths 0 0#64 = true) :=
  by decide +kernel
theorem witness_fieldWrites :
    (fRO.lo + fRO.width ≤ 64) ∧ (fRO.lo + fRO.width ≤ 64 ∧ fRO.lo + fRO.width ≤ 5) :=
  by decide +kernel
theorem witness_registerWrites :
    ((4194304 ≤ 4194304 ∧ 4194304 < 4718592 ∨ 5308416 ≤ 4194304 ∧ 4194304 < 5373952 ∨ 5505024 ≤ 4194304 ∧ 4194304 < 5570560) ∧
    b1.ctlStoreFault 0 4194304 0#64 = none ∧ ∃ r ∈ regRow 4194304, True) ∧ ((4194304 ≤ 5308456 ∧ 5308456 < 4718592 ∨ 5308416 ≤ 5308456 ∧
    5308456 < 5373952 ∨ 5505024 ≤ 5308456 ∧ 5308456 < 5570560) ∧ (b1.ctlStoreFault 0 5308456 0#64).isSome = true) :=
  by decide +kernel

/-! ### ChainDeliversInOrder -/

theorem witness_chainDeliversInOrder :
    (∃ x ∈ k7.takeNet 1 0, (∀ i, i < 8 → k7.flag (fFLT_INJA_ARM i) = false) ∧ k7.flt.delayed = [] ∧ k7.flt.reordered = [] ∧
    k7.boxFull (k7.mailEp 0) x.1.mbx = false) ∧ (∃ x ∈ k8.takeNet 3 9, (∀ i, i < 8 → k8.flag (fFLT_INJA_ARM i) = false) ∧ k8.flt.delayed = [] ∧
    k8.flt.reordered = [] ∧ k8.boxFull (k8.mailEp 9) x.1.mbx = true) :=
  by decide +kernel

/-! ### ClaspsOpenCloseAndBreak -/

theorem witness_claspBreaks :
    k1.claspFused 0 = false ∧ (k1.claspState 0 = 2 ∨ k1.claspState 0 = 1) :=
  by decide +kernel
theorem witness_claspCommands :
    (k4.claspFused 2 = false ∧ sHas k4.clasps.inReset 2 = false ∧ (k4.claspState 2 = 0 ∨ k4.claspState 2 = 3)) ∧ (k1.claspFused 2 = false ∧
    k1.claspState 2 = 2) :=
  by decide +kernel
theorem witness_claspHandshake :
    (kOff.claspFused 2 = false ∧ sHas kOff.pwr.off 2 = false ∧ kOff.flag (fCLP_CTL_AUTO 2) = true ∧ (kOff.claspState 2 = 0 ∨ kOff.claspState 2 = 3)) ∧
    (k2.claspFused 2 = false ∧ k2.claspState 2 = 1) ∧ (k2.claspFused 75 = false ∧ k2.claspState 75 = 1) :=
  by decide +kernel
theorem witness_eventLanes :
    (k1.claspFused 3 = false ∧ controlClasp 3 = true ∧ k1.claspState 3 = 2) ∧ (k3.claspFused 3 = false ∧ controlClasp 3 = true ∧
    k3.claspState 3 ≠ 2) ∧ (k1.claspFused 0 = false ∧ controlClasp 0 = false) :=
  by decide +kernel

/-! ### MapCommandsMoveTheirEntry -/

theorem witness_mapCommandsMoveTheirEntry :
    (∃ r ∈ Claims.mapTable, ∃ x ∈ mapHit.findPage 1, r.2.2.1 (mapHit.frame x) = true) ∧
    (∃ r ∈ Claims.mapFills, ∃ x ∈ mapBusy.findPage 1, r.2.2.1 (mapBusy.frame x) = true) ∧ (b21.findPage 1 = none) ∧ (b21.findPage 1 = none ∧
    ∃ w, w < 8 ∧ (b21.frame (b21.mapSet 1 * 8 + w)).valid = false) :=
  by simp only [Claims.mapFills, Claims.mapTable]; decide +kernel

/-! ### BeadPoolServesRetiresAndCopies -/

theorem witness_beadCopies :
    (1#15 ≠ 3#15 ∧ cp.granted 1 (cp.mailEp 0) = true ∧ cp.granted 3 (cp.mailEp 0) = true) ∧ (2#15 ≠ 1#15 ∧ cp.granted 2 (cp.mailEp 0) = false) :=
  by decide +kernel
theorem witness_poolCommands :
    (b12.flag fBPM_CTL_EN = false ∧ b12.part.freeList = false ∧ b12.pool.waiting = []) ∧ (fl0.flag fBPM_CTL_EN = false ∧ fl0.part.freeList = true) ∧
    (fl2.part.freeList = true ∧ fl2.flag fBPM_CTL_EN = true ∧ fl2.poolReady = false) ∧ ((b12.bead 1).st = BeadSt.free ∧ b12.retiredBeads < 64) :=
  by decide +kernel

/-! ### MemoryCodesAndScrubber -/

theorem witness_deviceMarks :
    b1.flag fMEC_DMARK_MARK0 = false ∧ b1.flag fMEC_DMARK_MARK1 = false :=
  by decide +kernel
theorem witness_failures :
    (evOn.core 0).status = CoreStatus.running ∧ bit (evOn.reg rFCT_SPARE) (8 * (0 / 9) + 7) = true ∧ bits (evOn.reg rFCT_SPARE) (8 * (0 / 9)) 6 ≠ 0 ∧
    (evOn.core 0).tx.isOpen = false :=
  by decide +kernel
theorem witness_injectors :
    (gate1.flag fFLT_STAT_GATE = true ∧ gate1.injArmed 0 = false ∧ gate1.injValid 1 0 (gate1.fld (fFLT_INJC_PARAM 0)) = true) ∧
    (gate2.injArmed 0 = true ∧ gate2.fld (fFLT_INJA_KIND 0) = 0x20 ∧ gate2.fld (fFLT_INJA_TGT 0) = 0 ∧ gate2.injDue 0 = true) :=
  by decide +kernel
theorem witness_retrainCloses :
    k3.claspState (2 + 2 * ((1 : Fin 2) : Nat)) = 3 ∧ k3.claspState (3 + 2 * ((1 : Fin 2) : Nat)) = 3 :=
  by decide +kernel
theorem witness_scrubReports :
    (Claims.Recording sc1 1 ∧ sc1.mec.secondDram + sc1.mec.secondSram ≠ 0) ∧ (Claims.Recording sc2 2 ∧ sc2.mec.dramWarned = false ∧
    sc2.fld fMEC_SCRUB_LAPWARN * 3600000 < sc2.now / 1000000 - sc2.mec.dramLapAt) ∧ (sc3.mec.dramWarned = true) :=
  by simp only [Claims.Recording]; decide +kernel
theorem witness_scrubs :
    sc4.scrubs (ScrubPlace.sram 2#4 0#6 0#40) = true ∧ (2#4 = 2#4 ∨ 2#4 = 3#4 ∨ 2#4 = 4#4 ∨ 2#4 = 5#4) :=
  by decide +kernel

/-! ### TheRecorderKeepsWhatItIsTold -/

theorem witness_recordMessages :
    badRecord 0 464 65827#512 = false ∧ pGet 65827#512 0 2 ≠ 65535 ∧ bit (BitVec.ofNat 64 (pGet 65827#512 2 1)) 6 = false ∧
    tget evOn.evr.firsts 0 = none ∧ Claims.Recording evOn (pGet 65827#512 2 1 % 8) :=
  by simp only [Claims.Recording]; decide +kernel
theorem witness_recorderEvents :
    ((tget (heldFirst 1).evr.firsts 1).isSome = true) ∧ (b2.flag fEVR_CTL_EN = false ∧ b2.fld fEVR_CTL_MINSEV ≤ 4) :=
  by decide +kernel
theorem witness_summariesAndAlert :
    (Claims.Recording evOn 1) ∧ ((evOn.setFld fEVR_STAT_ALERT 1).flag fEVR_STAT_ALERT = true) ∧ (evOn.flag fEVR_STAT_ALERT = false) :=
  by simp only [Claims.Recording]; decide +kernel

/-! ### ResetsAndStarts -/

theorem witness_resets :
    (z1.pwr.vaon = false) ∧ (z0.pwr.vaon = true) ∧ (rom.pwr.vaon = true ∧ rom.pwr.perstLow = false ∧ rom.pwr.porDone = true) :=
  by decide +kernel
theorem witness_starts :
    (z2.pwr.vaon = true ∧ z2.pwr.porDone = false ∧ z2.pwr.perstLow = true) ∧ (z3.pwr.vaon = true ∧ z3.pwr.porDone = false ∧ z3.pwr.perstLow = false) ∧
    (z0.pwr.vaon = true ∧ z0.pwr.perstLow = true ∧ z0.pwr.porDone = true) ∧ (rom.pwr.vaon = true ∧ rom.pwr.porDone = true ∧ rom.pwr.perstLow = false ∧
    rom.fld fPWR_STAT_STATE = 0) ∧ (rom.fld fARC_MODE_CUR = 0) ∧ (z0.boot.dir.next ≠ 0 ∧ (z0.startPackage rg z0.boot.dir.next).isSome = true ∧
    rg.recovLow = false ∧ rg.crystal = true ∧ rg.signetTest = 0#8 ∧ rg.recordOk = true ∧ rg.failedCores = [] ∧ rg.seqFailed = []) ∧
    (rec1.recovLow = true ∨ rec1.crystal = false) :=
  by decide +kernel

/-! ### RomRecoveryTakesAPackage -/

theorem witness_romRecoveryTakesAPackage :
    (rom.fld fARC_MODE_CUR = 0 ∧ rom.boot.romState ≠ 3 ∧ 0 < 4096 ∧ 4096 ≤ 2 ^ 24) ∧ (rom.fld fARC_MODE_CUR = 0 ∧ rom.boot.romState ≠ 3) ∧
    (rom1.fld fARC_MODE_CUR = 0 ∧ rom1.boot.romState = 1 ∧ 0 + 0 ≤ rom1.boot.romLen ∧ 0 ≤ 32768 ∧
    ∀ (q : Nat × Nat), q ∈ rom1.boot.romPieces → 0 + 0 ≤ q.fst ∨ q.fst + q.snd ≤ 0) ∧ (rom2.fld fARC_MODE_CUR = 0 ∧ rom2.boot.romState = 1 ∧
    sumOf (fun q => q.snd) rom2.boot.romPieces = rom2.boot.romLen ∧ goldenPackage.signed = true ∧ rom2.ownerGood false goldenPackage = true ∧
    goldenPackage.fits = true ∧ rom2.aboveFloors goldenPackage = true) ∧ (rom.fld fARC_MODE_CUR = 0) ∧
    (∃ p ∈ rom3.boot.romPackage, rom3.fld fARC_MODE_CUR = 0 ∧ rom3.boot.romState = 3 ∧ rom3.boot.romTarget = 2 ∧
    goodCopies rom3.part.channels (List.map (fun i => { die := BitVec.ofNat 16 (16 * i), first := 1#16, second := 2#16 }) (List.range 8)) = true) :=
  by decide +kernel

/-! ### RegulatorFollowsRequests -/

theorem witness_regulator :
    (n1.pwr.crystal = true) ∧ (n1.fld fARC_PACE_VALID = 1 ∧ goodMv 720 = true) ∧ (z4.fld fARC_PACE_VALID = 0) ∧ (goodMv (bits 720#64 0 10) = true) ∧
    (goodMv (bits 0#64 0 10) = false) ∧ (n1b.fld fPWR_AVS_BUSY = 1) :=
  by decide +kernel
theorem witness_sleepEntry :
    (n2.pwr.entry = 0 ∧ (n2.fld fARC_MODE_CUR = if false = true then 9 else 8) ∧ n2.fld fPWR_STAT_STATE = 0 ∧ n2.lkt.program = none) ∧
    (n4.pwr.entry = 0 ∧ (n4.fld fARC_MODE_CUR = if false = true then 9 else 8) ∧ n4.fld fPWR_STAT_STATE = 0 ∧ n4.lkt.program ≠ none) ∧
    (n2.pwr.entry = 0 ∧ n2.fld fARC_MODE_CUR ≠ if true = true then 9 else 8) ∧ (n5.pwr.entry ≠ 0) :=
  by decide +kernel
theorem witness_wakeEvents :
    (sl3.fld fPWR_STAT_STATE = 2 ∧ sl3.flag fPWR_WAKE_MBEN = true) ∧ (sl3.fld fPWR_STAT_STATE = 2 ∧ sl3.flag fPWR_WAKE_PCIEN = true) ∧
    (sl3.fld fPWR_STAT_STATE = 2 ∧ sl3.flag fPWR_WAKE_ALMEN = true) ∧ (sl3b.fld fPWR_STAT_STATE = 2 ∧ sl3b.flag fPWR_WAKE_PCIEN = false) :=
  by decide +kernel
theorem witness_wakeSteps :
    (w1.fld fPWR_STAT_STATE = 3 ∧ w1.pwr.wakeStep = 2 ∧ w1.fld fPWR_AVS_BUSY = 1) ∧ (w2.fld fPWR_STAT_STATE = 3 ∧ w2.pwr.wakeStep = 3 ∧
    w2.pwr.deep = false ∧ w2.fld fARC_MODE_CUR = 8 ∧ isHealth (w2.fld fARC_MODE_HEALTH) = true) ∧ (w2d.fld fPWR_STAT_STATE = 3 ∧
    w2d.pwr.wakeStep = 3 ∧ w2d.pwr.deep = true) ∧ (w1.fld fPWR_STAT_STATE = 3 ∧ 1 ≤ w1.pwr.wakeTry ∧ w1.pwr.wakeTry < 4 ∧ w1.pwr.porDone = true) ∧
    (w4.fld fPWR_STAT_STATE = 3 ∧ w4.pwr.wakeTry = 4 ∧ w4.pwr.wakeStep = 2 ∧ w4.pwr.porDone = true) ∧ (w1.fld fPWR_STAT_STATE = 3) :=
  by decide +kernel

/-! ### PadsTimeTemperatureAndModes -/

theorem witness_modes :
    z0.fld fARC_MODE_CUR = 1 ∧ isHealth 2 = true :=
  by decide +kernel

/-! ### LocketReadsUnlocksAndWrites -/

theorem witness_locketEnds :
    (∃ o ∈ E1.lkt.program, E1.lkt.waiting = [] ∧ (E1.lkWord o.cw).begun = true ∧ E1.fld fPWR_STAT_STATE ≠ 1) ∧
    (∃ e ∈ E2.lkt.erase, E2.lkt.waiting = [] ∧ e.suspended = false) ∧ (∃ e ∈ E3.lkt.erase, E3.lkt.waiting = [] ∧ e.suspended = true ∧
    E3.lkt.program = none ∧ E3.fld fPWR_STAT_STATE ≠ 2 ∧ (e.port = 2 → Claims.noCopies E3)) :=
  by simp only [Claims.noCopies]; decide +kernel
theorem witness_locketLoads :
    (Fetches L1 L1 0 Ecc.clean ∧ L1.gp 0 25 = false ∧ L1.addrImm 0 25 0#16 = L1.addrImm 0 25 0#16 ∧
    21474836480 + 256 = BitVec.toNat (L1.gv 0 25 + BitVec.signExtend 64 0#16) ∧ 256 < 2097152 ∧
    BitVec.toNat (L1.gv 0 25 + BitVec.signExtend 64 0#16) % 8 = 0 ∧ ¬(32768 ≤ 256 ∧ 256 < 524288) ∧ Claims.wholeWord L1 (256 / 16 : Nat)) ∧
    (Fetches L1 L1 0 Ecc.clean ∧ L1.gp 0 26 = false ∧ L1.addrImm 0 26 0#16 = L1.addrImm 0 26 0#16 ∧
    21474836480 + 32768 = BitVec.toNat (L1.gv 0 26 + BitVec.signExtend 64 0#16) ∧ 32768 < 2097152 ∧ (32768 ≤ 32768 ∧ 32768 < 524288) ∧ Plain L1 0) :=
  ⟨⟨fetched (by decide +kernel), by simp only [Claims.wholeWord]; decide +kernel⟩,
  ⟨fetched (by decide +kernel), by simp only [Plain]; decide +kernel⟩⟩
theorem witness_locketOperations :
    (Claims.locketReady P1 0#7 5 1 ∧ P1.fld fLKT_VMON_VLKTLOW = 0 ∧ lkWrites (lkPortOf 0) (lkSectorOf (tgetD P1.lkt.addr (lkPortOf 0) 0)) = true ∧
    (P1.lkSector (lkSectorOf (tgetD P1.lkt.addr (lkPortOf 0) 0))).indet = false ∧ (P1.lkWord (tgetD P1.lkt.addr (lkPortOf 0) 0)).begun = false) ∧
    (Claims.locketReady P2 0#7 3 2 ∧ P2.fld fLKT_VMON_VLKTLOW = 0 ∧ bits 983040#64 4 17 % 256 = 0 ∧
    lkWrites (lkPortOf 0) (lkSectorOf (bits 983040#64 4 17)) = true) ∧ (Claims.locketReady P3 0#7 3 3 ∧ Claims.wholeWord P3 (bits 0#64 4 17) ∧
    (lkPortOf 0 = 0 → lkHidden (lkSectorOf (bits 0#64 4 17)) = false)) :=
  by simp only [Claims.locketReady, Claims.wholeWord]; decide +kernel
theorem witness_locketSupervision :
    (tj.pwr.crystal = true ∧ 1#16 ≠ 0#16 ∧ 713 ≤ 713) ∧ (1709 < 1710) ∧ (1710 ≤ 1710) ∧
    ((∀ (w : Nat × LkWord), w ∈ tj.lkt.words → w.snd.begun = true → Claims.wholeWord tj w.fst) ∧ 1 ≤ tj.fld fLKT_EW_THRESH) ∧
    (Wm.lkt.words = [(3, ⟨7, true, true⟩)] ∧ Wm.lkt.erase = none ∧ Wm.flag fLKT_RDLOG_VALID = false) :=
  by simp only [Claims.wholeWord]; decide +kernel
theorem witness_locketUnlocks :
    (U0.fld (fLKT_STAT_BUSY (lkPortOf 0)) = 0 ∧ U0.fld (fLKT_STAT_SEQ (lkPortOf 0)) = 0) ∧ (U1.fld (fLKT_STAT_BUSY (lkPortOf 0)) = 0 ∧
    U1.fld (fLKT_STAT_SEQ (lkPortOf 0)) = 1 ∧ (lkPortOf 0 = 0 → U1.fld (fLKT_STAT_OWNER 0) = 0) ∧
    U1.now ≤ tgetD U1.lkt.lastAt (lkPortOf 0) 0 + 10000) ∧ (U0.fld (fLKT_STAT_BUSY (lkPortOf 0)) = 0 ∧ U0.fld (fLKT_STAT_SEQ (lkPortOf 0)) = 0 ∧
    0#64 ≠ 2781048349#64) ∧ (U1.fld (fLKT_STAT_SEQ (b2n false)) ≠ 0) ∧ (U0.fld (fLKT_STAT_SEQ (b2n true)) = 0) :=
  by decide +kernel

/-! ### QueuesFetchAndDispatch -/

theorem witness_arrivals :
    (((h5.fld fFLT_STAT_FATAL = 0 ∧ h5.hqe.link.dropNext = 0 ∧ h5.hostLink = true) ∧
    ∃ l ∈ takeFetched 0 h5.hqe.fetching, ∃ k ∈ h5.freeSlotNo, ∃ st ∈ h5.parse 0 cmdBad, ∃ q ∈ tget h5.hqe.sqs 0, ∃ cq ∈ tget h5.hqe.cqs q.cq, cq.full = false) ∧
    (∃ l ∈ takeFetched (0#16).toNat h5.hqe.fetching, ∃ k ∈ h5.freeSlotNo, takeFetched (0#16).toNat h5.hqe.fetching = some l ∧
    h5.hqe.link.dropNext = 0 ∧ h5.parse (0#16).toNat cmd0 = none ∧ 0#16 = 0#16 ∧ queueOp (cmdOp cmd0) = false ∧
    h5.epAbsent (h5.fld fHQE_DCFG_AEP) = false ∧ h5.hqe.drained = false)) ∧
    (∃ l ∈ takeFetched 1 h6.hqe.fetching, ∃ k ∈ h6.freeSlotNo, takeFetched 1 h6.hqe.fetching = some l ∧ h6.hqe.link.dropNext = 0 ∧
    h6.parse 1 cmd0 = none ∧ 1#16 ≠ 0#16 ∧ cmdOp cmd0 ≠ 9 ∧ h6.hqe.slots = [] ∧ h6.dispatchStopped = false ∧ h6.hqe.nextOrder < 2 ^ 80 ∧
    h6.flag (fHQE_DISP_VALID (h6.dispIndex (h6.newSlot 1 cmd0))) = true ∧
    h6.epAbsent (h6.fld (fHQE_DISP_EP (h6.dispIndex (h6.newSlot 1 cmd0)))) = false) :=
  ⟨by decide +kernel,
  by decide +kernel⟩
theorem witness_doorbells :
    (h1.hqe.cc % 2 = 1 ∧ (tget h1.hqe.sqs 0).isSome = true ∧ ∃ q ∈ tget h1.hqe.sqs 0, 0 < q.entries) ∧ (h1.hqe.cc % 2 = 1 ∧
    (tget h1.hqe.sqs 0).isSome = true ∧ ∃ q ∈ tget h1.hqe.sqs 0, q.entries ≤ 32) ∧ (h1.hqe.cc % 2 = 1 ∧ (tget h1.hqe.sqs 0).isSome = true ∧
    ∃ q ∈ tget h1.hqe.cqs 0, q.head < q.entries ∧ q.tail < q.entries ∧ 0 < q.entries ∧
    (0 + q.entries - q.head) % q.entries ≤ (q.tail + q.entries - q.head) % q.entries ∧
    (∀ (e : Nat × Slot), e ∈ h1.hqe.slots → e.snd.completion = none) ∧ h1.hqe.shutdown = false) :=
  by decide +kernel
theorem witness_fetchTurns :
    (h3.mayFetch = true ∧ ∃ q ∈ tget h3.hqe.sqs 0, 0 < q.fresh) ∧ (h4.mayFetch = true ∧ (∀ (q : SubQueue), tget h4.hqe.sqs 0 = some q → q.fresh = 0) ∧
    h4.weighted = false ∧ h4.servesIo = true ∧ ∃ e, e ∈ h4.hqe.sqs ∧ e.fst ≠ 0 ∧ e.snd.deleting = false ∧ 0 < e.snd.fresh) ∧
    ((h0.setFld fHQE_CTL_FETCH 0).fld fHQE_CTL_FETCH = 0) :=
  by decide +kernel
theorem witness_listsAndTable :
    (∃ e ∈ h7.slot 0, ∃ b ∈ h7.nextBead, e.listPending = true ∧ h7.decideBeads (h7.fld fHQE_GRANT_ACLASS) 1 = Decision.grant ∧
    [DsmRange.mk 1 5 3, ⟨0, 2, 9⟩].length ≤ e.cmd.dw10.toNat % 256 + 1 ∧ h7.hqe.link.dropNext = 0) ∧ (h7.ctlStoreFault 0 (rHQE_DISP 0) 0#64 = none) ∧
    ((h7.ctlStoreFault 0 (rHQE_DISP 0) 1099511627775#64).isSome = true) :=
  by decide +kernel

/-! ### QueueCommandsCreateAndDelete -/

theorem witness_queueCommandsCreateAndDelete :
    ((∃ e ∈ c5a.slot 0, Claims.QueueCommand c5a 0 5 e ∧ e.cmd.dw10.toNat % 65536 ≠ 0 ∧ tget c5a.hqe.cqs (e.cmd.dw10.toNat % 65536) = none ∧
    e.cmd.dw10.toNat / 65536 ≠ 0 ∧ e.cmd.dw11.toNat / 65536 < 2048 ∧ e.cmd.dw11.getLsbD 0 = true) ∧ (∃ e ∈ c5b.slot 0, Claims.QueueCommand c5b 0 5 e ∧
    (tget c5b.hqe.cqs (e.cmd.dw10.toNat % 65536)).isSome = true) ∧ (∃ e ∈ c1a.slot 0, Claims.QueueCommand c1a 0 1 e ∧ e.cmd.dw10.toNat % 65536 ≠ 0 ∧
    tget c1a.hqe.sqs (e.cmd.dw10.toNat % 65536) = none ∧ e.cmd.dw10.toNat / 65536 ≠ 0 ∧ e.cmd.dw11.toNat / 65536 ≠ 0 ∧
    (tget c1a.hqe.cqs (e.cmd.dw11.toNat / 65536)).isSome = true ∧ e.cmd.dw11.getLsbD 0 = true) ∧ (∃ e ∈ c4a.slot 0, Claims.QueueCommand c4a 0 4 e ∧
    e.cmd.dw10.toNat % 65536 ≠ 0 ∧ (tget c4a.hqe.cqs (e.cmd.dw10.toNat % 65536)).isSome = true ∧
    ∀ (q : Nat × SubQueue), q ∈ c4a.hqe.sqs → q.snd.cq ≠ e.cmd.dw10.toNat % 65536)) ∧
    ((∃ e ∈ c0a.slot 0, Claims.QueueCommand c0a 0 0 e ∧ e.cmd.dw10.toNat % 65536 ≠ 0 ∧
    ∃ q ∈ tget c0a.hqe.sqs (e.cmd.dw10.toNat % 65536), q.deleting = false ∧
    ∀ (x : Nat × Slot), x ∈ c0a.hqe.slots → x.snd.sq ≠ e.cmd.dw10.toNat % 65536 ∧ x.snd.completion = none) ∧
    (∃ e ∈ c0b.slot 1, Claims.QueueCommand c0b 1 0 e ∧ e.cmd.dw10.toNat % 65536 ≠ 0 ∧
    ∃ q ∈ tget c0b.hqe.sqs (e.cmd.dw10.toNat % 65536), q.deleting = false ∧ (∃ x, x ∈ c0b.hqe.slots ∧ x.snd.sq = e.cmd.dw10.toNat % 65536) ∧
    (∀ (x : Nat × Slot), x ∈ c0b.hqe.slots → x.snd.completion = none) ∧ Claims.noPortions c0b) ∧ (∃ x ∈ c0d.hqe.sqs.head?, c0d.hqe.sqs.length = 1 ∧
    x.2.deleting = true ∧ x.2.deleteSlot = some 1 ∧ ∃ y ∈ c0d.hqe.slots, y.2.sq = x.1)) ∧
    (∃ e ∈ c0e.slot 1, Claims.QueueCommand c0e 1 0 e ∧
    ∃ d ∈ Option.map (fun q => q.fst) (List.find? (fun x => x.snd.deleting && decide (x.snd.deleteSlot = some 1)) c0e.hqe.sqs), ∃ q ∈ Option.map (fun q => q.snd) (List.find? (fun x => x.snd.deleting && decide (x.snd.deleteSlot = some 1)) c0e.hqe.sqs), List.find? (fun x => x.snd.deleting && decide (x.snd.deleteSlot = some 1)) c0e.hqe.sqs = some (d, q) ∧
    d ≠ 0 ∧ ∀ (x : Nat × Slot), x ∈ c0e.hqe.slots → x.snd.sq ≠ d) :=
  ⟨by simp only [Claims.QueueCommand, mayPost_iff]; decide +kernel,
  by simp only [Claims.QueueCommand, Claims.noPortions, mayPost_iff]; decide +kernel,
  by simp only [Claims.QueueCommand, mayPost_iff]; decide +kernel⟩

/-! ### ControllerEnableResetAndLink -/

theorem witness_controllerEnable :
    (g3.hqe.cc % 2 = 0 ∧ 1 % 2 = 1 ∧ 1 / 2 ^ 14 % 4 = 0 ∧ 2031647 % 4096 ≠ 0 ∧ 2031647 / 2 ^ 16 % 4096 ≠ 0) ∧ (h1.hqe.cc % 2 = 1 ∧ 0 % 2 = 0) ∧
    (h8.hqe.cc % 2 = 1 ∧ 16385 % 2 = 1 ∧ h8.hqe.cc / 2 ^ 14 % 4 = 0 ∧ 16385 / 2 ^ 14 % 4 ≠ 0 ∧ ∃ e, e ∈ h8.hqe.slots ∧
    h8.hqe.aers.contains e.fst = false) ∧ (h1.hqe.cc % 2 = 1 ∧ 32769 % 2 = 1 ∧ h1.hqe.cc / 2 ^ 14 % 4 = 0 ∧ 32769 / 2 ^ 14 % 4 = 2 ∧
    h1.hqe.slots = [] ∧ h1.hqe.fetching = []) :=
  by decide +kernel
theorem witness_hostAndLink :
    ((∃ f ∈ hFetching.hqe.fetching, f.1 = 1) ∧ hFetching.hqe.link.timeoutOff = false) ∧ ((tget hCoalesced.hqe.coalesced 3).isSome = true) ∧
    ((g3.setFld fHQE_PCID_LOCK 1).fld fHQE_PCID_LOCK = 1) ∧ (g3.fld fHQE_PCID_LOCK = 0 ∧ g3.hqe.pcidLapsed = false) ∧ (g3.hqe.link.power = 0 ∧
    g3.hqe.link.refuseNext = 0) ∧ (g3.fld fHQE_PCID_LOCK = 0) ∧ (linkOk 0 0 true 0 = true) :=
  by decide +kernel

/-! ### HostDataMoves -/

theorem witness_completions :
    (h8.hqe.shutdown = false ∧ ∃ e ∈ h8.slot 0, e.completion = none ∧ e.beadError = false ∧ Claims.MayPost h8 0) ∧ (h8.hqe.shutdown = false ∧
    ∃ e ∈ h8.slot 0, e.completion = none ∧ e.beadError = false) ∧ (h8.hqe.shutdown = false ∧ h8.slot 9 = none) ∧ (dC.hqe.shutdown = false ∧
    ∃ e ∈ dC.slot 0, ∃ h ∈ e.completion, Claims.MayPost dC 0) ∧ (d4.hqe.shutdown = false ∧ d4.granted 5 113 = true ∧ d4.epAbsent 1 = false) :=
  by simp only [mayPost_iff]; decide +kernel
theorem witness_readDatas :
    ((∃ e ∈ d4.slot 0, entry5.unit.toNat < e.unitCount ∧ entry5.sector.toNat + entryRun entry5 ≤ 8 ∧ entry5.sector.toNat ≤ 7 ∧
    d4.granted entry5.bead.toNat 113 = true) ∧ (∃ e ∈ d5.slot 0, ∃ tr ∈ e.transfers.head?, e.transfers = [tr] ∧ tr.bead = 5 ∧
    d5.epAbsent e.ep = false ∧ 0 ∈ d5.readDoublesOf e tr)) ∧
    (∃ e ∈ d7b.slot 0, ∃ tr ∈ e.transfers.head?, e.transfers = [tr] ∧ tr.bead = 5 ∧ e.admin = true ∧ e.completion = none ∧ d7b.granted 5 113 = true ∧
    (d7b.bead 5).ue < 2 ∧ d7b.pool.waiting = [] ∧ d7b.hqe.shutdown = false ∧ (d7b.readDoublesOf e tr).all (fun i => decide (i < 528)) = true ∧
    ∀ i, i < 528 → d7b.mem.poisoned (beadDouble 5 i) = false) :=
  ⟨by decide +kernel,
  by
  have h : ∀ i, i < 528 → d7b.mem.poisoned (beadDouble 5 i) = false := beadMem_double _ (by decide)
  have g : (∀ i, i < 528 → d7b.mem.poisoned (beadDouble 5 i) = false) = True := eq_true h
  rw [g]; decide +kernel⟩
theorem witness_writeData :
    (∃ e ∈ d3.slot 0, ∃ g ∈ e.pulls.head?, d3.slot 0 = some e ∧ e.pulls = [g] ∧ g.beads = [0] ∧ g.repull = false ∧ g.part = false ∧
    d3.hqe.link.dropNext = 0 ∧ (d3.fillBead e g.first 0 pu).snd = none) ∧ (∃ e ∈ d2.slot 0, 0 < e.units ∧ d2.granted 0 113 = true ∧ 0 = 0) ∧
    (∃ e ∈ d2.slot 0, d2.granted 1 113 = false ∧ 0 = 0) :=
  by decide +kernel
theorem witness_writeGrants :
    ∃ e ∈ h9.slot 0, e.dispatched = true ∧ e.pullStopped = none ∧ 0 < e.units - e.requested ∧ e.units - e.requested ≤ h9.fld fHQE_GRANT_UNITS ∧
    e.groups < h9.fld fHQE_GRANT_SEGS ∧
    e.units - e.requested ≤ h9.quotaOf (if e.admin = true then h9.fld fHQE_GRANT_ACLASS else h9.fld fHQE_GRANT_CLASS) ∧ h9.pool.waiting = [] ∧
    h9.decideBeads (if e.admin = true then h9.fld fHQE_GRANT_ACLASS else h9.fld fHQE_GRANT_CLASS) (e.units - e.requested) = Decision.grant :=
  by decide +kernel

/-! ### AdminLogsFeaturesAndNamespaces -/

theorem witness_features :
    ((∃ e ∈ sf1.slot 0, sf1.sanGate = none ∧ Claims.AdminCommand sf1 0 9 e ∧ e.cmd.dw10.toNat % 256 ∈ [1, 8, 10, 11]) ∧
    (∃ e ∈ sf6.slot 0, sf6.sanGate = none ∧ Claims.AdminCommand sf6 0 9 e ∧ e.cmd.dw10.toNat % 256 = 6) ∧ (∃ e ∈ gf1.slot 0, gf1.sanGate = none ∧
    Claims.AdminCommand gf1 0 10 e ∧ e.cmd.dw10.toNat % 256 ∈ [1, 2, 8, 10, 11] ∧ e.cmd.dw10.toNat / 256 % 8 = 0 ∧
    ∃ x ∈ tget gf1.hqe.features (e.cmd.dw10.toNat % 256), True) ∧ (∃ e ∈ gf2.slot 0, gf2.sanGate = none ∧ Claims.AdminCommand gf2 0 10 e ∧
    e.cmd.dw10.toNat % 256 = 14 ∧ e.cmd.dw10.toNat / 256 % 8 = 0 ∧ gf2.decideBeads (gf2.fld fHQE_GRANT_ACLASS) 1 = Decision.grant) ∧
    (∃ e ∈ pm1.slot 0, pm1.sanGate = none ∧ Claims.AdminCommand pm1 0 9 e ∧ e.cmd.dw10.toNat % 256 = 2 ∧ e.cmd.dw11.toNat % 32 ≤ 2)) ∧
    ((∃ e ∈ pm3.slot 1, pm3.sanGate = none ∧ Claims.AdminCommand pm3 1 9 e ∧ e.cmd.dw10.toNat % 256 = 2 ∧ e.cmd.dw11.toNat % 32 = 3 ∧
    pm3.fld fARC_MODE_CUR ≠ 7 ∧ pm3.boot.sched = none ∧ pm3.ns = [] ∧ ∃ x, x ∈ pm3.hqe.slots ∧ x.fst ≠ 1 ∧ pm3.hqe.aers.contains x.fst = false) ∧
    (∃ e ∈ ts1.slot 0, ts1.sanGate = none ∧ Claims.AdminCommand ts1 0 9 e ∧ e.cmd.dw10.toNat % 256 = 14 ∧ e.cmd.dw10.getLsbD 31 = false ∧
    Claims.DataIn ts1 e 7)) :=
  ⟨by simp only [Claims.AdminCommand, mayPost_iff]; decide +kernel,
  by simp only [Claims.AdminCommand, Claims.DataIn, clean7 (m := ts1.mem) _ rfl, mayPost_iff]; decide +kernel⟩
theorem witness_logsAndEvents :
    ((∃ e ∈ lg1.slot 0, lg1.sanGate = none ∧ Claims.AdminCommand lg1 0 2 e ∧ (e.cmd.dw12.toNat + e.cmd.dw13.toNat * 2 ^ 32) % 4 = 0 ∧
    adminBytes e.cmd ≤ 0x200000 ∧
    ∃ q ∈ lg1.readPage false (e.cmd.dw10.toNat % 256) (e.cmd.dw10.toNat / 256 % 128) (e.cmd.dw10.toNat.testBit 15) (e.cmd.dw12.toNat + e.cmd.dw13.toNat * 2 ^ 32) (adminBytes e.cmd), q.2.isEmpty = false ∧
    q.1.decideBeads (q.1.fld fHQE_GRANT_ACLASS) ((q.2.length + 4095) / 4096) = Decision.grant) ∧ (∃ e ∈ lg4.slot 0, lg4.sanGate = none ∧
    Claims.AdminCommand lg4 0 2 e ∧ (e.cmd.dw12.toNat + e.cmd.dw13.toNat * 2 ^ 32) % 4 = 0 ∧ adminBytes e.cmd ≤ 2097152 ∧
    e.cmd.dw10.toNat % 256 ≠ 192 ∧ lg4.pageBytes (e.cmd.dw10.toNat % 256) = none)) ∧
    ((∃ e ∈ id1.slot 0, id1.sanGate = none ∧ Claims.AdminCommand id1 0 6 e ∧
    (∃ l ∈ (id1.identifyData (e.cmd.dw10.toNat % 256) e.cmd.nsid.toNat).toOption, l.length = 4096) ∧
    id1.decideBeads (id1.fld fHQE_GRANT_ACLASS) 1 = Decision.grant) ∧ (∃ e ∈ id00.slot 0, id00.sanGate = none ∧ Claims.AdminCommand id00 0 6 e ∧
    e.cmd.dw10.toNat % 256 = 0 ∧ e.cmd.nsid = 0#32) ∧ (∃ e ∈ ab1.slot 0, ab1.sanGate = none ∧ Claims.AdminCommand ab1 0 8 e ∧
    ab1.earlier 8 e.order < 4) ∧ (∃ e ∈ ab6.slot 4, ab6.sanGate = none ∧ Claims.AdminCommand ab6 4 8 e ∧ 4 ≤ ab6.earlier 8 e.order) ∧
    (∃ e ∈ ae.slot 0, ae.sanGate = none ∧ Claims.AdminCommand ae 0 12 e ∧ ¬0 ∈ ae.hqe.aers ∧ ae.hqe.aers.length < 8 ∧ ae.hqe.events = []) ∧
    (∃ e ∈ ae8.slot 0, ae8.sanGate = none ∧ Claims.AdminCommand ae8 0 12 e ∧ ¬0 ∈ ae8.hqe.aers ∧ 8 ≤ ae8.hqe.aers.length)) ∧
    (∃ e ∈ st1.slot 0, st1.sanGate = none ∧ Claims.AdminCommand st1 0 20 e ∧
    (e.cmd.dw10.toNat % 16 = 1 ∨ e.cmd.dw10.toNat % 16 = 2 ∨ e.cmd.dw10.toNat % 16 = 15)) :=
  ⟨by simp only [Claims.AdminCommand, mayPost_iff]; decide +kernel,
  by simp only [Claims.AdminCommand, mayPost_iff]; decide +kernel,
  by simp only [Claims.AdminCommand, mayPost_iff]; decide +kernel⟩
theorem witness_namespaces :
    ((nm1.sanGate = none ∧ leastBelow (fun i => (tget nm1.ns i).isNone) 256 = some 1 ∧ Claims.beadWord nm1 7 0 = 2048#64 ∧
    Claims.beadWord nm1 7 1 = 2048#64 ∧ Claims.beadWord nm1 7 3 = 0x10000010000#64 ∧
    nm1.belowShare (nm1.reserveFor (nm1.allocatedUnits + ns2.units)) 8 = false) ∧ ∃ e ∈ nm1.slot 0, Claims.AdminCommand nm1 0 0x0D e ∧
    (Claims.DataIn nm1 e 7 ∧ e.cmd.dw10.toNat % 16 = 0) ∧
    Claims.BecomesDurable ((nm1.freeAll [7] e.ep).nsCreated 0 1 { ns2 with base := nm1.freeBase ((ns2.units + 1023) / 1024) })) ∧
    ((nm2.sanGate = none ∧ nm2.nsBusy 0 = false ∧ tget nm2.ns 0 = some ns1) ∧ ∃ e ∈ nm2.slot 0, Claims.AdminCommand nm2 0 0x0D e ∧ (e.units = 0 ∧
    e.cmd.dw10.toNat % 16 = 1 ∧ e.cmd.nsid.toNat = 1 ∧ Claims.QuietNamespaces nm2 0 e) ∧
    Claims.BecomesDurable (State.leaveNow { nm2 with ns := tput nm2.ns 0 (gone1 e) } 0 (gone1 e) e.order true)) ∧
    (∃ e ∈ na1.slot 0, na1.sanGate = none ∧ Claims.AdminCommand na1 0 21 e ∧ Claims.DataIn na1 e 7 ∧ e.cmd.dw10.toNat % 16 = 0 ∧
    e.cmd.nsid.toNat = 0 + 1 ∧ (∀ x ∈ na1.hqe.slots, x.2.order = e.order → x.1 = 0) ∧ na1.noticeOn 8 = false ∧
    (Claims.beadWord na1 7 0).toNat % 2 ^ 32 = 1 + 2 ^ 16 ∧ ∃ x ∈ tget na1.ns 0, x.attached = false) ∧
    ((fm1.sanGate = none ∧ fm1.nsBusy 0 = false ∧ tget fm1.ns 0 = some ns1) ∧ ∃ e ∈ fm1.slot 0, Claims.AdminCommand fm1 0 0x80 e ∧
    (e.cmd.nsid.toNat = 1 ∧ e.cmd.dw10.toNat / 2 ^ 12 % 4 = 0 ∧ e.cmd.dw10.toNat % 16 ≤ 5 ∧ e.cmd.dw10.toNat / 32 % 8 = 0 ∧
    e.cmd.dw10.toNat / 512 % 8 ≤ 2 ∧ Claims.QuietNamespaces fm1 0 e) ∧
    Claims.BecomesDurable (State.formatOne { fm1 with ns := tput fm1.ns 0 (nsF e) } 0 (nsF e) (fmt1 e))) :=
  ⟨⟨by decide +kernel, admin_durable (fun e => e.units = 1 ∧ nm1.granted 7 e.ep = true ∧ e.cmd.dw10.toNat % 16 = 0) _ _ 6 (band3 6 5) (by decide +kernel) (by decide +kernel) fun e h => ⟨⟨h.1, h.2.1, clean7 _ rfl⟩, h.2.2⟩⟩,
  ⟨by decide +kernel, admin_durable (fun e => e.units = 0 ∧ e.cmd.dw10.toNat % 16 = 1 ∧ e.cmd.nsid.toNat = 1 ∧ tabWf nm2.ns = true ∧ (∀ x ∈ nm2.ns, x.2.formatTo = none ∧ x.2.leaving = none) ∧ (∀ x ∈ nm2.hqe.slots, x.2.held = false) ∧ (∀ x ∈ nm2.hqe.slots, x.2.order = e.order → x.1 = 0) ∧ nm2.noticeOn 8 = false ∧ nm2.pwr.entry = 0) _ _ 6 (band3 6 5) (by decide +kernel) (by decide +kernel) fun _ h => h⟩,
  by simp only [Claims.AdminCommand, Claims.DataIn, Claims.beadWord, mayPost_iff, clean7 (m := na1.mem) _ rfl]; decide +kernel,
  ⟨by decide +kernel, admin_durable (fun e => e.cmd.nsid.toNat = 1 ∧ e.cmd.dw10.toNat / 2 ^ 12 % 4 = 0 ∧ e.cmd.dw10.toNat % 16 ≤ 5 ∧ e.cmd.dw10.toNat / 32 % 8 = 0 ∧ e.cmd.dw10.toNat / 512 % 8 ≤ 2 ∧ tabWf fm1.ns = true ∧ (∀ x ∈ fm1.ns, x.2.formatTo = none ∧ x.2.leaving = none) ∧ (∀ x ∈ fm1.hqe.slots, x.2.held = false) ∧ (∀ x ∈ fm1.hqe.slots, x.2.order = e.order → x.1 = 0) ∧ fm1.noticeOn 8 = false ∧ fm1.pwr.entry = 0) _ _ 6 (band3 6 5) (by decide +kernel) (by decide +kernel) fun _ h => h⟩⟩

/-! ### SanitizeAndSecurityCommands -/

theorem witness_sanitizes :
    (∃ e ∈ (sa 2).slot 0, (sa 2).sanGate = none ∧ Claims.AdminCommand (sa 2) 0 0x84 e ∧ (sa 2).sig.sanState ≠ 1 ∧ e.cmd.dw10.toNat % 8 = 2 ∧
    isHealth ((sa 2).fld fARC_MODE_CUR) = true ∧ Claims.QuietNamespaces (sa 2) 0 e ∧ ∀ x ∈ (sa 2).hqe.slots, x.2.working = false) ∧
    (∃ e ∈ (saS 3 1 false).slot 0, Claims.AdminCommand (saS 3 1 false) 0 0x84 e ∧ (saS 3 1 false).sig.sanState = 1 ∧ e.cmd.dw10.toNat % 8 = 3) ∧
    (∃ e ∈ (saS 1 3 true).slot 0, Claims.AdminCommand (saS 1 3 true) 0 0x84 e ∧ (saS 1 3 true).sig.sanState = 3 ∧ (saS 1 3 true).sig.sanAuse = true ∧
    e.cmd.dw10.toNat % 8 = 1 ∧ (saS 1 3 true).fld fARC_MODE_CUR ≠ 6) ∧ (∃ e ∈ (saS 1 3 false).slot 0, Claims.AdminCommand (saS 1 3 false) 0 0x84 e ∧
    (saS 1 3 false).sig.sanState = 3 ∧ (saS 1 3 false).sig.sanAuse = false ∧ e.cmd.dw10.toNat % 8 = 1) :=
  by simp only [Claims.AdminCommand, Claims.QuietNamespaces, mayPost_iff]; decide +kernel
theorem witness_securityCommands :
    (∃ e ∈ ss1.slot 0, ss1.sanGate = none ∧ ss1.flag fSIG_STAT_ERR = false ∧ Claims.AdminCommand ss1 0 129 e ∧ Claims.DataIn ss1 e 7 ∧
    e.cmd.dw10.toNat / 2 ^ 24 = 0xF0) ∧ (∃ e ∈ ss2.slot 0, ss2.sanGate = none ∧ ss2.flag fSIG_STAT_ERR = false ∧ Claims.AdminCommand ss2 0 129 e ∧
    Claims.DataIn ss2 e 7 ∧ e.cmd.dw10.toNat / 2 ^ 24 = 0xF1) ∧ (∃ e ∈ sr1.slot 0, sr1.sanGate = none ∧ sr1.flag fSIG_STAT_ERR = false ∧
    Claims.AdminCommand sr1 0 130 e ∧ e.cmd.dw10.toNat / 2 ^ 24 = 0 ∧ e.cmd.dw11.toNat ≤ 4096 ∧ 0 < e.cmd.dw11.toNat ∧
    sr1.decideBeads (sr1.fld fHQE_GRANT_ACLASS) 1 = Decision.grant) :=
  by simp only [Claims.AdminCommand, Claims.DataIn, clean7 (m := ss1.mem) _ rfl, clean7 (m := ss2.mem) _ rfl, mayPost_iff]; decide +kernel

/-! ### NvmCommandsDoTheirWork -/

theorem witness_flushes :
    (∃ e ∈ fl_.slot 0, Claims.IoCommand fl_ 0 0 e ∧ e.verdict = none) ∧ (∃ e ∈ fl2_.slot 0, Claims.IoCommand fl2_ 0 0 e ∧
    ∃ st ∈ e.verdict, st % 2048 ≠ 0) :=
  by simp only [Claims.IoCommand, mayPost_iff]; decide +kernel
theorem witness_rangesWait :
    (∃ e ∈ wu.slot 0, e.verdict = none ∧ wu.fmtOf e.cmd ≠ 5 ∧ Claims.IoCommand wu 0 4 e) ∧ (∃ e ∈ wz.slot 0, e.verdict = none ∧ wz.fmtOf e.cmd ≠ 5 ∧
    Claims.IoCommand wz 0 8 e) ∧ (∃ e ∈ dm1.slot 0, e.verdict = none ∧ dm1.fmtOf e.cmd ≠ 5 ∧ Claims.IoCommand dm1 0 9 e ∧
    e.cmd.dw11.getLsbD 2 = true ∧ (∃ run ∈ dm1.cmdRuns e, run.2 ≠ 0) ∧ ∀ x ∈ dm1.cmdRuns e, x.1 + x.2 ≤ ((dm1.activeNs e.nsid).map (·.lbas)).getD 0) ∧
    (∃ e ∈ dm2.slot 0, e.verdict = none ∧ dm2.fmtOf e.cmd ≠ 5 ∧ Claims.IoCommand dm2 0 9 e ∧ e.cmd.dw11.getLsbD 2 = false) :=
  by simp only [Claims.IoCommand, mayPost_iff]; decide +kernel
theorem witness_readsAndCompares :
    ((∃ e ∈ rd3.slot 0, e.verdict = none ∧ Claims.IoCommand rd3 0 2 e ∧ Claims.unitTrimmed rd3 e true ∧ rd3.decideBeads 0 1 = Decision.grant) ∧
    (∃ e ∈ ve1.slot 0, e.verdict = none ∧ Claims.IoCommand ve1 0 12 e ∧ Claims.unitTrimmed ve1 e false) ∧ (∃ e ∈ ve2.slot 0, e.verdict = none ∧
    Claims.IoCommand ve2 0 12 e ∧ Claims.unitTrimmed ve2 e true)) ∧
    ((∃ e ∈ rd1.slot 0, e.verdict = none ∧ Claims.IoCommand rd1 0 2 e ∧ Claims.unitTrimmed rd1 e false ∧ rd1.decideBeads 0 1 = Decision.grant) ∧
    ∃ e ∈ rd2.slot 0, e.verdict = none ∧ Claims.IoCommand rd2 0 2 e ∧ Claims.unitCached rd2 e 9 ∧ rd2.decideBeads 0 1 = Decision.grant) ∧
    (∃ e ∈ co1.slot 0, e.verdict = none ∧ Claims.IoCommand co1 0 5 e ∧ Claims.unitCached co1 e 9 ∧ Claims.DataIn co1 e 7 ∧
    co1.mem.readDoubles (beadAddr 9) 512 = co1.mem.readDoubles (beadAddr 7) 512 ∧
    co1.mem.readDoubles (beadMetaAddr 9) 8 = co1.mem.readDoubles (beadMetaAddr 7) 8) ∧
    (∃ e ∈ co2.slot 0, e.verdict = none ∧ Claims.IoCommand co2 0 5 e ∧ Claims.unitCached co2 e 9 ∧ Claims.DataIn co2 e 7 ∧
    (co2.sectorMask e 0).testBit 0 = true ∧ BitVec.toNat (Claims.beadWord co2 9 0) ≠ (Claims.beadWord co2 7 0).toNat) :=
  ⟨by simp only [Claims.IoCommand, Claims.unitTrimmed, mayPost_iff, ← Option.mem_def]; decide +kernel,
  by
  simp only [Claims.IoCommand, mayPost_iff, Claims.unitTrimmed, cachedOne_iff, clean9 (m := rd2.mem) _ rfl, ← Option.mem_def]; decide +kernel,
  by
  have e1 : co1.mem.readDoubles (beadAddr 9) 512 = co1.mem.readDoubles (beadAddr 7) 512 := beadMem_eq (lo := 7) (n := 3) _ rfl (by decide) (by decide)
  have e2 : co1.mem.readDoubles (beadMetaAddr 9) 8 = co1.mem.readDoubles (beadMetaAddr 7) 8 := beadMem_metaEq (lo := 7) (n := 3) _ (by decide) (by decide) (by decide)
  simp only [Claims.IoCommand, mayPost_iff, cachedOne_iff, Claims.DataIn, e1, e2, clean_of (m := co1.mem) 7 3 _ rfl (b := 7) (by decide), clean_of (m := co1.mem) 7 3 _ rfl (b := 9) (by decide), ← Option.mem_def]; decide +kernel,
  by
  have e1 : co2.mem.read (beadAddr 9 + 8 * 0) 8 = 6 := beadMem_read (lo := 7) (n := 3) (b := 9) (i := 0) (fun b => if b = 7 then [7#64] else [6#64]) (by decide) (by decide) (by decide)
  have e2 : co2.mem.read (beadAddr 7 + 8 * 0) 8 = 7 := beadMem_read (lo := 7) (n := 3) (b := 7) (i := 0) (fun b => if b = 7 then [7#64] else [6#64]) (by decide) (by decide) (by decide)
  unfold beadAddr at e1 e2
  simp only [Claims.IoCommand, mayPost_iff, cachedOne_iff, Claims.DataIn, Claims.beadWord, e1, e2, clean_of (m := co2.mem) 7 3 _ rfl (b := 7) (by decide), clean_of (m := co2.mem) 7 3 _ rfl (b := 9) (by decide), ← Option.mem_def]; decide +kernel⟩
theorem witness_writesStage :
    ∃ e ∈ wr1.slot 0, Claims.IoCommand wr1 0 1 e ∧ e.verdict = none ∧ Claims.DataIn wr1 e 7 ∧ wr1.programsOn = true ∧ wr1.fw.direct.length < 3 :=
  by simp only [Claims.DataIn, Claims.IoCommand, mayPost_iff, clean7 (m := wr1.mem) _ rfl]; decide +kernel

/-! ### FirmwareUpdatesAndActivates -/

theorem witness_activationsEnd :
    (∃ a ∈ ka2.boot.act, ∃ q ∈ takeFirst (fun (m : Msg) => decide (m.src = (ka2.core 0).role) && decide (m.sub = 0x1A3)) (ka2.box 112 1), q.2.length = 0) ∧
    (∃ a ∈ ka1.boot.act, (ka1.activationDrained a && ka1.allParked) = false ∧ ka1.fld fARC_MODE_CUR = 7) ∧
    (∃ a ∈ ka3.boot.act, ∃ p ∈ ka3.slotPackage a.slot, (ka3.activationDrained a && ka3.allParked) = true ∧ ka3.fld fARC_MODE_CUR = 7) :=
  by decide +kernel
theorem witness_activationsStart :
    (∃ e ∈ fa.slot 0, Claims.Commit fa 0 3 2 e ∧ Claims.MayActivate fa 2 ∧ Claims.Healthy fa ∧ fa.boot.sched = none ∧ fa.boot.act = none) ∧
    (∃ e ∈ saA.slot 0, saA.sanGate = none ∧ Claims.AdminCommand saA 0 192 e ∧ e.cmd.dw10.getLsbD 8 = false ∧ schedReserved e.cmd = true ∧
    e.cmd.dw10.toNat % 8 = 2 ∧ saA.fld fTMR_STAMP_ORIGIN ≠ 0 ∧ saA.boot.sched = none ∧ saA.boot.act = none ∧
    saA.stampMs + 100 ≤ e.cmd.dw11.toNat + e.cmd.dw12.toNat % 2 ^ 16 * 2 ^ 32 ∧
    e.cmd.dw11.toNat + e.cmd.dw12.toNat % 2 ^ 16 * 2 ^ 32 ≤ saA.stampMs + 2592000000 ∧ Claims.MayActivate saA 2) ∧
    (∃ e ∈ saC.slot 0, saC.sanGate = none ∧ Claims.AdminCommand saC 0 192 e ∧ e.cmd.dw10.getLsbD 8 = true ∧ saC.boot.sched = none) ∧
    (∃ e ∈ saD.slot 1, saD.sanGate = none ∧ Claims.AdminCommand saD 1 192 e ∧ e.cmd.dw10.getLsbD 8 = true ∧ saD.boot.sched.isSome = true) ∧
    (saB.boot.sched = some ⟨0, 2, 1000⟩ ∧ saB.sig.sanState ≠ 1 ∧ Claims.Healthy saB) :=
  by simp only [Claims.AdminCommand, Claims.Commit, Claims.Healthy, mayActivate_iff, mayPost_iff]; decide +kernel
theorem witness_downloadsAndCommits :
    ((∃ e ∈ fd1.slot 0, fd1.sanGate = none ∧ Claims.AdminCommand fd1 0 17 e ∧ Claims.DataIn fd1 e 7 ∧
    e.cmd.dw11.toNat + (e.cmd.dw10.toNat + 1) ≤ 2 ^ 22 ∧
    ∀ q ∈ fd1.boot.pieces, e.cmd.dw11.toNat + (e.cmd.dw10.toNat + 1) ≤ q.1 ∨ q.1 + q.2 ≤ e.cmd.dw11.toNat) ∧ (∃ e ∈ fd2.slot 0, fd2.sanGate = none ∧
    Claims.AdminCommand fd2 0 17 e ∧ Claims.DataIn fd2 e 7 ∧ e.cmd.dw11.toNat + (e.cmd.dw10.toNat + 1) ≤ 2 ^ 22 ∧
    ∃ q ∈ fd2.boot.pieces, e.cmd.dw11.toNat < q.1 + q.2 ∧ q.1 < e.cmd.dw11.toNat + (e.cmd.dw10.toNat + 1)) ∧
    (∃ e ∈ (fc 0 2).slot 0, (fc 0 2).boot.dir.running ≠ 2 ∧ (fc 0 2).boot.pieces ≠ [] ∧ (fc 0 2).boot.sched = none ∧
    (fc 0 2).verifies false pk = true ∧ (fc 0 2).aboveFloors pk = true ∧ goodCopies (fc 0 2).part.channels cps = true ∧
    Claims.Commit (fc 0 2) 0 0 2 e)) ∧
    ((∃ e ∈ (fc 1 3).slot 0, (fc 1 3).boot.dir.running ≠ 3 ∧ (fc 1 3).boot.pieces ≠ [] ∧ (fc 1 3).boot.sched = none ∧
    (fc 1 3).verifies false pk = true ∧ (fc 1 3).aboveFloors pk = true ∧ goodCopies (fc 1 3).part.channels cps = true ∧
    Claims.Commit (fc 1 3) 0 1 3 e) ∧ (∃ e ∈ (fc 0 3).slot 0, (fc 0 3).boot.dir.running ≠ 3 ∧ (fc 0 3).boot.pieces ≠ [] ∧ (fc 0 3).boot.sched = none ∧
    Claims.Commit (fc 0 3) 0 0 3 e)) ∧
    (∃ e ∈ (fc 2 2).slot 0, Claims.Commit (fc 2 2) 0 2 2 e ∧ Claims.GoodSlot (fc 2 2) 2 pk) :=
  ⟨by simp only [Claims.AdminCommand, Claims.Commit, Claims.DataIn, clean7 (m := fd1.mem) _ rfl, clean7 (m := fd2.mem) _ rfl, mayPost_iff]; decide +kernel,
  by simp only [Claims.AdminCommand, Claims.Commit, mayPost_iff]; decide +kernel,
  by
  simp only [Claims.Commit, Claims.AdminCommand, mayPost_iff, Claims.GoodSlot, ← Option.mem_def]; decide +kernel⟩

/-! ### MapPagesAndJournalReachFlash -/

theorem witness_flushesOfTheJournal :
    ((sB.flushDue = false) ∧ (fJ4.flushDue = true ∧ fJ4.fw.jFlush.isSome = true)) ∧
    (fJ.flushDue = true ∧ fJ.fw.jFlush = none ∧ (∀ r ∈ fJ.fw.ranges, fJ.rangeReady r = false) ∧ (fJ.nextStripe false 5).isSome = true) ∧
    (fJr.flushDue = true ∧ fJr.fw.jFlush = none ∧ (∃ r, fJr.fw.ranges = [r] ∧ fJr.rangeReady r = true) ∧ (fJr.nextStripe false 5).isSome = true) ∧
    (fJ5.fw.jFlush = some ([.nop], false, [1]) ∧ fJ5.hqe.shutdown = false ∧
    (fJ5.putJournal 1 (journalUnits [.nop] (fJ5.fw.jFlushNo + 1) [1])).isSome = true) ∧
    (fJ6.fw.jFlush = some ([.nop], false, [1]) ∧ fJ6.hqe.shutdown = false ∧
    (fJ6.putJournal 1 (journalUnits [.nop] (fJ6.fw.jFlushNo + 1) [1])).isSome = true ∧ fJ6.fw.ranges = [⟨9, 0, 0, 5, 1, some 3⟩] ∧
    fJ6.fw.placed = [] ∧ ∃ n ∈ tget fJ6.ns 0, 5 < n.units) :=
  ⟨by decide +kernel,
  ⟨by decide +kernel, by decide +kernel, by decide +kernel, by rw [nextStripe_of (bd := band3 6 5) (serial := 6) (by decide +kernel)]; rfl⟩,
  ⟨by decide +kernel, by decide +kernel, ⟨⟨9, 0, 0, 5, 1, none⟩, by decide +kernel⟩, by rw [nextStripe_of (bd := band3 6 5) (serial := 6) (by decide +kernel)]; rfl⟩,
  ⟨by decide +kernel, by decide +kernel, by obtain ⟨t, ps, h, -⟩ := putJournal_of (s := fJ5) (serial := 6) (bd := band3 6 5) (by decide +kernel) (journalUnits [.nop] (fJ5.fw.jFlushNo + 1) [1]) (by decide) (by decide +kernel); exact Option.isSome_iff_exists.2 ⟨_, h⟩⟩,
  ⟨by decide +kernel, by decide +kernel, by obtain ⟨t, ps, h, -⟩ := putJournal_of (s := fJ6) (serial := 6) (bd := band3 6 5) (by decide +kernel) (journalUnits [.nop] (fJ6.fw.jFlushNo + 1) [1]) (by decide) (by decide +kernel); exact Option.isSome_iff_exists.2 ⟨_, h⟩, by decide +kernel, by decide +kernel, by decide +kernel⟩⟩
theorem witness_mapPages :
    ((fwStop.programsOn = false ∨ fwStop.writebackDue 0 = false) ∧ ((tget fwRep.fw.replayIndex 0).isSome = true)) ∧
    (fP.programsOn = true ∧ fP.pageDirty 0 = true ∧ fP.writebackDue 0 = true ∧ fP.findPage 0 = none ∧
    (fP.writePage 0 ⟨5, 0, 0, none⟩).map (·.2) = some true) :=
  ⟨by decide +kernel,
  ⟨by decide +kernel, by decide +kernel, by decide +kernel, by decide +kernel, writePage_of (bd := band3 5 4) rfl rfl (by decide +kernel) (by decide) (by decide +kernel) rfl (by decide +kernel)⟩⟩
theorem witness_snapshots :
    (fSn.programsOn = true ∧ (∀ x, fSn.fw.snaps.getLast? = some x → x.complete = true) ∧ fSn.systemRow = some (7, 0) ∧
    ∃ ds, fSn.freeStripe true 6 7 0 0 = some (bandK 7 6 16, ds, [])) ∧
    (fSn2.programsOn = true ∧ fSn2.fw.snaps.getLast? = some snapX ∧ snapX.complete = false ∧ snapX.dirty = [] ∧ snapX.recordPpa ≠ 0 ∧
    (fSn2.putStripe true 6 snapX.band (rowOf snapX.first) 0 false [⟨unitData snapX.header, [], snapX.seq, 2 * 2 ^ 40, 0, 7⟩]).map (·.2) = some [snapX.first]) :=
  ⟨⟨by decide +kernel, fun x h => (by rw [show fSn.fw.snaps = [] by decide +kernel] at h; cases h), systemRow_of (by decide +kernel) (rowFree_of (bd := bandK 7 6 16) (by decide +kernel)), (rowFree_of (s := fSn) (fence := true) (use := 6) (serial := 7) (row := 0) (bd := bandK 7 6 16) (by decide +kernel)).stripe.imp fun _ h => h.2.2⟩,
  ⟨by decide +kernel, rfl, rfl, rfl, by decide, by rw [show rowOf snapX.first = 0 by unfold snapX rowOf Band.ppaOn blockPpa; dsimp only; omega]; exact putStripe_first (rowFree_of (bd := bandK 7 6 16) (by decide +kernel)) _ (by decide) (by decide +kernel)⟩⟩

/-! ### BlocksAreFoldedReclaimedAndErased -/

theorem witness_blocksAreErased :
    (bkE.programsOn = true ∧ bkE.mayErase 0 = true) ∧ (bkE.programsOn = true ∧ bkE.mayErase 5 = true) :=
  by decide +kernel
theorem witness_hotUnitsAndWear :
    (∃ h ∈ List.find? (fun h => h.ns == 0 && h.unit == 3) hotS.fw.hot, h.lastHit + 100000000 ≤ hotS.now) ∧ (wearS.fw.wearStage < wearS.stageNow) ∧
    (hotS.stageNow ≤ hotS.fw.wearStage) ∧ (Claims.Recording evS 1) :=
  by simp only [Claims.Recording]; decide +kernel
theorem witness_unitsMove :
    ((sB.programsOn = true ∧ sB.backgroundOn = true ∧ sB.stagingAbove 10 = false) ∧ (fwStop.programsOn = false) ∧ (∃ bd ∈ fBd.band 2, bd.state = 1 ∧
    20880 ≤ fBd.bandAge bd)) ∧
    ((fMv.programsOn = true ∧ fMv.backgroundOn = true ∧ fMv.stagingAbove 10 = true ∧ fMv.oldestStaging = some (1, 1) ∧ fMv.decideBeads 3 1 = .grant ∧
    fMv.upToValid (fMv.placeRoom 2 ⟨3, 0, 0, none⟩) (fMv.ppasIn 1) = [2 ^ 14] ∧ fMv.validUnits [2 ^ 14] = [(2 ^ 14, 0, 5)] ∧
    1 ≤ fMv.placeRoom 2 ⟨3, 0, 0, none⟩) ∧ fMv.readyBand 2 ⟨3, 0, 0, none⟩ = fMv ∧ fMv.unitAt (2 ^ 14) 0 = some uU ∧
    ∃ q, (((fMv.takeBeads 3 (fwCore 33) 1).1.poolRefresh.readFor [2 ^ 14] []).putAt 2 ⟨3, 0, 0, none⟩ [unitFrom uU 1]).map (·.2) = some [q]) ∧
    ((fRc.programsOn = true ∧ fRc.backgroundOn = true ∧ (fRc.band 4).map (·.use) ≠ some 4 ∧
    fRc.victimBand [1, 2, 3] (decide (fRc.lowestFree < 96) || fRc.hqe.slots.isEmpty) = some 2 ∧ fRc.decideBeads 4 1 = .grant ∧
    fRc.upToValid (fRc.placeRoom 3 ⟨4, 0, 0, none⟩) ((bbs 2).flatMap fRc.ppasIn) = [2 * 2 ^ 14] ∧ fRc.validUnits [2 * 2 ^ 14] = [(2 * 2 ^ 14, 0, 5)] ∧
    1 ≤ fRc.placeRoom 3 ⟨4, 0, 0, none⟩) ∧ fRc.unitAt (2 * 2 ^ 14) 0 = some uU ∧
    ∃ q, (((fRc.takeBeads 4 (fwCore 33) 1).1.poolRefresh.readFor [2 * 2 ^ 14] []).putAt 3 ⟨4, 0, 0, none⟩ [unitFrom uU 2]).map (·.2) = some [q]) ∧
    ((fRl.programsOn = true ∧ fRl.backgroundOn = true ∧ 4000000 ≤ (fRl.blk 1).reads ∧ (fRl.blk 1).use = 0 ∧ fRl.decideBeads 3 1 = .grant ∧
    fRl.upToValid (fRl.placeRoom 2 ⟨3, 0, 0, none⟩) (fRl.ppasIn 1) = [2 ^ 14] ∧ fRl.validUnits [2 ^ 14] = [(2 ^ 14, 0, 5)] ∧
    1 ≤ fRl.placeRoom 2 ⟨3, 0, 0, none⟩) ∧ fRl.unitAt (2 ^ 14) 0 = some uU ∧
    ∃ q, (((fRl.takeBeads 3 (fwCore 33) 1).1.poolRefresh.readFor [2 ^ 14] []).putAt 2 ⟨3, 0, 0, none⟩ [unitFrom uU 1]).map (·.2) = some [q]) :=
  ⟨by decide +kernel,
  ⟨by decide +kernel, by rw [State.readyBand, if_pos (by decide +kernel)], unitAt_of rfl (by decide +kernel) (mkUnit_good ..), putAt_one (bd := band3 3 2) rfl rfl (by decide) (by decide +kernel) _⟩,
  ⟨by decide +kernel, unitAt_of rfl (by decide +kernel) (mkUnit_good ..), putAt_one (bd := band3 4 3) rfl rfl (by decide) (by decide +kernel) _⟩,
  ⟨by decide +kernel, unitAt_of rfl (by decide +kernel) (mkUnit_good ..), putAt_one (bd := band3 3 2) rfl rfl (by decide) (by decide +kernel) _⟩⟩

/-! ### PortionsPowerFailAndRecovery -/

theorem witness_pfail :
    ((pfI.fw.pfailIgnore = true) ∧ (pfL.fw.pfailLow = true ∧ pfL.fw.pfailIgnore = false)) ∧
    (sB.fw.pfailIgnore = false ∧ sB.fw.jFlush = none ∧ (sB.nextStripe false 5).isSome = true) :=
  ⟨by decide +kernel,
  ⟨by decide +kernel, by decide +kernel, by rw [nextStripe_of (bd := band3 6 5) (serial := 6) (by decide +kernel)]; rfl⟩⟩
theorem witness_portionsTimeOut :
    (fDi.programsOn = true ∧ fDi.fw.direct = [portion] ∧ fDi.directReady portion = true ∧ fDi.oldestStaging = none ∧
    1 ≤ fDi.placeRoom 1 ⟨7, 0, 0, none⟩ ∧ [(⟨7, 0, 0, none⟩ : StripeAt)].length = directStripes (((fDi.band 7).map (·.k)).getD 16) ∧
    fDi.failsAt ⟨7, 0, 0, none⟩ = none ∧
    (let r := (fDi.withFw { fDi.fw with direct := [] }).takeSeqs 64; ∃ u m, r.1.putGroup [(portion.mapIdx fun i x => { x with seq := some (r.2.getD i 0) }).map .host] [] ⟨7, 0, 0, none⟩ 0 [⟨7, 0, 0, none⟩] = some (u, m))) ∧
    ((fSt.programsOn = true ∧ fSt.fw.staging = [wt1] ∧ fSt.fw.placed = [] ∧ fSt.fw.ranges = [] ∧ 1 ≤ fSt.stagingAdmits ∧
    (fSt.entryKey 0 5).isSome = true) ∧ (1 ≤ fSt.placeRoom 0 ⟨1, 0, 0, none⟩ ∧ fSt.placeFree 0 ⟨1, 0, 0, none⟩ = true) ∧
    ∃ q, ((fSt.numberPortion wt1).putAt 0 ⟨1, 0, 0, none⟩ [fSt.unitOf { wt1 with seq := some (fSt.fw.seqC ||| 1) }]).map (·.2) = some [q]) :=
  ⟨⟨by decide +kernel, by decide +kernel, by decide +kernel, by decide +kernel, by decide +kernel, by decide +kernel, by decide +kernel, putGroup_of (bd := bandK 7 1 16) _ _ rfl (by decide +kernel) fun x hx => by have := List.all_eq_true.1 (show (groupRows 16 0 [((portion.mapIdx fun i x => { x with seq := some ((((fDi.withFw { fDi.fw with direct := [] }).takeSeqs 64).2).getD i 0) }).map .host)] [] 0).all (fun x => rowFreeB ((fDi.withFw { fDi.fw with direct := [] }).takeSeqs 64).1 true 1 7 x.1 (bandK 7 1 16) && decide (x.1 + 1 < ((fDi.withFw { fDi.fw with direct := [] }).takeSeqs 64).1.rowsOf 1 ∧ if x.2.1 then (bandK 7 1 16).k = 16 ∧ x.2.2.length = 64 else x.2.2.length ≤ 4 * (bandK 7 1 16).k - 1)) = true by decide +kernel) x hx; rw [Bool.and_eq_true, decide_eq_true_eq] at this; exact ⟨rowFree_of this.1, this.2⟩⟩,
  ⟨by decide +kernel, ⟨by decide +kernel, (putAt_of (s := fSt) (use := 0) (w := ⟨1, 0, 0, none⟩) (bd := band3 1 0) rfl rfl (fun r hr => by rw [show r = 0 by simpa [rowsWith, slcUse] using hr]; exact ⟨rowFree_of (by decide +kernel), by decide +kernel⟩) [] (by decide)).2.1⟩, by obtain ⟨-, -, t, ps, h, hl⟩ := putAt_of (s := fSt.numberPortion wt1) (use := 0) (w := ⟨1, 0, 0, none⟩) (bd := band3 1 0) rfl rfl (fun r hr => by rw [show r = 0 by simpa [rowsWith, slcUse] using hr]; exact ⟨rowFree_of (by decide +kernel), by decide +kernel⟩) [fSt.unitOf { wt1 with seq := some (fSt.fw.seqC ||| 1) }] (by decide); rw [h]; match ps, hl with | [q], _ => exact ⟨q, rfl⟩⟩⟩
theorem witness_recovers :
    fRe.fld fARC_MODE_CUR = 1 ∧ tabWf fRe.fw.bands = true ∧ ∀ e ∈ fRe.fw.bands, e.1 ≤ fRe.fw.bandSerial :=
  by decide +kernel

/-! ### LossesRepairAndPatrol -/

theorem witness_lossAndRepair :
    (((tget off1.fw.offlineAt 3).isSome = true ∧ off1.dieLost 3 = false) ∧ (fRp.programsOn = true ∧ fRp.backgroundOn = true ∧
    fRp.fw.repairs = [(2 ^ 19, 0)] ∧ fRp.stripeUse (2 ^ 19) ∉ [4, 5, 6]) ∧ (off1.programsOn = true ∧ off1.backgroundOn = true ∧
    off1.nextRebuild = none)) ∧
    (fRb.programsOn = true ∧ fRb.backgroundOn = true ∧ ∃ n, fRb.nextRebuild = some n) :=
  ⟨by decide +kernel,
  ⟨by decide +kernel, by decide +kernel, nextRebuild_one (bd := band3 1 0) (n := 1) rfl (by decide +kernel) (by decide +kernel) (by decide +kernel) (by decide +kernel) rfl (by decide +kernel) (by decide +kernel)⟩⟩
theorem witness_patrolAndJournal :
    (off1.backgroundOn = true) ∧ ((fCp 2).dieLost 48 = false ∧ (fCp 2).leastWorn 48 = some (48 * 2 ^ 17 + 5) ∧ (fCp 2).fw.copyBad = none ∧
    (fCp 2).fw.copies.length < 3 ∧ (∀ c ∈ (fCp 2).fw.copies, c.1 / 16 ≠ 48 / 16) ∧ Claims.JournalHasRoom (fCp 2)) ∧ ((fCp 3).dieLost 48 = false ∧
    (fCp 3).leastWorn 48 = some (48 * 2 ^ 17 + 5) ∧ (fCp 3).fw.copyBad = none ∧ (fCp 3).fw.copies.length = 3 ∧
    (∀ c ∈ (fCp 3).fw.copies, (fCp 3).dieLost c.1 = false) ∧ Claims.JournalHasRoom (fCp 3)) ∧ ((fCp 3).dieLost 48 = false ∧
    (fCp 3).leastWorn 48 = some (48 * 2 ^ 17 + 5) ∧ (fCp 3).fw.copyBad = none ∧ (fCp 3).fw.copies.length = 3 ∧
    (∀ c ∈ (fCp 3).fw.copies, c.1 / 16 ≠ 48 / 16) ∧ Claims.JournalHasRoom (fCp 3)) :=
  by simp only [Claims.JournalHasRoom]; decide +kernel
theorem witness_reshapes :
    (fRs.fw.reshapeState = 0 ∧ fRs.fld fARC_MODE_CUR ∉ [7, 8, 9] ∧ 4 + 2 ≤ fRs.goodChannels ∧ 4 ≠ fRs.fw.shapeK ∧ ∃ e ∈ fRs.fw.bands, e.2.state ≠ 2 ∧
    e.2.k ≠ 4 ∧ fRs.bandEmpty e.1 = false) ∧ (fRs2.fw.reshapeState = 0 ∧ fRs2.fld fARC_MODE_CUR ∉ [7, 8, 9] ∧ 4 + 2 ≤ fRs2.goodChannels ∧
    4 ≠ fRs2.fw.shapeK ∧ ∀ e ∈ fRs2.fw.bands, e.2.state = 2) ∧ (fRs3.fw.reshapeState = 2 ∧ fRs3.fld fARC_MODE_CUR ∈ [7, 8, 9]) :=
  by decide +kernel

/-! ### SequencersTrain -/

theorem witness_trainingEnds :
    (((tr 1).sq 0).training = 1) ∧ (((tr 1).sq 0).training = 1 ∧ ((tr 1).sq 0).retrimFails = 0) ∧ (((tr 1 1).sq 0).training = 1 ∧
    1 ≤ ((tr 1 1).sq 0).retrimFails ∧ Claims.Trainable (tr 1 1) 0) ∧ (((tr 2).sq 0).training = 2 ∧ 15#4 = 15#4) ∧ (((tr 2).sq 0).training = 2 ∧
    0#4 = 0#4) ∧ (((tr 3).sq 0).training = 3) :=
  by simp only [Claims.Trainable]; decide +kernel
theorem witness_trainingStarts :
    (Claims.Trainable Q0 0 ∧ Q0.fld (fPSQ_CTL_EN 0) = 0 ∧ Q0.ctlStoreFault 0 (rPSQ_CTL 0) (setBits (Q0.reg (rPSQ_CTL 0)) 0 1 1) = none) ∧
    (Claims.Trainable Q0 0 ∧ Q0.ctlStoreFault 0 (rPSQ_RATE 0) (BitVec.ofNat 64 (2 + 2400 * 2 ^ 8 + 2 ^ 20)) = none) ∧ (Claims.Trainable Q0 0 ∧
    Q0.ctlStoreFault 0 (rPSQ_TRAIN 0) (1#64) = none) ∧ (Claims.Trainable Q0 0 ∧ (Q0.sq 0).training = 0 ∧
    Q0.ctlStoreFault 0 (rPSQ_TRAIN 0) (2#64) = none) ∧ (Claims.Trainable Q0 0 ∧ (Q0.sq 0).training = 0) :=
  by simp only [Claims.Trainable]; decide +kernel

/-! ### SequencersServeAndFail -/

theorem witness_diesAnswer :
    ((∃ r ∈ (erQ.runningOn 0 0).head?, erQ.psqReach 0 = true ∧ erQ.runningOn 0 0 = [r] ∧ erQ.flt.armed = [] ∧ erQ.epAbsent r.replyEp = false ∧
    r.sensed = false ∧ r.op = 3) ∧ (∃ r ∈ (rd1Q.runningOn 0 0).head?, rd1Q.psqReach 0 = true ∧ rd1Q.runningOn 0 0 = [r] ∧ rd1Q.flt.armed = [] ∧
    rd1Q.epAbsent r.replyEp = false ∧ r.sensed = false ∧ r.op = 1 ∧ r.masked ≠ []) ∧ (∃ r ∈ (rd1Q.runningOn 0 0).head?, rd1Q.psqReach 0 = true ∧
    rd1Q.runningOn 0 0 = [r] ∧ rd1Q.flt.armed = [] ∧ rd1Q.epAbsent r.replyEp = false) ∧ (phQ.psqReach 0 = true ∧ ∃ r ∈ phQ.lunReqs 0 0, r.phase = 3 ∧
    phQ.epAbsent r.replyEp = false)) ∧
    ((pgM.psqReach 0 = true ∧ pgM.runningOn 0 0 = [pgR] ∧ pgM.flt.armed = [] ∧ pgM.epAbsent pgR.replyEp = false ∧ pgR.sensed = false ∧ pgR.op = 2) ∧
    pgM.badBeads pgR [] = 0) :=
  ⟨by decide +kernel,
  ⟨by decide +kernel, badBeads_none (lo := 7) (n := 4) rfl (by decide) (by decide +kernel) (by decide +kernel)⟩⟩
theorem witness_requestsAreTaken :
    32 ≤ nat_lit 32 ∧ nat_lit 32 ≤ 47 :=
  by decide +kernel
theorem witness_sequencersFail :
    (erQ.part.seqOn 0 = true ∧ (erQ.sq 0).lost = false ∧ erQ.fld (fPSQ_STAT_STATE 0) ≠ 6 ∧ erQ.fld (fPSQ_CTL_CHAN 0) ≠ 63 ∧
    (erQ.sq 0).tookOverAt = none ∧ ∃ sp ∈ erQ.psqSpare, True) ∧ (noSp.part.seqOn 0 = true ∧ (noSp.sq 0).lost = false ∧
    noSp.fld (fPSQ_STAT_STATE 0) ≠ 6 ∧ noSp.fld (fPSQ_CTL_CHAN 0) ≠ 63 ∧ (noSp.sq 0).tookOverAt = none ∧ noSp.psqSpare = none) ∧
    (spQ.part.seqOn 32 = true ∧ (spQ.sq 32).lost = false ∧ (spQ.sq 32).loading = true) ∧ (spQ.part.seqOn 32 = true ∧ (spQ.sq 32).lost = false ∧
    (spQ.sq 32).loading = true ∧ ∃ sp ∈ spQ.psqSpare, sp ≠ 32) :=
  by decide +kernel

/-! ### MicrowordsSequence -/

theorem witness_microwordsSequence :
    ((Claims.MicroLegal (mic 0 0) (0 : Fin 34) 0) ∧ (Claims.MicroLegal (mic 1 5) (0 : Fin 34) 1) ∧ (Claims.MicroLegal (mic 2 0) (0 : Fin 34) 2) ∧
    (Claims.MicroLegal (mic 3 5) (0 : Fin 34) 3 ∧ nanoBits ((mic 3 5).nanoWord 0 (microNano ((mic 3 5).microWord 0))) 44 1 = 0) ∧
    (Claims.MicroLegal (mic 4 291) (0 : Fin 34) 4 ∧ (mic 4 291).farIllegal 0 (microArg ((mic 4 291).microWord 0)) = false) ∧
    (Claims.MicroLegal (mic 5 291) (0 : Fin 34) 5 ∧ (mic 5 291).farIllegal 0 (microArg ((mic 5 291).microWord 0)) = false ∧
    ((mic 5 291).sq 0).stack.length < 4) ∧ (∃ x ∈ ((stk [9, 1] (mic 6 0)).sq 0).stack.head?, Claims.MicroLegal (stk [9, 1] (mic 6 0)) (0 : Fin 34) 6 ∧
    ((stk [9, 1] (mic 6 0)).sq 0).stack = x :: ((stk [9, 1] (mic 6 0)).sq 0).stack.tail)) ∧
    (∃ r ∈ (mic 7 3).microReq 0, Claims.MicroLegal (mic 7 3) (0 : Fin 34) 7 ∧ (mic 7 3).psqReach 0 = true ∧
    nanoBits ((mic 7 3).nanoWord 0 (microNano ((mic 7 3).microWord 0))) 49 2 = 0 ∧ (mic 7 3).epAbsent r.replyEp = false) :=
  ⟨by simp only [Claims.MicroLegal]; decide +kernel,
  by simp only [Claims.MicroLegal]; decide +kernel⟩

/-! ### SlotsAndAssay -/

theorem witness_assayCommands :
    (evS.ctlStoreFault 112 rASY_CTL ((fun b => setBits (setBits (evS.reg rASY_CTL) 1 3 0) b 1 1) 1) = none ∧ evS.fld fASY_STAT_READY = 0 ∧
    evS.fld fASY_STAT_BUSY = 0) ∧ ((ld1.assay.work = 1 ∨ ld1.assay.work = 3) ∧ ld1.fw.lostDies = [] ∧ ld1.fw.offlineAt = []) ∧
    (evS.ctlStoreFault 112 rASY_CTL ((fun b => setBits (setBits (evS.reg rASY_CTL) 1 3 0) b 1 1) 2) = none ∧ evS.fld fASY_STAT_BUSY = 0) ∧
    (sn1.assay.work = 2 ∧ sn1.fld fASY_STAT_READY = 1) ∧
    (evS.ctlStoreFault 112 rASY_CTL ((fun b => setBits (setBits (evS.reg rASY_CTL) 1 3 0) b 1 1) 3) = none) ∧
    (evS.ctlStoreFault 112 rASY_ECMD (BitVec.ofNat 64 (1 + 8 * b2n true)) = none) ∧
    (evS.ctlStoreFault 112 rASY_ECMD (BitVec.ofNat 64 (2 + 8 * b2n true)) = none) ∧
    (evS.ctlStoreFault 112 rASY_ECMD (BitVec.ofNat 64 (3 + 8 * b2n true)) = none) :=
  by decide +kernel
theorem witness_records :
    (∃ r ∈ (AS lr).assay.input.head?, (AS lr).assay.input = r :: (AS lr).assay.input.tail ∧ ¬((AS lr).fld fASY_CTL_LEARN = 1 ∧
    (AS lr).fld fASY_STAT_READY = 1)) ∧
    (∃ rest, (AR recB).assay.input = recB :: rest ∧ (AR recB).fld fASY_CTL_LEARN = 1 ∧ (AR recB).fld fASY_STAT_READY = 1 ∧ recB.selector % 64 ≠ 0) ∧
    (∃ rest, (recM ARf).assay.input = lr :: rest ∧ (recM ARf).fld fASY_CTL_LEARN = 1 ∧ (recM ARf).fld fASY_STAT_READY = 1 ∧ (lr).selector % 64 = 0 ∧
    (let o := (recM ARf).readOutcome 0 (tableAddr (recM ARf) ((recM ARf).recordEntry lr)) .clean .assay 116; o.2 = false ∧
    o.1.mem.poisoned (tableAddr (recM ARf) ((recM ARf).recordEntry lr)) = false) ∧ ((recM ARf).asyEntry ((recM ARf).recordEntry lr)).frozen = true) ∧
    (∃ rest, (recM (AR lr)).assay.input = lr :: rest ∧ (recM (AR lr)).fld fASY_CTL_LEARN = 1 ∧ (recM (AR lr)).fld fASY_STAT_READY = 1 ∧
    (lr).selector % 64 = 0 ∧
    (let o := (recM (AR lr)).readOutcome 0 (tableAddr (recM (AR lr)) ((recM (AR lr)).recordEntry lr)) .clean .assay 116; o.2 = false ∧
    o.1.mem.poisoned (tableAddr (recM (AR lr)) ((recM (AR lr)).recordEntry lr)) = false) ∧ (lr).flags % 64 = 0 ∧
    ((recM (AR lr)).asyEntry ((recM (AR lr)).recordEntry lr)).frozen = false ∧
    ∀ k ∈ (recM (AR lr)).recordLevels lr, (lr).offsets.getD (k - 1) 0 = ((recM (AR lr)).appliedOf ((recM (AR lr)).recordEntry lr)).getD (k - 1) 0) :=
  ⟨by decide +kernel,
  ⟨_, rfl, by decide +kernel⟩,
  ⟨_, rfl, by decide +kernel⟩,
  ⟨_, rfl, by decide +kernel⟩⟩
theorem witness_slots :
    (∃ q ∈ cap0.seqOf 0, ∃ r ∈ cap0.transferring q, ∃ w ∈ Option.map (fun q => q.fst) (cap0.nextTransfer 0 r), cap0.seqOf 0 = some q ∧
    cap0.flag (fLPE_CTL_EN 0) = true ∧ (cap0.sq q).training = 0 ∧ cap0.claspState (psqClasp q) = clClosed ∧ cap0.softWaiting 0 < 4 ∧
    cap0.flt.armed = [] ∧ cap0.transferring q = some r ∧ cap0.nextTransfer 0 r = some (w, false)) ∧
    (∃ q ∈ capN.seqOf 0, ∃ r ∈ List.find? (fun r => r.isRead && r.phase == 1 && (capN.slotReady 0 r).isSome) (capN.sq q).shadow, ∃ w ∈ capN.slotReady 0 r, capN.seqOf 0 = some q ∧
    List.find? (fun r => r.isRead && r.phase == 1 && (capN.slotReady 0 r).isSome) (capN.sq q).shadow = some r ∧ ∃ x, x ∈ r.slots ∧ x.slot ≠ w.slot ∧
    x.result = none) :=
  by decide +kernel

/-! ### ParityIsEncodedRebuiltAndChecked -/

theorem witness_parity_1 : Claims.ParityJob (pz (pzm 1 0 0) []) 1 (pzm 1 0 0) [] ∧ (parseParReq (pzm 1 0 0)).at 4 ≠ (parseParReq (pzm 1 0 0)).at 5 :=
  ⟨pz_job rfl (by decide +kernel) (by decide +kernel), by decide +kernel⟩
theorem witness_parity_2 : Claims.ParityJob (pz (pzm 2 1 0) []) 2 (pzm 2 1 0) [] ∧ ((parseParReq (pzm 2 1 0)).a < (parseParReq (pzm 2 1 0)).k ∧ (parseParReq (pzm 2 1 0)).present 4 = true) ∧
   zeroSpan.length = 520 ∧ (pz (pzm 2 1 0) []).mem.span ((parseParReq (pzm 2 1 0)).at 4) = xorSpan zeroSpan (sumP ((pz (pzm 2 1 0) []).parData (parseParReq (pzm 2 1 0)) [1])) :=
  ⟨pz_job rfl (by decide +kernel) (by decide +kernel), by decide +kernel, by decide +kernel, by
    rw [pz_span _ _ (by decide +kernel) (Or.inr rfl), pz_data _ (by decide +kernel) (by decide +kernel), sumP_zero, xor_zero]⟩
theorem witness_parity_3 : Claims.ParityJob (pz (pzm 3 1 3) []) 3 (pzm 3 1 3) [] ∧ ((parseParReq (pzm 3 1 3)).b < (parseParReq (pzm 3 1 3)).k ∧ (parseParReq (pzm 3 1 3)).at 1 ≠ (parseParReq (pzm 3 1 3)).at 3) ∧
   (pz (pzm 3 1 3) []).mem.span ((parseParReq (pzm 3 1 3)).at 4) = xorSpan (xorSpan zeroSpan zeroSpan) (sumP ((pz (pzm 3 1 3) []).parData (parseParReq (pzm 3 1 3)) [1, 3])) ∧
   (pz (pzm 3 1 3) []).mem.span ((parseParReq (pzm 3 1 3)).at 5) = xorSpan (xorSpan (scaleSpan (gfPow 1) zeroSpan) (scaleSpan (gfPow 3) zeroSpan)) (sumQ ((pz (pzm 3 1 3) []).parData (parseParReq (pzm 3 1 3)) [1, 3])) :=
  ⟨pz_job rfl (by decide +kernel) (by decide +kernel), by decide +kernel, by
    rw [pz_span _ _ (by decide +kernel) (Or.inr rfl), pz_data _ (by decide +kernel) (by decide +kernel), sumP_zero, xor_zero, xor_zero], by
    rw [pz_span _ _ (by decide +kernel) (Or.inr rfl), pz_data _ (by decide +kernel) (by decide +kernel), sumQ_zero _ (below4 _), scale_zero 1 (by decide), scale_zero 3 (by decide), xor_zero, xor_zero]⟩
theorem witness_parity_4 : Claims.ParityJob (pz (pzm 4 0 0) []) 4 (pzm 4 0 0) [] ∧ (pz (pzm 4 0 0) []).mem.span ((parseParReq (pzm 4 0 0)).at 4) = sumP ((pz (pzm 4 0 0) []).parData (parseParReq (pzm 4 0 0)) []) ∧
   (pz (pzm 4 0 0) []).mem.span ((parseParReq (pzm 4 0 0)).at 5) = sumQ ((pz (pzm 4 0 0) []).parData (parseParReq (pzm 4 0 0)) []) :=
  ⟨pz_job rfl (by decide +kernel) (by decide +kernel), by
    rw [pz_span _ _ (by decide +kernel) (Or.inr rfl), pz_data _ (by decide +kernel) (by decide +kernel), sumP_zero], by
    rw [pz_span _ _ (by decide +kernel) (Or.inr rfl), pz_data _ (by decide +kernel) (by decide +kernel), sumQ_zero _ (below4 _)]⟩
theorem witness_parity_5 : Claims.ParityJob (pz (pzm 4 0 0) [1#64]) 4 (pzm 4 0 0) [] ∧ (pz (pzm 4 0 0) [1#64]).parMismatches (parseParReq (pzm 4 0 0)) ≠ [] ∧ (pz (pzm 4 0 0) [1#64]).fld fPAR_CTL_CHKSTOP = 0 := by
  refine ⟨pz_job rfl (by decide +kernel) (by decide +kernel), ?_, by decide +kernel⟩
  refine List.ne_nil_of_mem (a := (0, 1#8, 1#8)) (List.mem_filterMap.2 ⟨0, List.mem_range.2 (by decide), ?_⟩)
  have h7 : (pz (pzm 4 0 0) [1#64]).mem.span 7 = 1#64 :: List.replicate 519 0#64 := by
    show (beadMem 7 6 _).span 7 = _
    rw [Mem.span, beadMem_doubles _ (by decide) (by decide), beadMem_metaDoubles _ (by decide) (by decide) (by decide)]
    rw [List.range_succ_eq_map, List.map_cons, List.map_map]
    show 1#64 :: ((List.range 511).map (fun _ => 0#64) ++ List.replicate 8 0#64) = _
    rw [List.map_const', List.length_range, List.replicate_append_replicate]
  have hd : (pz (pzm 4 0 0) [1#64]).parData (parseParReq (pzm 4 0 0)) [] =
      [(0, 1#64 :: List.replicate 519 0#64), (1, zeroSpan), (2, zeroSpan), (3, zeroSpan)] := by
    have e : (pz (pzm 4 0 0) [1#64]).parData (parseParReq (pzm 4 0 0)) [] = [7, 8, 9, 10].mapIdx fun i b => (i, (pz (pzm 4 0 0) [1#64]).mem.span b) := by
      rw [State.parData, show (parseParReq (pzm 4 0 0)).k = 4 by decide +kernel]
      have : ∀ i ∈ [0, 1, 2, 3], (parseParReq (pzm 4 0 0)).at i = i + 7 := by decide +kernel
      have h0 := this 0 (by decide); have h1 := this 1 (by decide); have h2 := this 2 (by decide); have h3 := this 3 (by decide)
      rw [show (List.range 4).filter (fun i => !([] : List Nat).contains i) = [0, 1, 2, 3] by decide]
      simp only [List.map_cons, List.map_nil, h0, h1, h2, h3]; rfl
    rw [e]
    simp only [List.mapIdx_cons, List.mapIdx_nil, h7, pz_span _ _ (b := 8) (by decide) (Or.inl (by decide)), pz_span _ _ (b := 9) (by decide) (Or.inl (by decide)),
      pz_span _ _ (b := 10) (by decide) (Or.inl (by decide))]
  rw [hd, show (parseParReq (pzm 4 0 0)).at (parseParReq (pzm 4 0 0)).k = 11 by decide +kernel, show (parseParReq (pzm 4 0 0)).at ((parseParReq (pzm 4 0 0)).k + 1) = 12 by decide +kernel,
    pz_span _ _ (b := 11) (by decide) (Or.inl (by decide)), pz_span _ _ (b := 12) (by decide) (Or.inl (by decide))]
  decide +kernel
theorem witness_parity_6 : let m := prm 1 3 0 0 [7, 8, 9, 10, 11, 12]; (pz m []).box 115 0 = [m] ∧ (pz m []).fld fPAR_CTL_EN = 1 ∧ (pz m []).par.length < (pz m []).fld fPAR_CFG_SLOTS ∧ (pz m []).parValid (parseParReq m) = false ∧ (pz m []).epAbsent (parseParReq m).ep = false ∧ (parseParReq m).op = 1 := ⟨rfl, by decide +kernel⟩
theorem witness_parity_7 : let s : State := { sB with par := [(parseParReq (pzm 4 0 0)).job 0] }; s.par = (parseParReq (pzm 4 0 0)).job 0 :: [] ∧ s.epAbsent ((parseParReq (pzm 4 0 0)).job 0).replyEp = false := by decide +kernel

/-! ### SignetServesAndOpal -/

theorem witness_opal :
    ((sB.fld fSIG_STAT_ERR = 0) ∧ (sB.fld fSIG_STAT_ERR = 0 ∧ sB.sig.opal = none ∧ OpalMethod.endSession ≠ OpalMethod.blockSid) ∧
    (∃ o ∈ (opS 2 false).sig.opal, (opS 2 false).fld fSIG_STAT_ERR = 0 ∧ isAdmin o.authority = true ∧ o.writable = true ∧
    ∃ y ∈ (opS 2 false).range 0, 0 < 320 ∧ y.readEnabled = true ∧ y.writeEnabled = true) ∧
    (∃ o ∈ (opS 2 false).sig.opal, (opS 2 false).fld fSIG_STAT_ERR = 0 ∧ isAdmin o.authority = true ∧ o.writable = true ∧
    ∃ y ∈ (opS 2 false).range 0, o.inTx = false) ∧ (∃ o ∈ (opS 2 false).sig.opal, (opS 2 false).fld fSIG_STAT_ERR = 0 ∧ o.authority = 2 ∧
    o.writable = true) ∧ (∃ o ∈ (opS 2 false).sig.opal, (opS 2 false).fld fSIG_STAT_ERR = 0 ∧ o.inTx = false) ∧
    (∃ o ∈ (opS 2 true).sig.opal, (opS 2 true).fld fSIG_STAT_ERR = 0 ∧ o.inTx = true) ∧
    (∃ o ∈ (opS 2 false).sig.opal, (opS 2 false).fld fSIG_STAT_ERR = 0) ∧ (∃ o ∈ (opS 1 false).sig.opal, (opS 1 false).fld fSIG_STAT_ERR = 0 ∧
    o.authority = 1)) ∧
    ((opR 1).fld fSIG_STAT_ERR = 0 ∧ (opR 1).sig.opal = none ∧ ((opR 1).auth 1).barred = false ∧ ((opR 1).auth 1).enabled = true ∧
    (opR 1).sidBlocked 1 = false ∧ Config.pinDigest 1 5#256 = ((opR 1).auth 1).pin) ∧
    ((opW 1).fld fSIG_STAT_ERR = 0 ∧ (opW 1).sig.opal = none ∧ ((opW 1).auth 1).barred = false ∧ ((opW 1).auth 1).enabled = true ∧
    (opW 1).sidBlocked 1 = false ∧ Config.pinDigest 1 5#256 ≠ ((opW 1).auth 1).pin) :=
  ⟨by decide +kernel,
  ⟨by decide +kernel, by decide +kernel, by decide +kernel, by decide +kernel, by decide +kernel, rfl⟩,
  ⟨by decide +kernel, by decide +kernel, by decide +kernel, by decide +kernel, by decide +kernel, fun h => add_one_ne (Config.pinDigest 1 5#256) h.symm⟩⟩
theorem witness_services :
    (Claims.Asked (sv sB P1_) 9 1 P1_) ∧ (Claims.Asked (sv sB P2_) 9 2 P2_) ∧ (Claims.Asked (sv sB P3_) 9 3 P3_ ∧ pGet P3_ 10 1 = 0) ∧
    (Claims.Asked (sv sB P4_) 9 4 P4_) ∧ (Claims.Asked (sv sB P5_) 9 5 P5_ ∧ pGet P5_ 8 1 = 1) ∧ (Claims.Asked (sv sB P5b) 9 5 P5b ∧
    ¬pGet P5b 8 1 ∈ [1, 2, 3]) ∧ (Claims.Asked s6 9 6 P6_ ∧ s6.sig.sanState = 1 ∧ s6.fld fARC_MODE_CUR = 6 ∧ s6.sig.sanKeysDone = false) ∧
    (Claims.Asked (sv sB P6_) 9 6 P6_ ∧ (sv sB P6_).sig.sanState ≠ 1) ∧ (Claims.Asked (sv sB P7_) 9 7 P7_ ∧ pGet P7_ 8 1 < 54) ∧
    (Claims.Asked s8b 9 8 P8_ ∧ s8b.keyInUse = true) ∧ (Claims.Asked (sv sB P8_) 9 8 P8_ ∧ (sv sB P8_).keyInUse = false ∧ 0#8 = 0#8) ∧
    (Claims.Asked (sv sB P8_) 9 8 P8_ ∧ (sv sB P8_).keyInUse = false ∧ 1#8 ≠ 0#8) ∧ (Claims.Asked s9 9 9 P9_ ∧ s9.fld fARC_MODE_CUR = 1 ∧
    s9.sig.readyGiven = false ∧ isHealth (pGet P9_ 8 1) = true ∧ s9.sig.sanState ≠ 1 ∧ s9.ns = []) ∧ ((sv sB P1_).fld fSIG_STAT_ERR = 0) :=
  by simp only [asked_iff]; decide +kernel

/-! ### KeyedSessions -/

theorem witness_keyedMessages :
    ((∃ k ∈ kR.sig.ks, Claims.KsMessage kR Carrier.bus 1#32 k none) ∧ (∃ k ∈ (kO 0 11).sig.ks, True) ∧
    (∃ k ∈ kR.sig.ks, Claims.KsMessage kR Carrier.bus 1#32 k (some 0) ∧
    ({ kR with sig := { kR.sig with ks := some { k with inSeq := 1, outSeq := k.outSeq + 1, lastAt := kR.now } } } : State).readPage true 0xC0 0 false 0 16 ≠ none) ∧
    (∃ k ∈ kR.sig.ks, Claims.KsMessage kR Carrier.bus 1#32 k (some 1) ∧ Claims.Healthy kR) ∧
    (∃ k ∈ kR7.sig.ks, Claims.KsMessage kR7 Carrier.bus 1#32 k (some 1) ∧ kR7.fld fARC_MODE_CUR = 7 ∧ kR7.boot.act = none) ∧
    (∃ k ∈ kRA.sig.ks, Claims.KsMessage kRA Carrier.bus 1#32 k (some 2) ∧ kRA.fld fARC_MODE_CUR = 0xA ∧
    kRA.epAbsent (kRA.fld fSIG_NOTE_DST) = false) ∧ (∃ k ∈ kR.sig.ks, Claims.KsMessage kR Carrier.bus 1#32 k (some 3) ∧ 3 &&& k.granted = 3) ∧
    (∃ k ∈ kR.sig.ks, Claims.KsMessage kR Carrier.bus 1#32 k (some 3) ∧ kR.sig.imageKey = none)) ∧
    ((∃ k ∈ kR.sig.ks, Claims.KsMessage kR Carrier.bus 1#32 k (some 3) ∧ 2 ≠ k.keyId ∧ (tget kR.sig.keys 2).isSome = true) ∧
    (∃ k ∈ kR.sig.ks, Claims.KsMessage kR Carrier.bus 1#32 k (some 3) ∧ kR.sig.approved ≠ true) ∧
    (∃ k ∈ kR.sig.ks, Claims.KsMessage kR Carrier.bus 1#32 k (some 3) ∧ kR.sig.approved = false) ∧
    (∃ k ∈ kR.sig.ks, Claims.KsMessage kR Carrier.bus 1#32 k (some 3)) ∧ (∃ k ∈ kR.sig.ks, Claims.KsMessage kR Carrier.bus 1#32 k (some 4))) :=
  ⟨by simp only [Claims.Healthy, Claims.KsMessage, Claims.Reaches]; decide +kernel,
  by simp only [Claims.KsMessage, Claims.Reaches]; decide +kernel⟩
theorem witness_keyedOpening :
    ((∃ key ∈ tget kB.sig.keys 0, Claims.Reaches kB Carrier.bus ∧ kB.fld fSIG_STAT_ERR = 0 ∧
    (∀ (j : KSession), kB.sig.ks = some j → j.proved = false) ∧ key.barredUntil ≤ kB.now) ∧ (∃ k ∈ kR.sig.ks, Claims.Reaches kR Carrier.bus ∧
    kR.fld fSIG_STAT_ERR = 0 ∧ k.proved = true) ∧
    (∃ k ∈ (kO 0 11).sig.ks, ∃ key ∈ tget (kO 0 11).sig.keys k.keyId, Claims.Reaches (kO 0 11) Carrier.bus ∧ (kO 0 11).fld fSIG_STAT_ERR = 0 ∧
    k.proved = false ∧ (k.requested &&& key.mask).testBit 2 = false ∧ (k.requested &&& key.mask).testBit 4 = false)) ∧
    ((∃ k ∈ (kO 0 11).sig.ks, ∃ key ∈ tget (kO 0 11).sig.keys k.keyId, Claims.Reaches (kO 0 11) Carrier.bus ∧ (kO 0 11).fld fSIG_STAT_ERR = 0 ∧
    k.proved = false) ∧ ∀ x : BitVec 384, ∃ proof, proof ≠ x) :=
  ⟨by simp only [Claims.Reaches]; decide +kernel,
  ⟨by simp only [Claims.Reaches]; decide +kernel, fun x => ⟨x + 1#384, add_one_ne x⟩⟩⟩

/-! ### SpdmResponds -/

theorem witness_spdmResponds :
    ((Claims.SpdmServes (sp0 false false false kB) Carrier.bus) ∧ (Claims.SpdmServes (sp0 true false false kB) Carrier.bus ∧
    (sp0 true false false kB).sig.spdm.version = true) ∧ (Claims.SpdmServes (sp0 true true false kB) Carrier.bus ∧
    (sp0 true true false kB).sig.spdm.capabilities = true ∧ BitVec.getLsbD 130#32 7 = true ∧ BitVec.getLsbD 130#32 1 = true) ∧
    (Claims.SpdmServes (sp0 false false false kB) Carrier.bus ∧ (sp0 false false false kB).sig.spdm.algorithms = false) ∧
    (Claims.SpdmServes (sp0 true true true kB) Carrier.bus ∧ (sp0 true true true kB).sig.spdm.algorithms = true) ∧
    (∃ c ∈ (sp0 true true true kB).spdmChain 0, Claims.SpdmServes (sp0 true true true kB) Carrier.bus ∧
    (sp0 true true true kB).sig.spdm.algorithms = true ∧ 0 ≤ c.length) ∧
    (∃ c ∈ (sp0 true true true kB).spdmChain 0, Claims.SpdmServes (sp0 true true true kB) Carrier.bus ∧
    (sp0 true true true kB).sig.spdm.algorithms = true)) ∧
    ((∃ k ∈ (sp0 true true true kR).sig.ks, Claims.SpdmServes (sp0 true true true kR) Carrier.bus ∧
    (sp0 true true true kR).sig.spdm.algorithms = true ∧ k.proved = true ∧ k.granted.testBit 3 = true) ∧
    (Claims.SpdmServes (sp0 true true true kB) Carrier.bus ∧ (sp0 true true true kB).sig.spdm.algorithms = true ∧
    (sp0 true true true kB).sig.ks = none)) :=
  ⟨by simp only [Claims.Reaches, Claims.SpdmServes]; decide +kernel,
  by simp only [Claims.Reaches, Claims.SpdmServes]; decide +kernel⟩

/-! ### ManagementIsServed -/

theorem witness_mctp :
    ((pw 2 kB).fld fPWR_STAT_STATE = 2 ∨ (pw 2 kB).fld fPWR_STAT_STATE = 3) ∧ (¬(pw 1 kB).fld fPWR_STAT_STATE ∈ [2, 3, 4] ∧ 0 < 2 ∧ 1#8 ≠ 0#8 ∧
    1#8 ≠ 255#8) ∧ (¬(pw 1 kB).fld fPWR_STAT_STATE ∈ [2, 3, 4] ∧ 2 ≤ 2) ∧ (¬(pw 1 kB).fld fPWR_STAT_STATE ∈ [2, 3, 4]) ∧
    (¬(pw 1 kB).fld fPWR_STAT_STATE ∈ [2, 3, 4] ∧ ¬1#8 ∈ [0#8, 4#8, 5#8, 126#8, 255#8]) ∧ (¬(pw 1 kB).fld fPWR_STAT_STATE ∈ [2, 3, 4] ∧ 1#8 ≠ 0#8) :=
  by decide +kernel
theorem witness_nvmeMi :
    (¬(sB.setFld fARC_MODE_CUR 0).fld fPWR_STAT_STATE ∈ [2, 3, 4] ∧ (sB.setFld fARC_MODE_CUR 0).fld fARC_MODE_CUR = 0) ∧
    ((sB.fld fPWR_STAT_STATE ∉ [2, 3, 4] ∧ sB.fld fARC_MODE_CUR ≠ 0) ∧ ((0#32).toNat / 2 ^ 24 = 0 ∧ 5 ≤ (0x05000000#32).toNat / 2 ^ 24 ∧
    (1#32).toNat % 65536 ≤ 1 ∧ (1#32).toNat % 256 = 1 ∧ (3#32).toNat % 256 = 3 ∧ (0x201#32).toNat % 256 = 1 ∧ 1 ≤ (0x201#32).toNat / 256 % 16 ∧
    (0x201#32).toNat / 256 % 16 ≤ 3 ∧ (65#32).toNat % 65536 ≠ 64) ∧ (cmdOp (mi 0x0A) = 0x0A ∧ ∃ l dw0, sB.featureAnswer (mi 0x0A) = .ok (l, dw0)) ∧
    cmdOp (mi 0xC0) ∉ [0x02, 0x06, 0x0A] ∧ miAccepted (0x7F#8).toNat false = false) :=
  ⟨by decide +kernel,
  ⟨by decide +kernel, by decide +kernel, ⟨by decide +kernel, _, _, rfl⟩, by decide +kernel, by decide +kernel⟩⟩
theorem witness_nvmeMiInBand :
    ((∃ e ∈ ms1.slot 0, Claims.AdminCommand ms1 0 29 e ∧ e.cmd.dw10.toNat % 256 = 3 ∧ e.cmd.dw11.toNat % 256 = 1 ∧ 1 ≤ e.cmd.dw11.toNat / 256 % 16 ∧
    e.cmd.dw11.toNat / 256 % 16 ≤ 3) ∧ (∃ e ∈ mr1.slot 0, Claims.AdminCommand mr1 0 30 e ∧ e.cmd.dw10.toNat % 256 = 4 ∧ e.cmd.dw11.toNat % 256 = 1) ∧
    (∃ e ∈ mr2.slot 0, Claims.AdminCommand mr2 0 30 e ∧ e.cmd.dw10.toNat % 256 = 1 ∧ mr2.decideBeads (mr2.fld fHQE_GRANT_ACLASS) 1 = Decision.grant)) ∧
    (∃ e ∈ ms2.slot 0, Claims.AdminCommand ms2 0 29 e ∧ e.cmd.dw10.toNat % 256 ≠ 3) :=
  ⟨by simp only [Claims.AdminCommand, mayPost_iff]; decide +kernel,
  admin_of (by decide +kernel) (by decide +kernel)⟩

/-! ### EveryStepKeepsTheInvariant -/

theorem witness_invariant : step State.reset = .next { State.reset with now := 40 }.goesOn ∧ Claims.Inv State.reset := ⟨rfl, reset_mem_wf⟩

end Sys2Proof.Tests
end

section
/-! SUPPORT for O22. What a write of a register comes to (R10, R31, R115): whether it is refused, which block acts on it, and what
the types of its fields make of the value. -/

namespace Sys2Proof.Machine

open Sys2Proof

/-! ### Fields (R10) -/

/-- A field put in place reads back whole when the value fits it. -/
theorem bits_setBits_of_lt (w : Word) (lo n v : Nat) (h : lo + n ≤ 64) (hv : v < 2 ^ n) : bits (setBits w lo n v) lo n = v := by
  rw [bits_setBits_self w lo n v h, Nat.mod_eq_of_lt hv]

theorem bit_setBits_ne (w : Word) (lo n v b : Nat) (hb : b < lo ∨ lo + n ≤ b) : bit (setBits w lo n v) b = bit w b := by
  by_cases h64 : b < 64
  · rw [bit_setBits w lo n v b h64, if_neg (by omega)]
  · simp only [bit, BitVec.getLsbD_of_ge _ _ (Nat.le_of_not_lt h64)]

theorem bits_writeField (old v w : Word) (f : FieldSpec) (hf : f.lo + f.width ≤ 64) :
    bits (writeField old v w f) f.lo f.width =
      (match f.type with
       | .ro => bits w f.lo f.width
       | .wo => bits w f.lo f.width
       | .rw => bits v f.lo f.width
       | .w1c => bits (old &&& ~~~v) f.lo f.width
       | .w1s => bits (old ||| v) f.lo f.width) := by
  unfold writeField
  cases f.type with
  | ro => rfl
  | wo => rfl
  | rw => exact bits_setBits_of_lt _ _ _ _ hf (bits_lt _ _ _)
  | w1c => exact bits_setBits_of_lt _ _ _ _ hf (bits_lt _ _ _)
  | w1s => exact bits_setBits_of_lt _ _ _ _ hf (bits_lt _ _ _)

theorem bit_writeField_ne (old v w : Word) (f : FieldSpec) (b : Nat) (hb : b < f.lo ∨ f.lo + f.width ≤ b) :
    bit (writeField old v w f) b = bit w b := by
  unfold writeField
  cases f.type with
  | ro => rfl
  | wo => rfl
  | rw => exact bit_setBits_ne _ _ _ _ _ hb
  | w1c => exact bit_setBits_ne _ _ _ _ _ hb
  | w1s => exact bit_setBits_ne _ _ _ _ _ hb

/-! ### Stores that are refused and stores that are taken (R31, R115) -/

/-- Only refused writes of `PAD_HOLD` are counted. -/
theorem State.ctlStore_refused (s : State) (who off : Nat) (v : Word) (hoff : off < 0x580000)
    (h : (s.ctlStoreFault who off v).isSome) : s.ctlStore who off v = s := by
  have hpad : off ≠ rPAD_HOLD := by simp only [rPAD_HOLD]; omega
  obtain ⟨d, hd⟩ := Option.isSome_iff_exists.1 h
  simp only [State.ctlStore, hd, State.countRefusal, if_neg hpad]

/-- Only `HQE_LINK` and the registers of clasp 7's island can be away (R115). -/
theorem State.claspAway_eq_none (s : State) (off : Nat) (hlink : off < 0x30000 ∨ 0x40000 ≤ off) (h : off < 0x590000) :
    s.claspAway off = none := by
  have hlink : off ≠ rHQE_LINK := by simp only [rHQE_LINK]; omega
  have hi : islandOf off = none := by rw [islandOf, if_neg hlink, if_neg (by omega)]
  simp only [State.claspAway, hi]

theorem State.ctlStore_taken (s : State) (who off : Nat) (v : Word) (r : RegRow) (hfault : s.ctlStoreFault who off v = none)
    (haway : s.claspAway off = none) (hrow : regRow off = some r) :
    s.ctlStore who off v = s.ctlAct who off (s.reg off) v (writeWord r (s.reg off) v) .clean := by
  simp only [State.ctlStore, hfault, State.ctlWrite, haway, hrow]

/-! ### The blocks whose registers only keep a value -/

/-- The offset lies in the block of a Loupe channel, of the parity engine or of Signet. -/
def InPlainBlock (off : Nat) : Prop :=
  0x400000 ≤ off ∧ off < 0x480000 ∨ 0x510000 ≤ off ∧ off < 0x520000 ∨ 0x540000 ≤ off ∧ off < 0x550000

theorem State.ctlAct_plainBlock (s : State) (who off : Nat) (old v new : Word) (ecc : Ecc) (h : InPlainBlock off) :
    s.ctlAct who off old v new ecc = s.setReg off new := by
  unfold InPlainBlock at h
  have hpsq : isPsqStore off = false := by simp [isPsqStore]; omega
  have hmode : off ≠ rARC_MODE := by simp only [rARC_MODE]; omega
  unfold State.ctlAct
  simp only [hpsq, Bool.false_eq_true, if_false, if_neg hmode]
  obtain h | h | h := h
  · iterate 7 rw [if_neg (by omega)]
    rw [if_pos (by omega)]
  · iterate 9 rw [if_neg (by omega)]
    rw [if_pos (by omega)]
  · iterate 12 rw [if_neg (by omega)]
    rw [if_pos (by omega)]

theorem registerWrites : Claims.registerWrites := by
  intro s who off v hblock
  have hplain : InPlainBlock off.toNat := hblock
  refine ⟨fun hfault r hrow => ⟨s.ctlStore who.toNat off.toNat v, rfl, ?_⟩, fun hfault => ?_⟩
  · have haway := s.claspAway_eq_none off.toNat (by omega) (by omega)
    rw [s.ctlStore_taken _ _ v r hfault haway hrow, s.ctlAct_plainBlock _ _ _ _ _ _ hplain]
    exact ⟨reg_setReg_self _ _ _, fun o ho => reg_setReg_ne _ _ ho.symm, rfl⟩
  · exact congrArg (fun t : State => Host.Outcome.next t.settle) (s.ctlStore_refused _ _ v (by omega) hfault)

/-! ### The Facet block (R96, R101, R102) -/

/-- The offset lies in the Facet block. -/
def InFacetBlock (off : Nat) : Prop := 0x10000 ≤ off ∧ off < 0x20000

theorem State.ctlAct_facetBlock (s : State) (who off : Nat) (old v new : Word) (ecc : Ecc) (h : InFacetBlock off) :
    s.ctlAct who off old v new ecc = s.actFct off old v new := by
  obtain ⟨hlo, hhi⟩ := h
  have hpsq : isPsqStore off = false := by simp [isPsqStore]; omega
  have hmode : off ≠ rARC_MODE := by simp only [rARC_MODE]; omega
  unfold State.ctlAct
  simp only [hpsq, Bool.false_eq_true, if_false, if_neg hmode]
  rw [if_neg (by omega), if_pos hhi]

theorem State.ctlStoreFault_facetBlock (s : State) (who off : Nat) (v : Word) (r : RegRow) (h : InFacetBlock off)
    (hrow : regRow off = some r) : s.ctlStoreFault who off v = if s.refuseFct off v then some 2 else none := by
  obtain ⟨hlo, hhi⟩ := h
  have hfused : s.fusedBlock off = false := by unfold State.fusedBlock; rw [if_neg (by omega), if_neg (by omega)]
  have hpsq : isPsqStore off = false := by simp [isPsqStore]; omega
  have hport : isPortS off = false := by simp [isPortS]; omega
  have hrefused : s.refused who off v = s.refuseFct off v := by
    unfold State.refused
    simp only [hpsq, hport, Bool.or_self, Bool.false_eq_true, if_false]
    rw [if_neg (by omega), if_pos hhi]
  simp [State.ctlStoreFault, hfused, hrow, hrefused]

/-- A write of the Facet block that its rules do not refuse is the block's own action. -/
theorem State.ctlStore_facetBlock (s : State) (who off : Nat) (v : Word) (r : RegRow) (h : InFacetBlock off)
    (hrow : regRow off = some r) (hok : s.refuseFct off v = false) :
    s.ctlStore who off v = s.actFct off (s.reg off) v (writeWord r (s.reg off) v) := by
  have hfault : s.ctlStoreFault who off v = none := by
    rw [s.ctlStoreFault_facetBlock who off v r h hrow, hok]
    rfl
  have ⟨hlo, hhi⟩ := h
  have haway := s.claspAway_eq_none off (by omega) (by omega)
  rw [s.ctlStore_taken who off v r hfault haway hrow, s.ctlAct_facetBlock _ _ _ _ _ _ h]

/-! ### Mailbox depths (R102) -/

/-- The depth field of mailbox `m` in `FCT_MBX`. -/
def depthField (m : Nat) : FieldSpec := ⟨4 * m, 4, .rw, 4⟩

/-- The row of `FCT_MBX`: sixteen depths of four bits each. -/
def depthRow : RegRow := ⟨0x10100, 0, 1, 0x10, 54, (List.range 16).map depthField⟩

theorem regRow_mbx (core : CoreId) : regRow (rFCT_MBX core) = some depthRow := by
  revert core
  decide

theorem regIndex_mbx (core : CoreId) : regIndex (rFCT_MBX core) (rFCT_MBX 0) 0x10 54 = some core.val := by
  revert core
  decide

theorem regIndex_hkey_mbx (core : CoreId) : regIndex (rFCT_MBX core) (rFCT_HKEY 0) 8 6 = none := by
  revert core
  decide

theorem facetBlock_mbx (core : CoreId) : InFacetBlock (rFCT_MBX core) := by
  have := core.isLt
  simp only [InFacetBlock, rFCT_MBX]
  omega

/-- Writing depth fields one after another gives each of them its bits of the value, and leaves the others. -/
theorem bits_foldl_depthField (old v w : Word) (l : List Nat) (hl : ∀ k ∈ l, k < 16) (m : Nat) :
    bits ((l.map depthField).foldl (writeField old v) w) (4 * m) 4 = if m ∈ l then bits v (4 * m) 4 else bits w (4 * m) 4 := by
  induction l generalizing w with
  | nil => rfl
  | cons k l ih =>
    have hk : k < 16 := hl k (by simp)
    rw [List.map_cons, List.foldl_cons, ih _ fun j hj => hl j (List.mem_cons_of_mem _ hj)]
    by_cases hm : m ∈ l
    · rw [if_pos hm, if_pos (List.mem_cons_of_mem _ hm)]
    · by_cases hmk : m = k
      · rw [if_neg hm, if_pos (by simp [hmk]), hmk]
        exact bits_setBits_of_lt _ _ _ _ (by simp only [depthField]; omega) (bits_lt _ _ _)
      · rw [if_neg hm, if_neg (by simp [hm, hmk])]
        exact bits_setBits_ne _ _ _ _ _ _ (by simp only [depthField]; omega)

theorem bits_writeWord_depthRow (old v : Word) (m : Nat) (hm : m < 16) :
    bits (writeWord depthRow old v) (4 * m) 4 = bits v (4 * m) 4 := by
  rw [writeWord, depthRow, bits_foldl_depthField old v old _ (fun k hk => List.mem_range.1 hk) m, if_pos (List.mem_range.2 hm)]

theorem State.refuseFct_mbx (s : State) (core : CoreId) (v : Word) : s.refuseFct (rFCT_MBX core) v = s.badDepths core v := by
  simp only [State.refuseFct, regIndex_mbx]

theorem State.actFct_mbx (s : State) (core : CoreId) (old v new : Word) :
    s.actFct (rFCT_MBX core) old v new = s.setReg (rFCT_MBX core) new := by
  have hck : rFCT_MBX core ≠ rFCT_CKBASE := by simp only [rFCT_MBX, rFCT_CKBASE]; omega
  simp only [State.actFct, if_neg hck, regIndex_hkey_mbx]

theorem fctMbxWrite_taken (s : State) (who : Endpoint) (core : CoreId) (v : Word) (h : s.badDepths core v = false) :
    Claims.RunsThenSettles (.fctMbxWrite who core v) s fun t =>
      (∀ m, m < 16 → t.depth core m = bits v (4 * m) 4) ∧ t = { s with regs := t.regs } := by
  refine ⟨s.ctlStore who.toNat (rFCT_MBX core) v, rfl, ?_⟩
  rw [s.ctlStore_facetBlock _ _ v depthRow (facetBlock_mbx core) (regRow_mbx core) (by rw [s.refuseFct_mbx, h]), s.actFct_mbx]
  refine ⟨fun m hm => ?_, rfl⟩
  rw [State.depth, reg_setReg_self]
  exact bits_writeWord_depthRow _ v m hm

theorem fctMbxWrite_refused (s : State) (who : Endpoint) (core : CoreId) (v : Word) (h : s.badDepths core v = true) :
    exec (.fctMbxWrite who core v) s = .next s.settle := by
  have hfault : (s.ctlStoreFault who.toNat (rFCT_MBX core) v).isSome := by
    rw [s.ctlStoreFault_facetBlock _ _ v depthRow (facetBlock_mbx core) (regRow_mbx core), s.refuseFct_mbx, h]
    rfl
  obtain ⟨hlo, hhi⟩ := facetBlock_mbx core
  exact congrArg (fun t : State => Host.Outcome.next t.settle) (s.ctlStore_refused _ _ v (by omega) hfault)

/-! ### Key slots (R96) -/

/-- The row of `FCT_HKEY`: two write-only words for each of three slots. -/
def keyRow : RegRow := ⟨0x10040, 0, 1, 8, 6, [⟨0, 64, .wo, 0⟩]⟩

/-- Which of the six words of the key slots. -/
def keyWord (slot : KeySlot) (high : Bool) : Nat := 2 * slot + b2n high

theorem regRow_hkey (slot : KeySlot) (high : Bool) : regRow (rFCT_HKEY (keyWord slot high)) = some keyRow := by
  revert slot high
  decide

theorem regIndex_hkey (slot : KeySlot) (high : Bool) :
    regIndex (rFCT_HKEY (keyWord slot high)) (rFCT_HKEY 0) 8 6 = some (keyWord slot high) := by
  revert slot high
  decide

theorem regIndex_mbx_hkey (slot : KeySlot) (high : Bool) : regIndex (rFCT_HKEY (keyWord slot high)) (rFCT_MBX 0) 0x10 54 = none := by
  revert slot high
  decide

theorem facetBlock_hkey (slot : KeySlot) (high : Bool) : InFacetBlock (rFCT_HKEY (keyWord slot high)) := by
  revert slot high
  unfold InFacetBlock
  decide

theorem State.refuseFct_hkey (s : State) (slot : KeySlot) (high : Bool) (v : Word) :
    s.refuseFct (rFCT_HKEY (keyWord slot high)) v = false := by
  simp only [State.refuseFct, regIndex_mbx_hkey]

/-- The low word waits; the high word joins it to the key. -/
theorem State.actFct_hkey (s : State) (slot : KeySlot) (high : Bool) (old v new : Word) :
    s.actFct (rFCT_HKEY (keyWord slot high)) old v new =
      if high then { s with hkeys := tput s.hkeys (slot + 1) (v ++ tgetD s.hkeyLow (slot + 1) 0#64) }
      else { s with hkeyLow := tput s.hkeyLow (slot + 1) v } := by
  have hck : rFCT_HKEY (keyWord slot high) ≠ rFCT_CKBASE := by simp only [rFCT_HKEY, rFCT_CKBASE]; omega
  simp only [State.actFct, if_neg hck, regIndex_hkey]
  cases high with
  | false =>
    have hword : keyWord slot false = 2 * slot := rfl
    have hslot : keyWord slot false / 2 = slot := by omega
    rw [hslot]
    exact if_pos (by omega)
  | true =>
    have hword : keyWord slot true = 2 * slot + 1 := rfl
    have hslot : keyWord slot true / 2 = slot := by omega
    rw [hslot]
    exact if_neg (by omega)

theorem State.ctlStore_hkey (s : State) (who : Nat) (slot : KeySlot) (high : Bool) (v : Word) :
    s.ctlStore who (rFCT_HKEY (keyWord slot high)) v =
      if high then { s with hkeys := tput s.hkeys (slot + 1) (v ++ tgetD s.hkeyLow (slot + 1) 0#64) }
      else { s with hkeyLow := tput s.hkeyLow (slot + 1) v } := by
  rw [s.ctlStore_facetBlock who _ v keyRow (facetBlock_hkey slot high) (regRow_hkey slot high) (s.refuseFct_hkey slot high v),
    s.actFct_hkey]

theorem fctHkeyWrite_low (s : State) (who : Endpoint) (slot : KeySlot) (v : Word) :
    Claims.RunsThenSettles (.fctHkeyWrite who slot false v) s fun t =>
      tget t.hkeyLow (slot + 1) = some v ∧ t.hkeys = s.hkeys := by
  refine ⟨s.ctlStore who.toNat (rFCT_HKEY (keyWord slot false)) v, rfl, ?_⟩
  rw [s.ctlStore_hkey]
  exact ⟨tget_tput_self _ _ _, rfl⟩

theorem fctHkeyWrite_high (s : State) (who : Endpoint) (slot : KeySlot) (v : Word) :
    Claims.RunsThenSettles (.fctHkeyWrite who slot true v) s fun t =>
      tget t.hkeys (slot + 1) = some (v ++ tgetD s.hkeyLow (slot + 1) 0#64) := by
  refine ⟨s.ctlStore who.toNat (rFCT_HKEY (keyWord slot true)) v, rfl, ?_⟩
  rw [s.ctlStore_hkey]
  exact tget_tput_self _ _ _

/-- Settles O22: a write is refused, or the block acts on it; a plain block's action is the register alone, the Facet block's is the
depths of a mailbox or the word of a key. -/
theorem controlSpaceWrites : Obligations.ControlSpaceWrites := by
  refine ⟨registerWrites, fun old v w f hf => ?_, fun s who core slot v => ?_⟩
  · exact ⟨bits_writeField old v w f hf, bit_writeField_ne old v w f⟩
  · exact ⟨fctMbxWrite_taken s who core v, fctMbxWrite_refused s who core v, fctHkeyWrite_low s who slot v,
      fctHkeyWrite_high s who slot v⟩

end Sys2Proof.Machine
end

section
/-! SUPPORT for O60. What a step leaves of the memory's form, of the part and of the installed DRAM, said of every function of the
model that makes a state: one lemma per function, named after it, in the order of the model's files.

`Keeps s₀ s` is what the obligation asks of one state after another, and it composes: each lemma takes `Keeps s₀ s` and gives
`Keeps s₀ (f s)`, so the proof for a function that runs others reads as the chain of its calls. -/

namespace Sys2Proof.Machine

open Sys2Proof

/-- From `s₀` to `s` the memory keeps its canonical form, and the part and its DRAM are the same. -/
structure Keeps (s₀ s : State) : Prop where
  wf : s₀.mem.wf = true → s.mem.wf = true
  part : s.part = s₀.part
  dramMiB : s.dramMiB = s₀.dramMiB

/-- The state of a state and a result. -/
def KeepsFst {α : Type} (s₀ : State) (p : State × α) : Prop := Keeps s₀ p.1

/-- The state, where there is one. -/
def KeepsSome (s₀ : State) (o : Option State) : Prop := ∀ t, o = some t → Keeps s₀ t

/-- The state of a state and a result, where there are such. -/
def KeepsSomeFst {α : Type} (s₀ : State) (o : Option (State × α)) : Prop := ∀ p, o = some p → KeepsFst s₀ p

/-- The next state, where the command runs. -/
def KeepsOut (s₀ : State) (o : Out) : Prop := ∀ t, o = .next t → Keeps s₀ t

variable {s₀ s t : State} {α β : Type} {c : Prop} [Decidable c]

namespace Keeps

theorem refl (s : State) : Keeps s s := ⟨id, rfl, rfl⟩

/-- The memory changes to one as well formed; every other field but the part and the DRAM is free to change. -/
theorem rewrite (h : Keeps s₀ s) {pending free now modeGo regs mem cores entries net mbox txSeq rxSeq hkeys hkeyLow clasps pool map
    evr mec flt hqe ns seqs assay par fw sig boot lkt pwr mgmt} (hm : s.mem.wf = true → mem.wf = true) :
    Keeps s₀ ⟨pending, free, s.part, s.dramMiB, now, modeGo, regs, mem, cores, entries, net, mbox, txSeq, rxSeq, hkeys, hkeyLow,
      clasps, pool, map, evr, mec, flt, hqe, ns, seqs, assay, par, fw, sig, boot, lkt, pwr, mgmt⟩ :=
  ⟨hm ∘ h.wf, h.part, h.dramMiB⟩

/-- Every field but the memory, the part and the DRAM is free to change. -/
theorem update (h : Keeps s₀ s) {pending free now modeGo regs cores entries net mbox txSeq rxSeq hkeys hkeyLow clasps pool map evr
    mec flt hqe ns seqs assay par fw sig boot lkt pwr mgmt} :
    Keeps s₀ ⟨pending, free, s.part, s.dramMiB, now, modeGo, regs, s.mem, cores, entries, net, mbox, txSeq, rxSeq, hkeys, hkeyLow,
      clasps, pool, map, evr, mec, flt, hqe, ns, seqs, assay, par, fw, sig, boot, lkt, pwr, mgmt⟩ :=
  h.rewrite id

/-- What the codes leave (CodesOnly) keeps the form. -/
theorem ofCodes (h : Keeps s₀ s) (k : CodesOnly s t) : Keeps s₀ t :=
  ⟨k.wf ∘ h.wf, k.part.trans h.part, k.dramMiB.trans h.dramMiB⟩

theorem ofEvr (h : Keeps s₀ s) (k : EvrOnly s t) : Keeps s₀ t := h.ofCodes (.ofEvr k)

theorem either {a b : State} (ha : Keeps s₀ a) (hb : Keeps s₀ b) : Keeps s₀ (if c then a else b) := by
  split
  · exact ha
  · exact hb

/-- Names what is known of a state that several branches go on from. -/
theorem andThen {P : Prop} (h : Keeps s₀ s) (k : Keeps s₀ s → P) : P := k h

theorem foldl {f : State → α → State} {l : List α} (h : Keeps s₀ s) (hf : ∀ t a, Keeps s₀ t → Keeps s₀ (f t a)) :
    Keeps s₀ (l.foldl f s) := by
  induction l generalizing s with
  | nil => exact h
  | cons a l ih => exact ih (hf s a h)

theorem foldr {f : α → State → State} {l : List α} (h : Keeps s₀ s) (hf : ∀ a t, Keeps s₀ t → Keeps s₀ (f a t)) :
    Keeps s₀ (l.foldr f s) := by
  induction l with
  | nil => exact h
  | cons a l ih => exact hf a _ ih

end Keeps

namespace KeepsFst

theorem mk {a : α} (h : Keeps s₀ s) : KeepsFst s₀ (s, a) := h

theorem fst {p : State × α} (h : KeepsFst s₀ p) : Keeps s₀ p.1 := h

theorem of_eq {p : State × α} {a : α} (h : KeepsFst s₀ p) (e : p = (t, a)) : Keeps s₀ t := by
  subst e
  exact h

theorem either {a b : State × α} (ha : KeepsFst s₀ a) (hb : KeepsFst s₀ b) : KeepsFst s₀ (if c then a else b) := by
  split
  · exact ha
  · exact hb

theorem andThen {P : Prop} {p : State × α} (h : KeepsFst s₀ p) (k : KeepsFst s₀ p → P) : P := k h

theorem foldl {f : State × α → β → State × α} {l : List β} {p : State × α} (h : KeepsFst s₀ p)
    (hf : ∀ t a, KeepsFst s₀ t → KeepsFst s₀ (f t a)) : KeepsFst s₀ (l.foldl f p) := by
  induction l generalizing p with
  | nil => exact h
  | cons a l ih => exact ih (hf p a h)

end KeepsFst

namespace KeepsSome

theorem some (h : Keeps s₀ s) : KeepsSome s₀ (some s) := fun t e => by
  cases e
  exact h

theorem none : KeepsSome s₀ none := fun _ e => by cases e

theorem of_eq {o : Option State} (h : KeepsSome s₀ o) (e : o = Option.some t) : Keeps s₀ t := h t e

theorem either {a b : Option State} (ha : KeepsSome s₀ a) (hb : KeepsSome s₀ b) : KeepsSome s₀ (if c then a else b) := by
  split
  · exact ha
  · exact hb

theorem getD {o : Option State} (h : KeepsSome s₀ o) (hs : Keeps s₀ s) : Keeps s₀ (o.getD s) := by
  cases o with
  | none => exact hs
  | some t => exact h t rfl

theorem ofMap {o : Option α} {f : α → State} (hf : ∀ a, Keeps s₀ (f a)) : KeepsSome s₀ (o.map f) := by
  cases o with
  | none => exact none
  | some a => exact some (hf a)

theorem bind {o : Option State} {f : State → Option State} (h : KeepsSome s₀ o) (hf : ∀ t, Keeps s₀ t → KeepsSome s₀ (f t)) :
    KeepsSome s₀ (o.bind f) := by
  cases o with
  | none => exact none
  | some t => exact hf t (h t rfl)

end KeepsSome

namespace KeepsSomeFst

theorem some {p : State × α} (h : KeepsFst s₀ p) : KeepsSomeFst s₀ (some p) := fun t e => by
  cases e
  exact h

theorem none : KeepsSomeFst (α := α) s₀ none := fun _ e => by cases e

theorem of_eq {o : Option (State × α)} {a : α} (h : KeepsSomeFst s₀ o) (e : o = Option.some (t, a)) : Keeps s₀ t := h _ e

theorem either {a b : Option (State × α)} (ha : KeepsSomeFst s₀ a) (hb : KeepsSomeFst s₀ b) :
    KeepsSomeFst s₀ (if c then a else b) := by
  split
  · exact ha
  · exact hb

theorem map {o : Option (State × α)} {f : State × α → State × β} (h : KeepsSomeFst s₀ o)
    (hf : ∀ p, KeepsFst s₀ p → KeepsFst s₀ (f p)) : KeepsSomeFst s₀ (o.map f) := by
  cases o with
  | none => exact none
  | some p => exact some (hf p (h p rfl))

theorem fst {o : Option (State × α)} (h : KeepsSomeFst s₀ o) : KeepsSome s₀ (o.map (·.1)) := by
  cases o with
  | none => exact .none
  | some p => exact .some (h p rfl)

end KeepsSomeFst

namespace KeepsOut

theorem next (h : Keeps s₀ s) : KeepsOut s₀ (.next s) := fun t e => by
  cases e
  exact h

theorem fault {e : Fault} : KeepsOut s₀ (.fault e) := fun _ e => by cases e

theorem either {a b : Out} (ha : KeepsOut s₀ a) (hb : KeepsOut s₀ b) : KeepsOut s₀ (if c then a else b) := by
  split
  · exact ha
  · exact hb

end KeepsOut

/-- Poisoning doubles one after another keeps the form. -/
theorem Mem.wf_sAdds (l : List α) (f : α → Nat) {m : Mem} (h : m.wf = true) :
    Mem.wf { m with poison := l.foldl (fun p x => sAdd p (f x)) m.poison } = true := by
  induction l generalizing m with
  | nil => exact h
  | cons x l ih => exact ih (Mem.wf_sAdd h (f x))

/-! ### The functions of Machine/Ops.lean -/

theorem Keeps.tick (h : Keeps s₀ s) : Keeps s₀ s.tick :=
  h.update

theorem Keeps.setReg (h : Keeps s₀ s) {off w} : Keeps s₀ (s.setReg off w) :=
  h.update

theorem Keeps.setFld (h : Keeps s₀ s) {f v} : Keeps s₀ (s.setFld f v) :=
  h.setReg

theorem Keeps.incSat (h : Keeps s₀ s) {f n} : Keeps s₀ (s.incSat f n) :=
  h.setFld

theorem Keeps.incWrap (h : Keeps s₀ s) {f n} : Keeps s₀ (s.incWrap f n) :=
  h.setFld

theorem Keeps.setCore (h : Keeps s₀ s) {n c} : Keeps s₀ (s.setCore n c) :=
  h.update

theorem Keeps.setBox (h : Keeps s₀ s) {ep m l} : Keeps s₀ (s.setBox ep m l) :=
  h.update

theorem Keeps.chainSend (h : Keeps s₀ s) {src dst mbx sub payload} : Keeps s₀ (s.chainSend src dst mbx sub payload) :=
  h.ofEvr (.chainSend s _ _ _ _ _)

theorem Keeps.alert (h : Keeps s₀ s) : Keeps s₀ s.alert :=
  h.ofEvr (.alert s)

theorem Keeps.showPending (h : Keeps s₀ s) : Keeps s₀ s.showPending :=
  h.ofEvr (.showPending s)

theorem Keeps.persist (h : Keeps s₀ s) {r} : Keeps s₀ (s.persist r) :=
  h.ofEvr (.persist s r)

theorem Keeps.counterWord (h : Keeps s₀ s) : Keeps s₀ s.counterWord :=
  h.ofEvr (.counterWord s)

theorem Keeps.nextNumber (h : Keeps s₀ s) : Keeps s₀ s.nextNumber :=
  h.ofEvr (.nextNumber s)

theorem Keeps.dropped (h : Keeps s₀ s) {n} : Keeps s₀ (s.dropped n) :=
  h.ofEvr (.dropped s n)

theorem Keeps.acceptAll (h : Keeps s₀ s) {ds} : KeepsFst s₀ (s.acceptAll ds) :=
  h.ofEvr (.acceptAll s ds)

theorem Keeps.alertFor (h : Keeps s₀ s) {r} : Keeps s₀ (s.alertFor r) :=
  h.ofEvr (.alertFor s r)

theorem Keeps.logQuiet (h : Keeps s₀ s) {ds} : Keeps s₀ (s.logQuiet ds) :=
  h.ofEvr (.logQuiet s ds)

theorem Keeps.evrNotice (h : Keeps s₀ s) {r} : Keeps s₀ (s.evrNotice r) :=
  h.ofEvr (.evrNotice s r)

theorem Keeps.logAll (h : Keeps s₀ s) {ds} : Keeps s₀ (s.logAll ds) :=
  h.ofEvr (.logAll s ds)

theorem Keeps.log (h : Keeps s₀ s) {sev src kind body} : Keeps s₀ (s.log sev src kind body) :=
  h.ofEvr (s.log_evrOnly _ _ _ _)

theorem Keeps.logInj (h : Keeps s₀ s) {sev src kind injected body} : Keeps s₀ (s.logInj sev src kind injected body) :=
  h.ofEvr (s.logInj_evrOnly _ _ _ _ _)

theorem Keeps.logFw (h : Keeps s₀ s) {sev src kind body} : Keeps s₀ (s.logFw sev src kind body) :=
  h.ofEvr (s.logFw_evrOnly _ _ _ _)

theorem Keeps.hwSend (h : Keeps s₀ s) {src dst mbx sub payload} : Keeps s₀ (s.hwSend src dst mbx sub payload) :=
  h.ofEvr (.hwSend s _ _ _ _ _)

theorem Keeps.blaming (h : Keeps s₀ s) {b f} (hf : ∀ t, Keeps s₀ t → Keeps s₀ (f t)) : Keeps s₀ (s.blaming b f) :=
  .update (hf _ h.update)

theorem Keeps.faultDetected (h : Keeps s₀ s) {kind unit injected masked} : Keeps s₀ (s.faultDetected kind unit injected masked) :=
  .setReg (.setReg (.either h.incSat.incSat h.incSat))

theorem Keeps.faultTold (h : Keeps s₀ s) {kind unit injected masked resume at_} :
    Keeps s₀ (s.faultTold kind unit injected masked resume at_) :=
  h.ofEvr (.faultTold s _ _ _ _ _ _)

theorem Keeps.faultNow (h : Keeps s₀ s) {kind unit injected masked} : Keeps s₀ (s.faultNow kind unit injected masked) :=
  h.ofCodes (.faultNow s _ _ _ _)

theorem Keeps.setCfs (h : Keeps s₀ s) : Keeps s₀ s.setCfs :=
  h.update.setFld.alert

theorem Keeps.fatalFault (h : Keeps s₀ s) {kind unit injected} : Keeps s₀ (s.fatalFault kind unit injected) :=
  h.faultDetected.setFld.setFld.setCfs.faultTold

theorem Keeps.modeMessages (h : Keeps s₀ s) : Keeps s₀ s.modeMessages :=
  .chainSend (h.foldl fun _ _ h => .either h.hwSend h)

theorem Keeps.modeTo (h : Keeps s₀ s) {cur health cause} : Keeps s₀ (s.modeTo cur health cause) :=
  .either h (.log (.modeMessages (.setFld (.setFld (.setFld (.setFld (.either h h.setFld.incWrap)))))))

/-! ### The functions of Machine/MemOps.lean -/

theorem Keeps.withMem (h : Keeps s₀ s) {m} (hm : s.mem.wf = true → m.wf = true) : Keeps s₀ (s.withMem m) :=
  h.rewrite hm

theorem Keeps.encode (h : Keeps s₀ s) {a} : Keeps s₀ (s.encode a) := by
  have hwf := State.encode_wf s a
  unfold State.encode at hwf ⊢
  split at hwf
  · next hdram =>
    rw [if_pos hdram]
    exact h.rewrite hwf
  · next hdram =>
    rw [if_neg hdram]
    exact h

theorem Keeps.encodeRun (h : Keeps s₀ s) {a n} : Keeps s₀ (s.encodeRun a n) :=
  h.foldl fun _ _ h => .either h.encode h

theorem Keeps.mecNotice (h : Keeps s₀ s) {sub w0 w1} : Keeps s₀ (s.mecNotice sub w0 w1) :=
  h.ofCodes (.mecNotice s _ _ _)

theorem Keeps.lightToStrong (h : Keeps s₀ s) : Keeps s₀ s.lightToStrong :=
  h.ofCodes (.lightToStrong s)

theorem Keeps.markDevice (h : Keeps s₀ s) {chan dev} : Keeps s₀ (s.markDevice chan dev) :=
  h.ofCodes (.markDevice s _ _)

theorem Keeps.countDevice (h : Keeps s₀ s) {chan dev} : Keeps s₀ (s.countDevice chan dev) :=
  h.ofCodes (.countDevice s _ _)

theorem Keeps.countCorrected (h : Keeps s₀ s) {core a dev} : Keeps s₀ (s.countCorrected core a dev) :=
  h.ofCodes (.countCorrected s _ _ _)

theorem Keeps.countBeadUe (h : Keeps s₀ s) {b} : Keeps s₀ (s.countBeadUe b) :=
  h.ofCodes (.countBeadUe s b)

theorem Keeps.countUncorrectable (h : Keeps s₀ s) {core a dev tag cons unit} :
    Keeps s₀ (s.countUncorrectable core a dev tag cons unit) :=
  h.ofCodes (.countUncorrectable s _ _ _ _ _ _)

theorem Keeps.countHidden (h : Keeps s₀ s) {id inst off ecc cons unit} : Keeps s₀ (s.countHidden id inst off ecc cons unit) := by
  unfold State.countHidden
  split
  · exact h
  · exact h.incWrap.update.setReg
  · exact .mecNotice (.log (.either h.incSat.setFld h.incSat.setReg.setReg))

theorem Keeps.settleHalf (h : Keeps s₀ s) {a} : Keeps s₀ (s.settleHalf a) :=
  h.ofCodes (.settleHalf s a)

theorem Keeps.readOutcome (h : Keeps s₀ s) {core a ecc cons unit} : KeepsFst s₀ (s.readOutcome core a ecc cons unit) :=
  h.ofCodes (.readOutcome s _ _ _ _ _)

theorem Keeps.meetErrors (h : Keeps s₀ s) {l cons unit} : Keeps s₀ (s.meetErrors l cons unit) :=
  h.foldl fun _ _ h => h.readOutcome.fst

theorem Keeps.poisonBlock (h : Keeps s₀ s) {a} : Keeps s₀ (s.poisonBlock a) :=
  h.rewrite (State.poisonBlock_wf s a)

theorem Keeps.storeBytes (h : Keeps s₀ s) {core a v n poison ecc} : Keeps s₀ (s.storeBytes core a v n poison ecc) := by
  unfold State.storeBytes
  exact KeepsFst.andThen (.either h.readOutcome (.mk h)) fun h => .encode (.withMem
    (.either (.either h.fst.poisonBlock (h.fst.withMem (Mem.wf_sAdd · _))) h.fst) (Mem.wf_store _ _ _ _))

theorem Keeps.loadBytes (h : Keeps s₀ s) {core a n ecc} : KeepsFst s₀ (s.loadBytes core a n ecc) :=
  h.ofCodes (s.loadBytes_codesOnly _ _ _ _)

/-! ### The functions of Machine/BeadOps.lean -/

theorem Keeps.setBead (h : Keeps s₀ s) {b e} : Keeps s₀ (s.setBead b e) :=
  h.update

theorem Keeps.levelStep (h : Keeps s₀ s) {new} : Keeps s₀ (s.levelStep new) :=
  .either h.setFld.update.log.hwSend h.setFld.update.log

theorem Keeps.levelSettle (h : Keeps s₀ s) : Keeps s₀ s.levelSettle :=
  .either h (.either h (.either h.levelStep h.levelStep.levelStep))

theorem Keeps.poolRefresh (h : Keeps s₀ s) : Keeps s₀ s.poolRefresh :=
  .levelSettle (.either h.setFld.setFld.setFld h.setFld.setFld)

theorem Keeps.popFree (h : Keeps s₀ s) {b} : Keeps s₀ (s.popFree b) := by
  unfold State.popFree
  refine .either ?_ h
  split
  · exact h.update
  · exact h.update

theorem Keeps.grantBead (h : Keeps s₀ s) {c ep b} : Keeps s₀ (s.grantBead c ep b) :=
  h.popFree.update.setBead.setFld.setFld

theorem Keeps.takeBead (h : Keeps s₀ s) {c ep} : KeepsFst s₀ (s.takeBead c ep) := by
  unfold State.takeBead
  cases s.nextBead with
  | none => exact .mk h
  | some b => exact .mk h.grantBead

theorem Keeps.takeBeads (h : Keeps s₀ s) {c ep n} : KeepsFst s₀ (s.takeBeads c ep n) := by
  induction n generalizing s with
  | zero => exact .mk h
  | succ n ih => exact .mk (ih h.takeBead.fst).fst

theorem Keeps.startGroup (h : Keeps s₀ s) {g n} : Keeps s₀ (s.startGroup g n) := by
  unfold State.startGroup
  extract_lets r₁ s₁
  have h₁ : KeepsFst s₀ r₁ := h.takeBeads
  have h₂ : Keeps s₀ s₁ := h₁.fst.poolRefresh
  split
  · exact h₂
  · exact h₂.update

theorem Keeps.decideWaitingGo (h : Keeps s₀ s) {blocked fuel l} : Keeps s₀ (s.decideWaitingGo blocked fuel l) := by
  induction fuel generalizing s blocked l with
  | zero => exact h
  | succ n ih =>
    cases l with
    | nil => exact h
    | cons g l =>
      unfold State.decideWaitingGo
      refine .either (ih h.update) ?_
      split
      · exact ih h.startGroup
      · exact ih h.update

theorem Keeps.decideWaiting (h : Keeps s₀ s) : Keeps s₀ s.decideWaiting :=
  h.update.decideWaitingGo

theorem Keeps.requestPieces (h : Keeps s₀ s) {g fuel} : Keeps s₀ (s.requestPieces g fuel) := by
  induction fuel generalizing s g with
  | zero => exact h
  | succ n ih =>
    unfold State.requestPieces
    exact .either h.update (.either (ih h.startGroup) h.startGroup)

theorem Keeps.requestGroup (h : Keeps s₀ s) {g} : Keeps s₀ (s.requestGroup g) :=
  h.requestPieces

theorem Keeps.linkBead (h : Keeps s₀ s) {b next} : Keeps s₀ (s.linkBead b next) := by
  unfold State.linkBead
  exact .either (h.withMem (Mem.wf_writeDouble _ _ _)) h

theorem Keeps.releaseBead (h : Keeps s₀ s) {b} : Keeps s₀ (s.releaseBead b) :=
  .either h (.andThen (.poolRefresh (.either h.setFld.setBead.linkBead.update h.setFld.setBead)) fun h => .decideWaiting (.either
    (.either h.log h.setFld.log) h))

theorem Keeps.giveBead (h : Keeps s₀ s) {b ep} : Keeps s₀ (s.giveBead b ep) :=
  h.setBead

theorem Keeps.balloc (h : Keeps s₀ s) {c ep} : KeepsFst s₀ (s.balloc c ep) := by
  unfold State.balloc
  split
  · exact .mk h.takeBead.fst.poolRefresh
  · exact .mk h.incWrap.update
  · exact .either (.mk h) (.mk h.incWrap.update)

/-! ### The functions of Machine/MapOps.lean -/

theorem Keeps.buildPage (h : Keeps s₀ s) {mpn} : Keeps s₀ (s.buildPage mpn) := by
  unfold State.buildPage
  split
  · exact h
  · exact h.update

theorem Keeps.mapCounts (h : Keeps s₀ s) : Keeps s₀ s.mapCounts :=
  h.setFld.setFld.setFld.setFld

theorem Keeps.setFrame (h : Keeps s₀ s) {f e} : Keeps s₀ (s.setFrame f e) := by
  unfold State.setFrame
  exact .mapCounts (.encode (h.update.withMem (Mem.wf_writeDouble _ _ _)))

theorem Keeps.readDirectory (h : Keeps s₀ s) : Keeps s₀ s.readDirectory :=
  h.update.mapCounts

theorem Keeps.sweep (h : Keeps s₀ s) {set way n} : KeepsFst s₀ (s.sweep set way n) := by
  induction n generalizing s way with
  | zero => exact .mk h
  | succ n ih =>
    unfold State.sweep
    exact .either (.mk h) (ih h.setFrame)

theorem Keeps.victim (h : Keeps s₀ s) {set} : KeepsFst s₀ (s.victim set) := by
  unfold State.victim
  extract_lets hand₁
  split
  · exact .mk h.update
  · split
    · next heq => exact .mk (.update (h.sweep.of_eq heq))
    · next heq => exact .mk (h.sweep.of_eq heq)

theorem Keeps.missMessage (h : Keeps s₀ s) {mpn flags req wbMpn frame addr} :
    Keeps s₀ (s.missMessage mpn flags req wbMpn frame addr) :=
  h.incWrap.hwSend

theorem Keeps.missOn (h : Keeps s₀ s) {mpn req} : KeepsFst s₀ (s.missOn mpn req) := by
  unfold State.missOn
  extract_lets +onlyGivenNames set₁
  split
  · next heq => exact .mk (.missMessage (.update (.setFrame (h.victim.of_eq heq))))
  · next heq =>
      extract_lets t₁ dirty₁
      have h₁ : Keeps s₀ t₁ := .incWrap (h.victim.of_eq heq)
      clear_value dirty₁
      split
      · exact .mk h₁.update.missMessage
      · exact .mk h₁.missMessage

theorem Keeps.dirError (h : Keeps s₀ s) {mpn req} : Keeps s₀ (s.dirError mpn req) :=
  .either h.incSat.setFld h.incSat.setFld.update.missMessage

theorem Keeps.addPin (h : Keeps s₀ s) {n mpn} : Keeps s₀ (s.addPin n mpn) := by
  unfold State.addPin
  split
  · exact h
  · exact h.setCore.setFrame

theorem Keeps.dropPin (h : Keeps s₀ s) {n mpn} : Keeps s₀ (s.dropPin n mpn) := by
  unfold State.dropPin
  refine .either h ?_
  extract_lets s₁
  have h₁ : Keeps s₀ s₁ := h.setCore
  split
  · exact h₁
  · exact h₁.setFrame

theorem Keeps.mlook (h : Keeps s₀ s) {n ep mpn op defer} : KeepsFst s₀ (s.mlook n ep mpn op defer) := by
  unfold State.mlook
  split
  · exact .either (.mk h) (.mk h.missOn.fst)
  · exact .either (.either (.mk h) (.mk h)) (h.incWrap.setFrame.andThen fun h => .either (.mk h) (.either (.either (.mk h)
      (.mk h.addPin)) (.either (.either (.mk h) (.either (.mk h) (.mk h.dropPin))) (.either (.mk h) (.mk h.setFrame)))))

theorem Keeps.mapResp (h : Keeps s₀ s) {status op mpn} : Keeps s₀ (s.mapResp status op mpn) :=
  h.setReg

theorem Keeps.mapCmdOn (h : Keeps s₀ s) {mpn op ok next pinned} : Keeps s₀ (s.mapCmdOn mpn op ok next pinned) := by
  unfold State.mapCmdOn
  split
  · exact h.mapResp
  · exact .either h.mapResp (.either h.setFrame.mapResp h.mapResp)

theorem Keeps.putFrame (h : Keeps s₀ s) {mpn dirty} : Keeps s₀ (s.putFrame mpn dirty) := by
  unfold State.putFrame
  split
  · exact h
  · exact .setFrame (.encodeRun (h.withMem (Mem.wf_writeDoubles _ _)))

theorem Keeps.filledMessage (h : Keeps s₀ s) {mpn} : Keeps s₀ (s.filledMessage mpn) := by
  unfold State.filledMessage
  split
  · exact h
  · exact h.update.hwSend

theorem Keeps.pageArrives (h : Keeps s₀ s) {mpn dirty} : Keeps s₀ (s.pageArrives mpn dirty) :=
  .either h h.buildPage.putFrame.update.filledMessage

theorem Keeps.mapFilled (h : Keeps s₀ s) {mpn} : Keeps s₀ (s.mapFilled mpn) :=
  h.mapCmdOn.pageArrives

theorem Keeps.mapBuilt (h : Keeps s₀ s) {mpn} : Keeps s₀ (s.mapBuilt mpn) :=
  h.mapCmdOn.pageArrives

theorem Keeps.mapAbandon (h : Keeps s₀ s) {mpn} : Keeps s₀ (s.mapAbandon mpn) :=
  h.mapCmdOn

theorem Keeps.mapSnap (h : Keeps s₀ s) {mpn} : Keeps s₀ (s.mapSnap mpn) :=
  h.mapCmdOn

theorem Keeps.mapCopied (h : Keeps s₀ s) {mpn} : Keeps s₀ (s.mapCopied mpn) :=
  .either h.mapCmdOn.putFrame h.mapCmdOn

theorem Keeps.mapWritten (h : Keeps s₀ s) {mpn} : Keeps s₀ (s.mapWritten mpn) :=
  h.mapCmdOn

theorem Keeps.mapEvict (h : Keeps s₀ s) {mpn} : Keeps s₀ (s.mapEvict mpn) :=
  h.mapCmdOn

theorem Keeps.mapPrefetch (h : Keeps s₀ s) {mpn req} : Keeps s₀ (s.mapPrefetch mpn req) := by
  unfold State.mapPrefetch
  split
  · exact h.mapResp
  · split
    · next heq => exact .mapResp (h.missOn.of_eq heq)
    · next heq => exact .mapResp (h.missOn.of_eq heq)

theorem Keeps.mapReinit (h : Keeps s₀ s) {mpn} : Keeps s₀ (s.mapReinit mpn) :=
  .mapResp (.update (h.foldl fun _ _ h => h.setFrame))

theorem Keeps.mapCommand (h : Keeps s₀ s) {op mpn req} : Keeps s₀ (s.mapCommand op mpn req) :=
  .either h.mapFilled (.either h.mapBuilt (.either h.mapAbandon (.either h.mapSnap (.either h.mapCopied (.either h.mapWritten
    (.either h.mapEvict (.either h.mapPrefetch (.either h.mapReinit h.mapResp))))))))

/-! ### The functions of Machine/CoreOps.lean -/

theorem Keeps.returnTaken (h : Keeps s₀ s) {ep l} : Keeps s₀ (s.returnTaken ep l) :=
  h.foldr fun _ _ h => h.setBox

theorem Keeps.undoEffects (h : Keeps s₀ s) {n l} : Keeps s₀ (s.undoEffects n l) := by
  unfold State.undoEffects
  refine h.foldr fun _ _ h => ?_
  split
  · exact h.releaseBead
  · exact h.dropPin
  · exact h

theorem Keeps.endTx (h : Keeps s₀ s) {n byTrap} : Keeps s₀ (s.endTx n byTrap) :=
  .either h.setCore.returnTaken.undoEffects h

theorem Keeps.writeCheckpoint (h : Keeps s₀ s) {n resume} : Keeps s₀ (s.writeCheckpoint n resume) :=
  h.withMem fun k => Mem.wf_writeDouble _ _ _ (Mem.wf_writeDouble _ _ _ (Mem.wf_writeDoubles _ _ k))

theorem Keeps.resume (h : Keeps s₀ s) {n} : Keeps s₀ (s.resume n) := by
  unfold State.resume
  extract_lets c₁
  split
  · exact h.setCore
  · exact h.setCore

theorem Keeps.takeoverNotice (h : Keeps s₀ s) {role failed spare} : Keeps s₀ (s.takeoverNotice role failed spare) :=
  h.setBox

theorem Keeps.endLocketSequence (h : Keeps s₀ s) {owner} : Keeps s₀ (s.endLocketSequence owner) :=
  .either h.setFld.setFld h

theorem Keeps.reloadStore (h : Keeps s₀ s) {n} : Keeps s₀ (s.reloadStore n) := by
  unfold State.reloadStore
  refine .either (h.rewrite fun k => ?_) h
  obtain ⟨hcells, hpoison, htags⟩ := (Mem.wf_iff _).1 k
  exact (Mem.wf_iff _).2 ⟨tabWf_filter _ _ hcells, tabWf_filter _ _ hpoison, htags⟩

theorem Keeps.coreFail (h : Keeps s₀ s) {n kind injected} : Keeps s₀ (s.coreFail n kind injected) :=
  .either h.setCore.fatalFault (Keeps.andThen h.setCore.faultDetected.endTx.setFld.setCore.endLocketSequence fun h =>
    h.setFld.setFld.setFld.setReg.setCore.takeoverNotice.reloadStore.resume.tick.setReg.faultTold)

theorem Keeps.trap (h : Keeps s₀ s) {n code detail info async} : Keeps s₀ (s.trap n code detail info async) :=
  .either h.coreFail (.setCore (.either (.setFld (.incSat (.either h h.endTx))) (.either h h.endTx)))

/-! ### The functions of Machine/HqeOps.lean -/

theorem Keeps.setSlot (h : Keeps s₀ s) {k e} : Keeps s₀ (s.setSlot k e) :=
  h.update

theorem Keeps.slotCounts (h : Keeps s₀ s) : Keeps s₀ s.slotCounts :=
  h.setFld.setFld.setFld.setFld

theorem Keeps.hqeNotice (h : Keeps s₀ s) {code word} : Keeps s₀ (s.hqeNotice code word) :=
  h.hwSend

theorem Keeps.dispatchSlot (h : Keeps s₀ s) {k} : Keeps s₀ (s.dispatchSlot k) := by
  unfold State.dispatchSlot
  split
  · exact h
  · refine .either h.setSlot ?_
    refine .either h.setSlot ?_
    refine .either h.setSlot.hwSend ?_
    refine .either ?_ h.setSlot
    refine .hwSend (.setSlot ?_)
    split
    · exact h.giveBead
    · exact h

theorem Keeps.enterHazard (h : Keeps s₀ s) {k} : Keeps s₀ (s.enterHazard k) := by
  unfold State.enterHazard
  split
  · exact h
  · exact .either h.dispatchSlot (.either h.setSlot.incWrap h.setSlot.dispatchSlot)

theorem Keeps.enterReady (h : Keeps s₀ s) {sq} : Keeps s₀ (s.enterReady sq) :=
  h.foldl fun _ _ h => h.enterHazard

theorem Keeps.wakeHeld (h : Keeps s₀ s) : Keeps s₀ s.wakeHeld := by
  unfold State.wakeHeld
  refine .either h ?_
  refine h.foldl fun _ _ h => ?_
  split
  · exact .either h h.dispatchSlot
  · exact h

theorem Keeps.wakeDisp (h : Keeps s₀ s) : Keeps s₀ s.wakeDisp :=
  .slotCounts (h.foldl fun _ _ h => h.dispatchSlot)

theorem Keeps.aerLog (h : Keeps s₀ s) {uncor cor} : Keeps s₀ (s.aerLog uncor cor) :=
  h.update

theorem Keeps.freeEngineBeads (h : Keeps s₀ s) {e} : Keeps s₀ (s.freeEngineBeads e) :=
  h.foldl fun _ _ h => .either h.releaseBead h

theorem Keeps.endSlot (h : Keeps s₀ s) {k} : Keeps s₀ (s.endSlot k) := by
  unfold State.endSlot
  split
  · exact h
  · exact h.update.freeEngineBeads.enterReady.wakeHeld.slotCounts

theorem Keeps.complete (h : Keeps s₀ s) {k status dw0 dw1} : Keeps s₀ (s.complete k status dw0 dw1) := by
  unfold State.complete
  split
  · exact h
  · exact h.setSlot

theorem Keeps.msixSend (h : Keeps s₀ s) {v} : Keeps s₀ (s.msixSend v) :=
  .either h.update h.update

theorem Keeps.interrupt (h : Keeps s₀ s) {q} : Keeps s₀ (s.interrupt q) :=
  .either h (.either (.either h.update.msixSend h.update) h.msixSend)

theorem Keeps.addLife (h : Keeps s₀ s) {i n} : Keeps s₀ (s.addLife i n) :=
  h.update

theorem Keeps.countLife (h : Keeps s₀ s) {e status} : Keeps s₀ (s.countLife e status) :=
  .either h (Keeps.andThen (.either (.addLife (.either h.addLife h)) (.either h.addLife h)) fun ht => Keeps.andThen
    (.either ht.addLife ht) fun ht => Keeps.andThen (.either ht.addLife ht) fun h => .either h.addLife h)

theorem Keeps.post (h : Keeps s₀ s) {k} : Keeps s₀ (s.post k) := by
  unfold State.post
  split
  · exact h
  · split
    · split
      · exact h
      · refine .either h ?_
        extract_lets +onlyGivenNames status₁ entry₁ wrap₁ cq'₁ _ s₁ s₂ s₃
        have h₁ : Keeps s₀ s₁ := h.update
        have h₂ : Keeps s₀ s₂ := h₁.countLife
        have h₃ : Keeps s₀ s₃ := h₂.interrupt
        refine .endSlot ?_
        split
        · exact h₃.hqeNotice
        · exact h₃
    · exact h

theorem Keeps.stray (h : Keeps s₀ s) {event src slot unit bead} : Keeps s₀ (s.stray event src slot unit bead) :=
  h.incSat.log

theorem Keeps.requestGroups (h : Keeps s₀ s) {k fuel} : Keeps s₀ (s.requestGroups k fuel) := by
  induction fuel generalizing s with
  | zero => exact h
  | succ n ih =>
    unfold State.requestGroups
    split
    · exact h
    · exact .either h (ih h.setSlot.requestGroup)

theorem Keeps.dropWaiting (h : Keeps s₀ s) {p} : Keeps s₀ (s.dropWaiting p) :=
  .update (h.foldl fun _ _ h => h.releaseBead)

theorem Keeps.controllerReset (h : Keeps s₀ s) : Keeps s₀ s.controllerReset := by
  unfold State.controllerReset
  refine .slotCounts (.setFld (.setFld (.update ?_)))
  refine h.update.dropWaiting.foldl fun _ _ h => ?_
  split
  · exact h.freeEngineBeads
  · exact h

theorem Keeps.postWaiting (h : Keeps s₀ s) : Keeps s₀ s.postWaiting :=
  h.foldl fun _ _ h => h.post

theorem Keeps.hostReissue (h : Keeps s₀ s) : Keeps s₀ s.hostReissue :=
  .either h h.update.postWaiting

theorem Keeps.asyncEvent (h : Keeps s₀ s) {type info page} : Keeps s₀ (s.asyncEvent type info page) := by
  unfold State.asyncEvent
  split
  · exact h.update.complete.post
  · exact h.update

/-! ### The functions of Machine/ClaspOps.lean -/

theorem Keeps.setBroken (h : Keeps s₀ s) {c b} : Keeps s₀ (s.setBroken c b) :=
  .either h.setReg h.setReg

theorem Keeps.setClasp (h : Keeps s₀ s) {c st} : Keeps s₀ (s.setClasp c st) :=
  h.setFld.setFld.setBroken

theorem Keeps.claspNotice (h : Keeps s₀ s) {c} : Keeps s₀ (s.claspNotice c) :=
  .either h.update.hwSend h

theorem Keeps.breakWith (h : Keeps s₀ s) {c cause lost sev} : Keeps s₀ (s.breakWith c cause lost sev) :=
  h.setClasp.setFld.incSat.incSat.log.claspNotice

theorem Keeps.setSq (h : Keeps s₀ s) {q e} : Keeps s₀ (s.setSq q e) :=
  h.update

theorem Keeps.claspHold (h : Keeps s₀ s) {c broken} : Keeps s₀ (s.claspHold c broken) := by
  unfold State.claspHold
  split
  · exact .either h h.update
  · exact .either h.update h

theorem Keeps.islandLoses (h : Keeps s₀ s) {q} : Keeps s₀ (s.islandLoses q) := by
  unfold State.islandLoses
  extract_lets e₁ s₁
  have h₁ : Keeps s₀ s₁ := h.setSq
  split
  · exact h₁.setReg.setFld.setFld
  · exact h₁.setFld

theorem Keeps.dropEvents (h : Keeps s₀ s) {c} : Keeps s₀ (s.dropEvents c) :=
  h.update

theorem Keeps.claspBreak (h : Keeps s₀ s) {c cause lost injected} : Keeps s₀ (s.claspBreak c cause lost injected) := by
  unfold State.claspBreak
  refine .either h ?_
  extract_lets +onlyGivenNames _ s₁ s₂ s₃ s₄ t
  have h₁ : Keeps s₀ s₁ := h.update
  have ht : Keeps s₀ t := by
    unfold t
    refine .either h₁ ?_
    have h₂ : Keeps s₀ s₂ := .dropEvents (.either h₁.claspHold h₁)
    have h₄ : Keeps s₀ s₄ := .breakWith (.either h₂.incSat h₂)
    split
    · exact h₄
    · exact .either h₄ h₄.faultNow
  split
  · exact ht.islandLoses
  · exact ht

theorem Keeps.claspOpen (h : Keeps s₀ s) {c} : Keeps s₀ (s.claspOpen c) :=
  .either h h.claspHold.dropEvents.setClasp.setFld.log

theorem Keeps.claspClose (h : Keeps s₀ s) {c} : Keeps s₀ (s.claspClose c) :=
  .either h h.setClasp

theorem Keeps.islandLeaves (h : Keeps s₀ s) {c} : Keeps s₀ (s.islandLeaves c) :=
  .either h.update.claspClose h.update

theorem Keeps.closeDone (h : Keeps s₀ s) {c agree} : Keeps s₀ (s.closeDone c agree) :=
  .either h (.either h.dropEvents.setClasp.incWrap.update h.breakWith)

theorem Keeps.claspRecloses (h : Keeps s₀ s) {c} : Keeps s₀ (s.claspRecloses c) :=
  h.islandLeaves.closeDone

theorem Keeps.laneCount (h : Keeps s₀ s) {c lane} : Keeps s₀ (s.laneCount c lane) := by
  unfold State.laneCount
  split
  · exact .either h.incWrap (.either h.incWrap h)
  · exact h

theorem Keeps.eventPulse (h : Keeps s₀ s) {c lane ackEnded} : Keeps s₀ (s.eventPulse c lane ackEnded) :=
  .either h (.either h.laneCount (.either h.laneCount.setReg h.laneCount.tick.update))

theorem Keeps.psqEvent (h : Keeps s₀ s) {q lane} : Keeps s₀ (s.psqEvent q lane) :=
  h.eventPulse

theorem Keeps.laneRead (h : Keeps s₀ s) {c} : Keeps s₀ (s.laneRead c) :=
  .either h.tick.incSat h

/-! ### The functions of Machine/FaultOps.lean -/

theorem Keeps.injSee (h : Keeps s₀ s) {i} : Keeps s₀ (s.injSee i) :=
  h.incWrap

theorem Keeps.injFire (h : Keeps s₀ s) {i} : Keeps s₀ (s.injFire i) :=
  .either h.setFld.setFld.setFld h.setFld

theorem Keeps.injEvent (h : Keeps s₀ s) {l} : KeepsFst s₀ (s.injEvent l) := by
  unfold State.injEvent
  extract_lets due₁ t₁
  have h₁ : Keeps s₀ t₁ := h.foldl fun _ _ h => h.injSee
  clear_value due₁
  split
  · exact .mk h₁.injFire
  · exact .mk h₁

theorem Keeps.injArm (h : Keeps s₀ s) {i} : Keeps s₀ (s.injArm i) :=
  h.setFld.setReg.setFld.update

theorem Keeps.injEffect (h : Keeps s₀ s) {i} : Keeps s₀ (s.injEffect i) :=
  .either h.setCore (.either (.either h.coreFail h) (.either (h.blaming (fun _ h => h.claspBreak)) (h.update.andThen fun h =>
    .either h.aerLog (.either h.update (.either h.update h)))))

theorem Keeps.injTick (h : Keeps s₀ s) {i} : Keeps s₀ (s.injTick i) := by
  unfold State.injTick
  refine .either ?_ h
  split
  · next heq => exact .injEffect (h.injEvent.of_eq heq)
  · next heq => exact (h.injEvent.of_eq heq)

theorem Keeps.arrive (h : Keeps s₀ s) {m} : Keeps s₀ (s.arrive m) :=
  h.update.andThen fun ht => .either ht.setBox (.either ht.setBox (.blaming (.either ht.update ht) (fun _ h => h.logAll)))

theorem Keeps.reorderTurn (h : Keeps s₀ s) {src dst} : Keeps s₀ (s.reorderTurn src dst) :=
  h.update.foldl fun _ _ h => h.arrive.update

theorem Keeps.releaseReordered (h : Keeps s₀ s) : Keeps s₀ s.releaseReordered :=
  h.update.foldl fun _ _ h => h.arrive.update

theorem Keeps.deliver (h : Keeps s₀ s) {src dst} : Keeps s₀ (s.deliver src dst) := by
  unfold State.deliver
  split
  · exact h
  · refine .either h ?_
    extract_lets wasDelayed₁ l₁ r₁ s₁
    have h₁ : KeepsFst s₀ r₁ := h.injEvent
    have h₂ : Keeps s₀ s₁ := h₁.fst
    split
    · exact h₂.update.arrive.reorderTurn
    · exact .either h₂.update (.either h₂.update (.either (.reorderTurn (.either h₂.tick.update.arrive h₂.tick.update.arrive))
        (.either h₂.update h₂.update)))

/-! ### The functions of Machine/CtlCore.lean -/

theorem Keeps.actFct (h : Keeps s₀ s) {off old v new} : Keeps s₀ (s.actFct off old v new) := by
  unfold State.actFct
  refine .either (.either h.setReg h.setReg) ?_
  split
  · exact .either h.update h.update
  · exact h.setReg

theorem Keeps.actClp (h : Keeps s₀ s) {off v new} : Keeps s₀ (s.actClp off v new) := by
  unfold State.actClp
  split
  · exact .either h (h.setReg.andThen fun ht => Keeps.andThen (.either (.claspOpen (.either ht.setFld ht))
      (.either ht.setFld ht)) fun h => .either h.claspClose h)
  · exact h.setReg

theorem Keeps.actHqe (h : Keeps s₀ s) {off old v new} : Keeps s₀ (s.actHqe off old v new) :=
  .either (.either h h.setReg) (.either (.either h.setReg.setCfs h.setReg) (.either h.setReg.wakeDisp h.setReg))

theorem Keeps.poolEnable (h : Keeps s₀ s) {on} : Keeps s₀ (s.poolEnable on) :=
  .either (Keeps.andThen (h.setFld.update.foldl fun _ _ h => h.setFld) fun h => .either h h.setFld.setFld.poolRefresh.decideWaiting)
    (.either h.setFld.setFld.setFld.setFld h)

theorem Keeps.freelistReady (h : Keeps s₀ s) : Keeps s₀ s.freelistReady :=
  .either (.decideWaiting (.poolRefresh (.setFld (.setFld (h.foldl fun _ _ h => h.linkBead))))) h

theorem Keeps.retireBead (h : Keeps s₀ s) {b} : Keeps s₀ (s.retireBead b) := by
  unfold State.retireBead
  refine .either h ?_
  refine .poolRefresh (.setFld (.update (.setBead ?_)))
  split
  · exact .either h.linkBead h
  · exact h

theorem Keeps.actBpm (h : Keeps s₀ s) {off v new} : Keeps s₀ (s.actBpm off v new) :=
  .either h.poolEnable (.either h.retireBead (.either h.setReg.poolRefresh.decideWaiting h.setReg))

theorem Keeps.actMap (h : Keeps s₀ s) {who off v new} : Keeps s₀ (s.actMap who off v new) :=
  .either h.mapCommand (.either (.either h.setReg.setReg.readDirectory h.setReg) h.setReg)

theorem Keeps.actMec (h : Keeps s₀ s) {off v new} : Keeps s₀ (s.actMec off v new) :=
  .either (Keeps.andThen (.either h.setReg.markDevice h.setReg) fun h => .either h.markDevice h) h.setReg

theorem Keeps.declare (h : Keeps s₀ s) {n} : Keeps s₀ (s.declare n) :=
  .either h.coreFail h

theorem Keeps.actFlt (h : Keeps s₀ s) {off v new} : Keeps s₀ (s.actFlt off v new) := by
  unfold State.actFlt
  refine .either (.either h.declare h) ?_
  split
  · exact .either (.either h.setReg.injArm.injTick h.setReg.injArm) (.either h.setFld h.setReg)
  · exact h.setReg

theorem Keeps.evrEnable (h : Keeps s₀ s) : Keeps s₀ s.evrEnable :=
  .either h h.setFld.update.setFld

theorem Keeps.actEvr (h : Keeps s₀ s) {off v new} : Keeps s₀ (s.actEvr off v new) :=
  .either (.either h.setReg.evrEnable h.setReg) h.setReg

/-! ### The functions of Machine/ModeOps.lean -/

theorem Keeps.disarmAll (h : Keeps s₀ s) : Keeps s₀ s.disarmAll :=
  .releaseReordered (.setFld (h.foldl fun _ _ h => h.setFld))

theorem Keeps.losePrivilege (h : Keeps s₀ s) {bitNo} : Keeps s₀ (s.losePrivilege bitNo) := by
  unfold State.losePrivilege
  extract_lets p₁ q₁ s₁
  have h₁ : Keeps s₀ s₁ := h.setFld
  split
  · exact h₁.update
  · exact h₁

theorem Keeps.modeEntered (h : Keeps s₀ s) {m} : Keeps s₀ (s.modeEntered m) :=
  .either h.update (.either h.setFld (.either (.either h h.setFld) (.either h.wakeHeld h)))

theorem Keeps.modeLeft (h : Keeps s₀ s) {m} : Keeps s₀ (s.modeLeft m) :=
  .either h.update (.either h.disarmAll h)

theorem Keeps.modeRefused (h : Keeps s₀ s) : Keeps s₀ s.modeRefused :=
  h.setFld

theorem Keeps.enterMode (h : Keeps s₀ s) {m cause} : Keeps s₀ (s.enterMode m cause) :=
  h.modeLeft.modeTo.modeEntered

theorem Keeps.diagnosticEnds (h : Keeps s₀ s) : Keeps s₀ s.diagnosticEnds :=
  h.modeLeft.losePrivilege.modeTo

theorem Keeps.requestOverlay (h : Keeps s₀ s) {req who drain} : Keeps s₀ (s.requestOverlay req who drain) :=
  .either h.enterMode (.either h.enterMode (.either h.enterMode (.either h.enterMode h.modeRefused)))

theorem Keeps.modeRequest (h : Keeps s₀ s) {who req drain} : Keeps s₀ (s.modeRequest who req drain) := by
  unfold State.modeRequest
  refine .either (.either h.modeRefused (.either h.modeTo.wakeHeld (.either h.enterMode (.either h.modeTo h.modeRefused)))) ?_
  refine .either (.either h.enterMode h.modeRefused) ?_
  refine .either h.modeRefused ?_
  refine .either ?_ ?_
  · refine .either ?_ h.requestOverlay
    split
    · exact h.modeTo
    · exact h.modeRefused
  · refine .either ?_ (.either (.either h.modeRefused h.enterMode) (.either h.diagnosticEnds.requestOverlay h.modeRefused))
    split
    · exact h.modeTo
    · exact h.modeRefused

theorem Keeps.bootEnds (h : Keeps s₀ s) {level} : Keeps s₀ (s.bootEnds level) :=
  .either h.modeTo.modeEntered h.modeTo.modeEntered

theorem Keeps.writeMode (h : Keeps s₀ s) {who v} : Keeps s₀ (s.writeMode who v) :=
  Keeps.andThen (.either (.setFld (.either h.setFld h)) (.either h.setFld h)) fun h => .either h.setFld
    (.either h.modeRefused h.setFld.update.modeRequest)

/-! ### The functions of Machine/AssayTable.lean -/

theorem Keeps.putWords (h : Keeps s₀ s) {a e} : Keeps s₀ (s.putWords a e) := by
  unfold State.putWords
  exact (h.withMem (Mem.wf_writeDoubles _ _)).foldl fun _ _ h => h.encode

theorem Keeps.putEntry (h : Keeps s₀ s) {ix e} : Keeps s₀ (s.putEntry ix e) :=
  .either h.update.putWords h.update

theorem Keeps.freezeDie (h : Keeps s₀ s) {d on} : Keeps s₀ (s.freezeDie d on) :=
  .either (h.foldl fun _ _ h => h.putEntry) h

theorem Keeps.appliedLost (h : Keeps s₀ s) {ix} : Keeps s₀ (s.appliedLost ix) :=
  h.update

/-! ### The functions of Machine/FwOps.lean -/

theorem Keeps.withFw (h : Keeps s₀ s) {f} : Keeps s₀ (s.withFw f) :=
  h.update

theorem Keeps.tell (h : Keeps s₀ s) {sev event a} : Keeps s₀ (s.tell sev event a) :=
  h.ofEvr (.tell s _ _ _)

theorem Keeps.secRecord (h : Keeps s₀ s) {event a} : Keeps s₀ (s.secRecord event a) :=
  h.ofEvr (.secRecord s _ _)

theorem Keeps.noteDirty (h : Keeps s₀ s) {mpn} : Keeps s₀ (s.noteDirty mpn) :=
  .either h h.withFw

theorem Keeps.setEntry (h : Keeps s₀ s) {key e} : Keeps s₀ (s.setEntry key e) := by
  unfold State.setEntry
  extract_lets mpn₁ s₁ _ s₂
  have h₁ : Keeps s₀ s₁ := h.buildPage.noteDirty
  have h₂ : Keeps s₀ s₂ := h₁.withFw
  split
  · exact .either h₂ (.setFrame (.encode (h₂.withMem (Mem.wf_writeDouble _ _ _))))
  · exact h₂

theorem Keeps.journal (h : Keeps s₀ s) {r} : Keeps s₀ (s.journal r) :=
  h.withFw

theorem Keeps.wantFlush (h : Keeps s₀ s) : Keeps s₀ s.wantFlush :=
  h.withFw

theorem Keeps.stripeJournal (h : Keeps s₀ s) {r} : Keeps s₀ (s.stripeJournal r) :=
  h.withFw

theorem Keeps.takeSeqs (h : Keeps s₀ s) {n} : KeepsFst s₀ (s.takeSeqs n) :=
  .either (.mk h.withFw) (.mk h.withFw)

theorem Keeps.takeEach (h : Keeps s₀ s) {n} : KeepsFst s₀ (s.takeEach n) := by
  induction n generalizing s with
  | zero => exact .mk h
  | succ n ih => exact .mk (ih h.takeSeqs.fst).fst

theorem Keeps.setBlk (h : Keeps s₀ s) {b r} : Keeps s₀ (s.setBlk b r) :=
  h.withFw

theorem Keeps.eraseBegins (h : Keeps s₀ s) {b} : Keeps s₀ (s.eraseBegins b) :=
  h.setBlk

theorem Keeps.blockErased (h : Keeps s₀ s) {b} : Keeps s₀ (s.blockErased b) :=
  h.setBlk.withFw

theorem Keeps.setBand (h : Keeps s₀ s) {n b} : Keeps s₀ (s.setBand n b) :=
  h.withFw

theorem Keeps.closeBand (h : Keeps s₀ s) {n} : Keeps s₀ (s.closeBand n) := by
  unfold State.closeBand
  split
  · exact h
  · exact .setBand (h.foldl fun _ _ h => .either (.journal (.withFw (.either h.setBlk h))) (.withFw (.either h.setBlk h)))

theorem Keeps.stale (h : Keeps s₀ s) {ppa} : Keeps s₀ (s.stale ppa) := by
  unfold State.stale
  split
  · exact h.setBand
  · exact h

theorem Keeps.fresh (h : Keeps s₀ s) {ppa} : Keeps s₀ (s.fresh ppa) := by
  unfold State.fresh
  split
  · exact h.setBand
  · exact h

theorem Keeps.dropCopies (h : Keeps s₀ s) {k u} : Keeps s₀ (s.dropCopies k u) :=
  .withFw (h.foldl fun _ _ h => h.releaseBead)

theorem Keeps.newEntry (h : Keeps s₀ s) {k u e} : Keeps s₀ (s.newEntry k u e) := by
  unfold State.newEntry
  split
  · exact h
  · exact .andThen (.dropCopies (.setEntry (.either h.stale h))) fun h => .either h.fresh h

theorem Keeps.updateUnit (h : Keeps s₀ s) {k u seq e} : Keeps s₀ (s.updateUnit k u seq e) :=
  .either h.newEntry.journal h

theorem Keeps.moveUnit (h : Keeps s₀ s) {k u oldPpa seq e} : Keeps s₀ (s.moveUnit k u oldPpa seq e) := by
  unfold State.moveUnit
  split
  · exact h
  · exact .either h.journal.stale.setEntry.dropCopies.fresh h.journal

theorem Keeps.rangePage (h : Keeps s₀ s) {k u0 mpn e} : Keeps s₀ (s.rangePage k u0 mpn e) := by
  unfold State.rangePage
  extract_lets listed₁ s₁ s₂ _ s₃
  have h₁ : Keeps s₀ s₁ := h.foldl fun _ _ h => .dropCopies (.either h.stale h)
  have h₂ : Keeps s₀ s₂ := h₁.noteDirty
  have h₃ : Keeps s₀ s₃ := h₂.withFw
  split
  · exact .either h₃ h₃.putFrame
  · exact h₃

theorem Keeps.applyRange (h : Keeps s₀ s) {k kind first count e} : Keeps s₀ (s.applyRange k kind first count e) := by
  unfold State.applyRange
  split
  · exact h
  · exact h.foldl fun _ _ ht => .either ht.rangePage (ht.foldl fun _ _ h => h.newEntry)

theorem Keeps.slotDone (h : Keeps s₀ s) {o} : Keeps s₀ (s.slotDone o) := by
  unfold State.slotDone
  refine .either h ?_
  split
  · exact .either h h.complete
  · exact h

theorem Keeps.orderEnds (h : Keeps s₀ s) {o st} : Keeps s₀ (s.orderEnds o st) := by
  unfold State.orderEnds
  split
  · exact h.setSlot
  · exact h

theorem Keeps.orderFails (h : Keeps s₀ s) {o st} : Keeps s₀ (s.orderFails o st) := by
  unfold State.orderFails
  split
  · exact h.setSlot
  · exact h

theorem Keeps.checkHealth (h : Keeps s₀ s) : Keeps s₀ s.checkHealth :=
  .either h (.either h h.modeRequest)

theorem Keeps.leaveBands (h : Keeps s₀ s) {d p} : Keeps s₀ (s.leaveBands d p) :=
  h.withFw

theorem Keeps.dieGone (h : Keeps s₀ s) {d cause} : Keeps s₀ (s.dieGone d cause) :=
  h.withFw.freezeDie.leaveBands.stripeJournal

theorem Keeps.loseDie (h : Keeps s₀ s) {d cause} : Keeps s₀ (s.loseDie d cause) :=
  .either h h.dieGone.faultNow.checkHealth

theorem Keeps.retire (h : Keeps s₀ s) {b} : Keeps s₀ (s.retire b) :=
  .either h (.checkHealth (.either h.setBlk.leaveBands.withFw.journal.tell.loseDie h.setBlk.leaveBands.withFw.journal.tell))

theorem Keeps.eraseIndet (h : Keeps s₀ s) {b begun} : Keeps s₀ (s.eraseIndet b begun) :=
  h.setBlk.withFw.journal

theorem Keeps.loseUnit (h : Keeps s₀ s) {k u cause stripe} : Keeps s₀ (s.loseUnit k u cause stripe) := by
  unfold State.loseUnit
  split
  · exact h
  · exact .either h.takeSeqs.fst.updateUnit.withFw h.takeSeqs.fst.updateUnit.withFw.tell

theorem Keeps.releaseBand (h : Keeps s₀ s) {n} : Keeps s₀ (s.releaseBand n) := by
  unfold State.releaseBand
  split
  · exact h
  · exact .stripeJournal (.withFw (.setBand (h.foldl fun _ _ h => .either h (.either h.retire h.setBlk.journal.withFw))))

/-! ### The functions of Machine/LocketOps.lean -/

theorem Keeps.withLkt (h : Keeps s₀ s) {l} : Keeps s₀ (s.withLkt l) :=
  h.update

theorem Keeps.lkNotice (h : Keeps s₀ s) {event word} : Keeps s₀ (s.lkNotice event word) :=
  .either h.hwSend h

theorem Keeps.lkReport (h : Keeps s₀ s) {cw cbits ue} : Keeps s₀ (s.lkReport cw cbits ue) :=
  .either (Keeps.andThen (.either h.incSat h.incSat) fun h => .lkNotice (.either h h.setFld.setFld.setFld.setFld)) h

theorem Keeps.lkSuspend (h : Keeps s₀ s) {e} : Keeps s₀ (s.lkSuspend e) :=
  h.withLkt

theorem Keeps.lkReadSuspends (h : Keeps s₀ s) {sector} : Keeps s₀ (s.lkReadSuspends sector) := by
  unfold State.lkReadSuspends
  split
  · exact .either h.lkSuspend h
  · exact h

theorem Keeps.lkRead (h : Keeps s₀ s) {cw ecc} : KeepsFst s₀ (s.lkRead cw ecc) :=
  .either (.mk h) (.either (.mk h.lkReadSuspends.lkReport.tick) (.mk h.lkReadSuspends.lkReport))

theorem Keeps.lkLoad (h : Keeps s₀ s) {off ecc} : KeepsFst s₀ (s.lkLoad off ecc) :=
  .mk h.lkRead.fst

theorem Keeps.setPool (h : Keeps s₀ s) {sev p} : Keeps s₀ (s.setPool sev p) :=
  .either h.update.setFld (.either h.update.setFld (.either h.update.setFld h.update.setFld))

theorem Keeps.recorderOp (h : Keeps s₀ s) : Keeps s₀ s.recorderOp := by
  unfold State.recorderOp
  refine .either h ?_
  split
  · exact h.withLkt
  · split
    · exact .withLkt (.update h.setPool)
    · refine .either h ?_
      split
      · exact h.withLkt
      · exact h

theorem Keeps.recorderWord (h : Keeps s₀ s) {good} : Keeps s₀ (s.recorderWord good) := by
  unfold State.recorderWord
  split
  · exact h
  · exact .either h.update.showPending (.either h.update h.setPool.update.showPending)

theorem Keeps.poolErased (h : Keeps s₀ s) {sector} : Keeps s₀ (s.poolErased sector) :=
  h.setPool

theorem Keeps.lkEnd (h : Keeps s₀ s) {port result equal} : Keeps s₀ (s.lkEnd port result equal) :=
  .either (.either h.setFld.setFld.setFld.lkNotice h.setFld.setFld.setFld) (.either h.recorderWord h)

theorem Keeps.lkStartProgram (h : Keeps s₀ s) {o} : Keeps s₀ (s.lkStartProgram o) := by
  unfold State.lkStartProgram
  split
  · exact h.lkEnd
  · exact h.withLkt

theorem Keeps.lkStartErase (h : Keeps s₀ s) {o} : Keeps s₀ (s.lkStartErase o) :=
  h.withLkt

theorem Keeps.lkRunPort (h : Keeps s₀ s) {port} : Keeps s₀ (s.lkRunPort port) := by
  unfold State.lkRunPort
  split
  · extract_lets rest₁
    split
    · exact .either h.withLkt.lkStartErase h.withLkt.lkStartProgram
    · exact .either h.withLkt.lkEnd (.either h.withLkt.lkStartProgram (.either h.withLkt.lkSuspend.lkStartProgram h))
  · exact h

theorem Keeps.lkRun (h : Keeps s₀ s) : Keeps s₀ s.lkRun :=
  h.lkRunPort.lkRunPort.lkRunPort

theorem Keeps.lkSubmit (h : Keeps s₀ s) {o} : Keeps s₀ (s.lkSubmit o) :=
  .either h.lkEnd (.either h.lkEnd (.lkRun (.withLkt (.either h.setFld h))))

theorem Keeps.lkCheck (h : Keeps s₀ s) {port cw ecc} : Keeps s₀ (s.lkCheck port cw ecc) :=
  .either h.lkEnd h.lkRead.fst.setReg.setReg.setFld.setFld.setFld.lkEnd

theorem Keeps.lkRelock (h : Keeps s₀ s) {port} : Keeps s₀ (s.lkRelock port) :=
  h.setFld

theorem Keeps.lkSeqError (h : Keeps s₀ s) {port} : Keeps s₀ (s.lkSeqError port) :=
  h.lkRelock.setFld.setFld

theorem Keeps.lkStep (h : Keeps s₀ s) {port st} : Keeps s₀ (s.lkStep port st) :=
  h.setFld.withLkt

theorem Keeps.lkStore (h : Keeps s₀ s) {port who reg v ecc} : Keeps s₀ (s.lkStore port who reg v ecc) :=
  .either h (.either h.lkSeqError (.either (.either h.lkStep.setFld (.either h.lkStep h.lkSeqError)) (.either
    (.either h.lkStep.withLkt h.lkSeqError) (.either (.either (.either h.lkStep.withLkt (.either h.lkRelock.lkCheck
    (.either h.lkRelock.lkEnd h.lkRelock.lkSubmit))) h.lkSeqError) (.either (.either h.lkStep.setReg.withLkt h.lkSeqError)
    (.either h.lkRelock.setReg.lkSubmit h.lkSeqError))))))

theorem Keeps.lkProgramDone (h : Keeps s₀ s) {verified} : Keeps s₀ (s.lkProgramDone verified) := by
  unfold State.lkProgramDone
  split
  · exact h
  · exact .lkRun (.recorderOp (.either h.withLkt.lkEnd.recorderWord h.withLkt.lkEnd))

theorem Keeps.lkEraseDone (h : Keeps s₀ s) {good} : Keeps s₀ (s.lkEraseDone good) := by
  unfold State.lkEraseDone
  split
  · exact h
  · exact .either h (.lkRun (.recorderOp (.either h.withLkt.lkEnd.poolErased h.withLkt.lkEnd)))

theorem Keeps.lkEraseResume (h : Keeps s₀ s) : Keeps s₀ s.lkEraseResume := by
  unfold State.lkEraseResume
  split
  · exact .either h.withLkt h
  · exact h

theorem Keeps.lkSleep (h : Keeps s₀ s) : Keeps s₀ s.lkSleep := by
  unfold State.lkSleep
  split
  · exact .either h h.lkSuspend
  · exact h

theorem Keeps.lkInterrupted (h : Keeps s₀ s) : Keeps s₀ s.lkInterrupted := by
  unfold State.lkInterrupted
  refine .withLkt ?_
  split
  · exact .either h.poolErased h
  · exact h

theorem Keeps.lkMargin (h : Keeps s₀ s) : Keeps s₀ s.lkMargin :=
  h.setFld

/-! ### The functions of Machine/PsqOps.lean -/

theorem Keeps.psqView (h : Keeps s₀ s) {q} : Keeps s₀ (s.psqView q) :=
  h.setFld.foldl fun _ _ h => h.setFld.setFld.setFld.setFld

theorem Keeps.psqReply (h : Keeps s₀ s) {q r status delivered data} : Keeps s₀ (s.psqReply q r status delivered data) :=
  .hwSend (.psqEvent (.either (h.foldl fun _ _ h => .either h.giveBead h) h))

theorem Keeps.eraseCut (h : Keeps s₀ s) {b} : Keeps s₀ (s.eraseCut b) :=
  .either h.eraseIndet h

theorem Keeps.psqEnd (h : Keeps s₀ s) {q r status delivered data} : Keeps s₀ (s.psqEnd q r status delivered data) := by
  unfold State.psqEnd
  exact .psqView (.psqReply (.either h.setSq.eraseCut h.setSq))

theorem Keeps.psqFinish (h : Keeps s₀ s) {q r status delivered data} : Keeps s₀ (s.psqFinish q r status delivered data) := by
  unfold State.psqFinish
  exact .either h.psqEnd h.setSq

theorem Keeps.psqPut (h : Keeps s₀ s) {q old new} : Keeps s₀ (s.psqPut q old new) :=
  h.setSq

theorem Keeps.psqStart (h : Keeps s₀ s) {q r duringErase} : Keeps s₀ (s.psqStart q r duringErase) :=
  .either h.psqPut.setSq (Keeps.andThen (.either h.psqPut.eraseBegins h.psqPut) fun h => .either h.setFld h)

theorem Keeps.psqProgram (h : Keeps s₀ s) {q held l} : Keeps s₀ (s.psqProgram q held l) := by
  induction l generalizing s held with
  | nil => exact h
  | cons r l ih =>
    unfold State.psqProgram
    exact .either h (.either (ih h.psqPut) (.psqStart (h.foldl fun _ _ h => h.psqStart)))

theorem Keeps.psqSuspend (h : Keeps s₀ s) {q l e} : Keeps s₀ (s.psqSuspend q l e) :=
  h.psqPut.incSat

theorem Keeps.psqLun (h : Keeps s₀ s) {q l} : Keeps s₀ (s.psqLun q l) := by
  unfold State.psqLun
  extract_lets +onlyGivenNames reqs₁ hold₁ read₁
  split
  · clear_value read₁
    split
    · exact .either h.psqSuspend.psqStart h
    · exact h
  · split
    · split
      · exact .either h h.psqStart
      · exact h.psqPut
    · refine .either h ?_
      clear_value reqs₁
      split
      · exact .either h.psqProgram (.psqStart (.either h.setFld h))
      · exact h

theorem Keeps.psqRun (h : Keeps s₀ s) {q} : Keeps s₀ (s.psqRun q) := by
  unfold State.psqRun
  exact Keeps.andThen (.either (h.foldl fun _ _ h => h.psqLun) h) fun h => .either h.psqView.setFld h.psqView

theorem Keeps.appliedLookup (h : Keeps s₀ s) {r e} : KeepsFst s₀ (s.appliedLookup r e) :=
  .either (.either (.mk h.countHidden.appliedLost) (.mk h.countHidden)) (.mk h)

theorem Keeps.psqAccept (h : Keeps s₀ s) {q isOp lookup} : Keeps s₀ (s.psqAccept q isOp lookup) := by
  unfold State.psqAccept
  split
  · refine .either h ?_
    extract_lets s₁
    have h₁ : Keeps s₀ s₁ := h.setBox
    split
    · exact h₁.psqReply
    · exact h₁.appliedLookup.fst.setSq.psqRun
  · exact h

theorem Keeps.psqTurnAway (h : Keeps s₀ s) {q} : Keeps s₀ (s.psqTurnAway q) := by
  unfold State.psqTurnAway
  refine .either h ?_
  extract_lets s₁
  have h₁ : Keeps s₀ s₁ := h.foldl fun _ _ ht => ht.foldl fun _ _ h => h.setBox.psqReply
  split
  · exact .either h₁.setBox.psqReply h₁
  · exact h₁

theorem Keeps.psqNotice (h : Keeps s₀ s) {q srcEp sub b1 stat} : Keeps s₀ (s.psqNotice q srcEp sub b1 stat) :=
  .either h.hwSend h

theorem Keeps.lunGoesOff (h : Keeps s₀ s) {q l cause} : Keeps s₀ (s.lunGoesOff q l cause) :=
  h.setReg.psqNotice.andThen fun h => .either h.log (.withFw (.freezeDie (.either h.log.update h.log)))

theorem Keeps.psqDropOff (h : Keeps s₀ s) {q l} : Keeps s₀ (s.psqDropOff q l) := by
  unfold State.psqDropOff
  exact .either (h.foldl fun _ _ h => h.psqEnd) h

theorem Keeps.psqRerunOne (h : Keeps s₀ s) {q r} : Keeps s₀ (s.psqRerunOne q r) := by
  unfold State.psqRerunOne
  exact .either h.psqPut (.either h.psqEnd h.incSat.psqPut)

theorem Keeps.psqRerun (h : Keeps s₀ s) {q} : Keeps s₀ (s.psqRerun q) := by
  unfold State.psqRerun
  exact .psqRun (h.setSq.foldl fun _ _ h => h.psqRerunOne)

theorem Keeps.psqResume (h : Keeps s₀ s) {q} : Keeps s₀ (s.psqResume q) := by
  unfold State.psqResume
  exact .either h (.either h.psqRerun (.psqRun (h.setSq.foldl fun _ _ h => h.psqEnd)))

theorem Keeps.claspCloses (h : Keeps s₀ s) {c agree} : Keeps s₀ (s.claspCloses c agree) := by
  unfold State.claspCloses
  extract_lets was₁ s₁
  have h₁ : Keeps s₀ s₁ := h.closeDone
  split
  · exact h₁.psqResume
  · exact .either h₁.hostReissue h₁

theorem Keeps.startRetrim (h : Keeps s₀ s) {q} : Keeps s₀ (s.startRetrim q) :=
  .either h h.setSq.setFld

theorem Keeps.startTraining (h : Keeps s₀ s) {q kind} : Keeps s₀ (s.startTraining q kind) :=
  .either h (.either h.setSq.setFld.claspBreak.claspBreak h.setSq.setFld)

theorem Keeps.psqCloses (h : Keeps s₀ s) {q} : Keeps s₀ (s.psqCloses q) :=
  h.claspRecloses.claspRecloses

theorem Keeps.loseChannelDies (h : Keeps s₀ s) {chan} : Keeps s₀ (s.loseChannelDies chan) :=
  h.foldl fun _ _ h => .either h.dieGone h

theorem Keeps.psqLost (h : Keeps s₀ s) {q} : Keeps s₀ (s.psqLost q) := by
  unfold State.psqLost
  exact .checkHealth (.loseChannelDies (.faultNow (h.setSq.foldl fun _ _ h => h.psqEnd)))

theorem Keeps.psqFence (h : Keeps s₀ s) {q} : Keeps s₀ (s.psqFence q) :=
  h.setReg.setFld.claspOpen.claspOpen

theorem Keeps.psqOrphans (h : Keeps s₀ s) {q} : Keeps s₀ (s.psqOrphans q) :=
  h.foldl fun _ _ h => h.giveBead.hwSend

theorem Keeps.psqFenceOut (h : Keeps s₀ s) {q} : Keeps s₀ (s.psqFenceOut q) :=
  h.psqFence.psqOrphans

theorem Keeps.psqPass (h : Keeps s₀ s) {q sp} : Keeps s₀ (s.psqPass q sp) := by
  unfold State.psqPass
  exact .psqView (.setFld (.update (.setBox (.setBox (.setSq (.setSq (.setFld (.setFld (h.foldl fun _ _ h => h.setReg)))))))))

theorem Keeps.psqSwitch (h : Keeps s₀ s) {q sp kind injected} : Keeps s₀ (s.psqSwitch q sp kind injected) := by
  unfold State.psqSwitch
  exact .faultTold (.setReg (.tick (.either h.faultDetected.psqFence.psqPass.hwSend h.faultDetected.psqFence.psqPass)))

theorem Keeps.seqFail (h : Keeps s₀ s) {q injected} : Keeps s₀ (s.seqFail q injected) := by
  unfold State.seqFail
  refine .either h ?_
  refine .either h.faultDetected.psqFenceOut.faultTold ?_
  extract_lets again₁
  split
  · exact .either h.psqFenceOut.psqLost h.psqSwitch
  · exact h.psqFenceOut.psqLost

theorem Keeps.spareLoaded (h : Keeps s₀ s) {q good} : Keeps s₀ (s.spareLoaded q good) := by
  unfold State.spareLoaded
  refine .either h ?_
  refine .either h.setSq.setFld.setFld.setFld.psqCloses.psqResume ?_
  extract_lets s₁
  have h₁ : Keeps s₀ s₁ := h.setFld.setFld
  split
  · exact .either h₁ h₁.psqSwitch
  · exact h₁.faultNow.psqFenceOut.psqLost

theorem Keeps.endProgram (h : Keeps s₀ s) {q r pass stopped errors busy} : Keeps s₀ (s.endProgram q r pass stopped errors busy) :=
  h.meetErrors.andThen fun h => .either h.incSat.psqFinish (.either h.psqPut.withFw.psqFinish h.psqPut.incSat.psqFinish)

theorem Keeps.endErase (h : Keeps s₀ s) {q r pass busy} : Keeps s₀ (s.endErase q r pass busy) :=
  .either h.psqPut.blockErased.psqFinish h.psqPut.retire.incSat.psqFinish

theorem Keeps.writeBeadBytes (h : Keeps s₀ s) {b l} : Keeps s₀ (s.writeBeadBytes b l) :=
  h.withMem (Mem.wf_writeDoubles _ _)

theorem Keeps.levelWritten (h : Keeps s₀ s) {q r} : Keeps s₀ (s.levelWritten q r) :=
  .either h h.setSq

theorem Keeps.dieReady (h : Keeps s₀ s) {q r busy pass stopped data errors} :
    Keeps s₀ (s.dieReady q r busy pass stopped data errors) :=
  .either (.either h.psqPut.psqFinish h.psqPut) (.either h.endProgram (.either h.endErase (.either h.psqPut (Keeps.andThen
    (.either h.levelWritten h) fun ht => Keeps.andThen (.either ht.psqPut.writeBeadBytes ht.psqPut) fun h => .psqFinish (.either
    (.either h.setSq h) (.incSat (.either h.setSq h)))))))

theorem Keeps.dieDone (h : Keeps s₀ s) {q l busy pass data errors} : Keeps s₀ (s.dieDone q l busy pass data errors) := by
  unfold State.dieDone
  split
  · exact h
  · exact .psqRun (h.psqEvent.setFld.foldl fun _ _ h => h.dieReady)

theorem Keeps.dieTimedOut (h : Keeps s₀ s) {q l resetOk} : Keeps s₀ (s.dieTimedOut q l resetOk) := by
  unfold State.dieTimedOut
  split
  · exact h
  · exact Keeps.andThen (h.incSat.incSat.setSq.psqEvent.foldl fun _ _ h => h.psqFinish) fun h => .psqRun (.psqDropOff
      (.either h.lunGoesOff h))

theorem Keeps.planeHoldOver (h : Keeps s₀ s) {q l} : Keeps s₀ (s.planeHoldOver q l) := by
  unfold State.planeHoldOver
  exact .psqRun (h.foldl fun _ _ h => h.psqFinish)

theorem Keeps.trainingDone (h : Keeps s₀ s) {q good ceok luns} : Keeps s₀ (s.trainingDone q good ceok luns) := by
  unfold State.trainingDone
  exact .either h (.either (h.psqEvent.setSq.incSat.andThen fun h => .either h.setFld.setSq.psqRun
    (.either h.setFld.startTraining h.setFld.setSq.psqRun)) (.either
    (.either h.setSq.setFld.setFld.setFld.psqCloses.psqEvent.psqLost (.psqResume
    (h.setSq.setFld.setFld.setFld.psqCloses.psqEvent.foldl fun _ _ h => h.psqDropOff))) (.psqRun
    (h.psqEvent.setSq.setFld.foldl fun _ _ h => .either h h.setReg.tell))))

theorem Keeps.psqBringUp (h : Keeps s₀ s) {q} : Keeps s₀ (s.psqBringUp q) :=
  .either h.setFld h.setFld.startTraining.psqView

/-! ### The functions of Machine/SlotOps.lean -/

theorem Keeps.poolWait (h : Keeps s₀ s) {chan} : Keeps s₀ (s.poolWait chan) :=
  .either h.incWrap h

theorem Keeps.slotCapture (h : Keeps s₀ s) {chan bytes} : Keeps s₀ (s.slotCapture chan bytes) := by
  unfold State.slotCapture
  split
  · exact h
  · refine .either h ?_
    split
    · exact h
    · split
      · exact h
      · exact .either h (Keeps.andThen (.either h.update.poolWait h.update) fun ht => Keeps.andThen
          (.either ht.incWrap.incSat ht.incWrap) fun h => .either h.psqPut.startRetrim h.psqPut)

theorem Keeps.slotCounters (h : Keeps s₀ s) {chan r w o word} : Keeps s₀ (s.slotCounters chan r w o word) :=
  Keeps.andThen (.either h.incWrap (.either h.incWrap h)) fun ht => Keeps.andThen (.either ht.incSat ht) fun ht => Keeps.andThen
    (.either (.incSat (.either ht.incSat ht)) (.either ht.incSat ht)) fun h => .either (.setFld (.setFld (.setFld (.incSat
    (.either h.incSat h))))) (.either h.incSat h)

theorem Keeps.readDone (h : Keeps s₀ s) {q r} : Keeps s₀ (s.readDone q r) := by
  unfold State.readDone
  exact .either h.psqFinish.psqRun h

theorem Keeps.slotEnd (h : Keeps s₀ s) {chan q r w full} : Keeps s₀ (s.slotEnd chan q r w full) := by
  unfold State.slotEnd
  have hw {m p} : Keeps s₀ (s.withMem (s.mem.writeUnit m (wordsOf p 524) (s.slotOutcome chan r w).poison
      (s.slotOutcome chan r w).tagPoison)) := h.withMem (Mem.wf_writeUnit _ _ _ _)
  exact Keeps.andThen (.either hw.slotCounters.poolWait hw.slotCounters) fun h =>
    .readDone (.psqPut (.either (.either h.incSat h.update) h))

theorem Keeps.slotDecodeDone (h : Keeps s₀ s) {chan full} : Keeps s₀ (s.slotDecodeDone chan full) := by
  unfold State.slotDecodeDone
  split
  · exact h
  · split
    · exact h
    · split
      · exact h
      · exact h.slotEnd

theorem Keeps.nanoEffect (h : Keeps s₀ s) {q n status} : Keeps s₀ (s.nanoEffect q n status) := by
  unfold State.nanoEffect
  extract_lets e₁ e₂ e₃ e₄ e₅ e₆ e₇ s₁
  have h₁ : Keeps s₀ s₁ := h.setSq
  split
  · exact h₁
  · exact .either h₁.psqSuspend (.either h₁.psqPut h₁)

theorem Keeps.microNext (h : Keeps s₀ s) {q pc clocks n} : Keeps s₀ (s.microNext q pc clocks n) :=
  h.setFld.incWrap

theorem Keeps.microStep (h : Keeps s₀ s) {q op seen expired status} : Keeps s₀ (s.microStep q op seen expired status) := by
  unfold State.microStep
  refine .either h ?_
  refine .either h.psqEvent.seqFail ?_
  extract_lets +onlyGivenNames holds₁ c₁ s₁
  have h₁ : Keeps s₀ s₁ := h.nanoEffect
  refine .either h₁.microNext ?_
  refine .either h₁.microNext ?_
  refine .either (.either h₁.microNext (.either h₁.microNext h₁.microNext)) ?_
  refine .either h₁.setSq.microNext ?_
  refine .either h₁.microNext ?_
  refine .either h₁.setSq.microNext ?_
  refine .either h₁.setSq.microNext ?_
  extract_lets s₂
  have h₂ : Keeps s₀ s₂ := h₁.microNext
  split
  · exact h₂.setSq.psqFinish.psqRun
  · exact h₂

/-! ### The functions of Machine/AssayOps.lean -/

theorem Keeps.asyNotice (h : Keeps s₀ s) {ix raise e} : Keeps s₀ (s.asyNotice ix raise e) :=
  .either h.hwSend h

theorem Keeps.asyRaise (h : Keeps s₀ s) {ix e} : Keeps s₀ (s.asyRaise ix e) :=
  .either h.putEntry.setFld.incWrap.asyNotice.update.tell h.putEntry.setFld.incWrap.asyNotice

theorem Keeps.asyGuard (h : Keeps s₀ s) {ix e} : Keeps s₀ (s.asyGuard ix e) :=
  .either h.asyRaise (.either h.putEntry.setFld.asyNotice h.putEntry)

theorem Keeps.asyTableError (h : Keeps s₀ s) {ix} : Keeps s₀ (s.asyTableError ix) :=
  h.incSat.setFld.putEntry

theorem Keeps.discard (h : Keeps s₀ s) {f} : Keeps s₀ (s.discard f) :=
  h.update.incSat

theorem Keeps.asyTake (h : Keeps s₀ s) {r ecc} : Keeps s₀ (s.asyTake r ecc) :=
  .either h.incSat (.either h.discard (Keeps.andThen (.either h.readOutcome.fst.asyTableError h.readOutcome.fst) fun h =>
    .either h.discard (.either h.discard (.either (.either h.discard.putEntry h.discard.asyRaise)
    (.either h.update.incWrap h.update.incWrap.asyGuard)))))

theorem Keeps.asyNext (h : Keeps s₀ s) {ecc} : Keeps s₀ (s.asyNext ecc) := by
  unfold State.asyNext
  split
  · exact h
  · exact h.update.asyTake

theorem Keeps.asyLoad (h : Keeps s₀ s) : Keeps s₀ s.asyLoad :=
  .either h h.update.setFld

theorem Keeps.asyPrepare (h : Keeps s₀ s) : Keeps s₀ s.asyPrepare :=
  .either h (.setFld (.update (h.foldl fun _ _ h => h.putWords.putWords)))

theorem Keeps.asyLoadDone (h : Keeps s₀ s) : Keeps s₀ s.asyLoadDone :=
  .either h (Keeps.andThen (h.update.setFld.setFld.setFld.foldl fun _ _ h => h.freezeDie) fun h => .either h.setFld h)

theorem Keeps.asySnap (h : Keeps s₀ s) : Keeps s₀ s.asySnap :=
  .either h h.update.setFld.setFld

theorem Keeps.asyCopies (h : Keeps s₀ s) : Keeps s₀ s.asyCopies :=
  .either h.asySnap h

theorem Keeps.saveAssay (h : Keeps s₀ s) : Keeps s₀ s.saveAssay :=
  .either h.update h

theorem Keeps.asySnapDone (h : Keeps s₀ s) : Keeps s₀ s.asySnapDone := by
  unfold State.asySnapDone
  exact .either h (.setFld (.setFld (.saveAssay
    (h.rewrite fun k => Mem.wf_foldl _ (fun _ _ k => Mem.wf_writeDoubles _ _ k) _ k))))

theorem Keeps.asyAcq (h : Keeps s₀ s) : Keeps s₀ s.asyAcq :=
  h.foldl fun _ _ h => h.putEntry

theorem Keeps.asyCmdOn (h : Keeps s₀ s) {op ix} : Keeps s₀ (s.asyCmdOn op ix) :=
  .either h.putEntry (.either h.putEntry (.putEntry (.either h.setFld.asyNotice h)))

theorem Keeps.asyCmd (h : Keeps s₀ s) {op allg} : Keeps s₀ (s.asyCmd op allg) :=
  .either (h.foldl fun _ _ h => h.asyCmdOn) h.asyCmdOn

/-! ### The functions of Machine/ParOps.lean -/

theorem Keeps.parReply (h : Keeps s₀ s) {j} : Keeps s₀ (s.parReply j) :=
  h.hwSend

theorem Keeps.parView (h : Keeps s₀ s) : Keeps s₀ s.parView :=
  h.setFld.setFld

theorem Keeps.parCount (h : Keeps s₀ s) {op} : Keeps s₀ (s.parCount op) :=
  .either h.incWrap (.either h.incWrap (.either h.incWrap.incSat h.incWrap))

theorem Keeps.parRun (h : Keeps s₀ s) {r errors} : Keeps s₀ (s.parRun r errors) := by
  unfold State.parRun
  extract_lets s₁ beads₁ l₁ bad₁ read₁ s₂
  have h₂ : Keeps s₀ s₂ := h.parCount.meetErrors
  clear_value bad₁
  split
  · exact h₂.incSat.setFld.update
  · exact .either (.either h₂.update h₂.incSat.update)
      (h₂.rewrite fun k => Mem.wf_foldl _ (fun _ _ k => Mem.wf_writeSpan _ _ k) _ k)

theorem Keeps.parTake (h : Keeps s₀ s) {op errors} : Keeps s₀ (s.parTake op errors) := by
  unfold State.parTake
  split
  · exact .either h (.parView (.either h.setBox.parRun h.setBox.incSat.parReply))
  · exact h

theorem Keeps.parTurnAway (h : Keeps s₀ s) : Keeps s₀ s.parTurnAway := by
  unfold State.parTurnAway
  extract_lets s₁
  have h₁ : Keeps s₀ s₁ := h.foldl fun _ _ ht => ht.foldl fun _ _ h => h.setBox.incSat.parReply
  split
  · exact .either h₁.setBox.incSat.parReply.parView h₁.parView
  · exact h₁

theorem Keeps.parDone (h : Keeps s₀ s) : Keeps s₀ s.parDone := by
  unfold State.parDone
  split
  · exact h
  · exact h.update.parReply.parView

/-! ### The functions of Machine/CtlFlash.lean -/

theorem Keeps.noteOffline (h : Keeps s₀ s) {q l} : Keeps s₀ (s.noteOffline q l) :=
  .either (.either h h.freezeDie.withFw) (.either h (.withFw (.either h.update h.update.freezeDie)))

theorem Keeps.actPsq (h : Keeps s₀ s) {off v new} : Keeps s₀ (s.actPsq off v new) := by
  unfold State.actPsq
  exact .either (.either h.setReg.psqBringUp.psqRun h.setReg.setFld.psqRun) (.either (.either h.setReg.startTraining h.setReg)
    (.either (.either h.startTraining (.either h.startRetrim h)) (.either (.psqRun
    (h.setReg.foldl fun _ _ h => h.noteOffline.psqDropOff)) h.setReg)))

theorem Keeps.actAsy (h : Keeps s₀ s) {off v new} : Keeps s₀ (s.actAsy off v new) :=
  .either (Keeps.andThen (.either h.setReg.asyLoad h.setReg) fun ht => Keeps.andThen (.either ht.asySnap ht) fun h =>
    .either h.asyAcq h) (.either h.asyCmd h.setReg)

/-! ### The functions of Machine/PwrOps.lean -/

theorem Keeps.withPwr (h : Keeps s₀ s) {p} : Keeps s₀ (s.withPwr p) :=
  h.update

theorem Keeps.avsRequest (h : Keeps s₀ s) {mv} : Keeps s₀ (s.avsRequest mv) :=
  h.setFld.setFld

theorem Keeps.avsDone (h : Keeps s₀ s) {mv good ok} : Keeps s₀ (s.avsDone mv good ok) :=
  .either h (.either h.setFld.setFld.setFld.setFld h.setFld.setFld)

theorem Keeps.psqPowerDown (h : Keeps s₀ s) {q} : Keeps s₀ (s.psqPowerDown q) :=
  .either h (.either h.islandLoses.setSq.update.setReg.setFld h.islandLoses.setSq.update.setReg.setFld.setFld)

theorem Keeps.ringCalibrate (h : Keeps s₀ s) : Keeps s₀ s.ringCalibrate :=
  .either h.tick.setFld.setFld.withPwr h.setFld

theorem Keeps.loseBanks (h : Keeps s₀ s) {mask} : Keeps s₀ (s.loseBanks mask) :=
  Keeps.andThen (.either h h.update) fun ht => Keeps.andThen (.either (.either ht ht.update) (.setReg (.update
    (.either ht ht.update)))) fun h => .either h h.update

theorem Keeps.sleepStep5 (h : Keeps s₀ s) {deep} : Keeps s₀ (s.sleepStep5 deep) := by
  unfold State.sleepStep5
  exact Keeps.andThen (h.lkSleep.foldl fun _ _ h => h.claspOpen) fun ht => .andThen (.setFld (.setFld (.setFld (.withPwr (.update
    (.foldl (.setFld (.setReg (.ringCalibrate (.either ht.claspOpen.claspOpen ht)))) fun _ _ h => h.psqPowerDown)))))) fun h =>
    .andThen (.loseBanks (.withMem h (Mem.wf_keep _))) fun h => .incWrap (.setFld (.either h.update h.avsRequest))

theorem Keeps.sleepWhenQuiet (h : Keeps s₀ s) : Keeps s₀ s.sleepWhenQuiet :=
  .either h.setFld h.sleepStep5

theorem Keeps.actPwrCtl (h : Keeps s₀ s) {off v new} : Keeps s₀ (s.actPwrCtl off v new) :=
  .either h.setReg.sleepWhenQuiet h.setReg

theorem Keeps.actPwr (h : Keeps s₀ s) {off v new} : Keeps s₀ (s.actPwr off v new) :=
  .either h.actPwrCtl (.either h.avsRequest h.setReg)

theorem Keeps.setStamp (h : Keeps s₀ s) {v} : Keeps s₀ (s.setStamp v) :=
  h.setReg.setFld.setFld.withPwr

/-! ### The functions of Machine/CtlSpace.lean -/

theorem Keeps.actLkt (h : Keeps s₀ s) {who off v new ecc} : Keeps s₀ (s.actLkt who off v new ecc) := by
  unfold State.actLkt
  split
  · exact h.lkStore
  · exact .either h.setReg.lkMargin h.setReg

theorem Keeps.countRefusal (h : Keeps s₀ s) {off} : Keeps s₀ (s.countRefusal off) :=
  .either h.incSat h

theorem Keeps.ctlLoad (h : Keeps s₀ s) {off} : KeepsFst s₀ (s.ctlLoad off) := by
  unfold State.ctlLoad
  split
  · exact .mk h
  · extract_lets +onlyGivenNames v₁
    split
    · exact .mk h.update
    · refine .mk ?_
      split
      · exact h.laneRead
      · exact h

theorem Keeps.ctlAct (h : Keeps s₀ s) {who off old v new ecc} : Keeps s₀ (s.ctlAct who off old v new ecc) := by
  unfold State.ctlAct
  exact .either h.setReg (.either h.writeMode (.either h.setReg (.either h.actFct (.either (.either h h.actClp) (.either h.actHqe
    (.either h.actBpm (.either h.actMap (.either h.actPsq (.either h.setReg (.either h.actAsy (.either h.setReg (.either h.actMec
    (.either h.actFlt (.either h.setReg (.either h.actLkt (.either h.actPwr (.either h.actEvr
    (.either h.setStamp h.setReg))))))))))))))))))

theorem Keeps.ctlWrite (h : Keeps s₀ s) {who off v ecc} : Keeps s₀ (s.ctlWrite who off v ecc) := by
  unfold State.ctlWrite
  split
  · exact h.incSat
  · split
    · exact h.ctlAct
    · exact h

theorem Keeps.ctlStore (h : Keeps s₀ s) {who off v ecc} : Keeps s₀ (s.ctlStore who off v ecc) := by
  unfold State.ctlStore
  split
  · exact h.countRefusal
  · exact h.ctlWrite

/-! ### The functions of Machine/Operands.lean -/

theorem Keeps.gate (h : Keeps s₀ s) {n f} : KeepsFst s₀ (s.gate n f) :=
  .either (.mk h) (.either (.mk h.setCore) (.either (.mk h.trap) (.either (.mk h.trap) (.either (.mk h.readOutcome.fst.trap)
    (.mk h.readOutcome.fst)))))

theorem Keeps.facet (h : Keeps s₀ s) {n f k} (hk : ∀ t, Keeps s₀ t → Keeps s₀ (k t)) : Keeps s₀ (s.facet n f k) :=
  .either (hk _ h.gate.fst) h.gate.fst

theorem Keeps.goto (h : Keeps s₀ s) {n pc} : Keeps s₀ (s.goto n pc) :=
  h.setCore

theorem Keeps.jumpTo (h : Keeps s₀ s) {n a} : Keeps s₀ (s.jumpTo n a) :=
  h.setCore

theorem Keeps.advance (h : Keeps s₀ s) {n} : Keeps s₀ (s.advance n) :=
  h.goto

theorem Keeps.setG (h : Keeps s₀ s) {n r v} : Keeps s₀ (s.setG n r v) :=
  h.setCore

theorem Keeps.result (h : Keeps s₀ s) {n gd v poison} : Keeps s₀ (s.result n gd v poison) :=
  h.setG.advance

theorem Keeps.alu2 (h : Keeps s₀ s) {n gd ga gb op} : Keeps s₀ (s.alu2 n gd ga gb op) :=
  h.result

theorem Keeps.alu1 (h : Keeps s₀ s) {n gd ga op} : Keeps s₀ (s.alu1 n gd ga op) :=
  h.result

theorem Keeps.bite (h : Keeps s₀ s) {n detail r k} (hk : ∀ t, Keeps s₀ t → Keeps s₀ (k t)) : Keeps s₀ (s.bite n detail r k) :=
  .either h.trap (hk _ h)

theorem Keeps.checked (h : Keeps s₀ s) {n a size k go} (hgo : ∀ t, Keeps s₀ t → Keeps s₀ (go t)) :
    Keeps s₀ (s.checked n a size k go) := by
  unfold State.checked
  split
  · exact h.trap
  · exact hgo _ h

theorem Keeps.loadFrom (h : Keeps s₀ s) {n a size ecc} : KeepsFst s₀ (s.loadFrom n a size ecc) := by
  unfold State.loadFrom
  split
  · exact .mk h.lkLoad.fst
  · exact h.loadBytes

theorem Keeps.loadInto (h : Keeps s₀ s) {n gd a size signed ecc} : Keeps s₀ (s.loadInto n gd a size signed ecc) := by
  unfold State.loadInto
  refine h.checked (fun _ h => ?_)
  split
  · split
    · exact h.trap
    · exact .either h.trap h.ctlLoad.fst.result
  · exact h.loadFrom.fst.result

theorem Keeps.loadImm (h : Keeps s₀ s) {n gd ga imm size signed ecc} : Keeps s₀ (s.loadImm n gd ga imm size signed ecc) :=
  h.bite (fun _ h => h.loadInto)

theorem Keeps.storeCtl (h : Keeps s₀ s) {n a off gs ecc} : Keeps s₀ (s.storeCtl n a off gs ecc) := by
  unfold State.storeCtl
  extract_lets v₁ c₁
  split
  · exact h.countRefusal.trap
  · exact .either (.either h.trap h.setCore.advance) h.advance.ctlWrite

theorem Keeps.biteData (h : Keeps s₀ s) {n a gs k} (hk : ∀ t, Keeps s₀ t → Keeps s₀ (k t)) : Keeps s₀ (s.biteData n a gs k) := by
  unfold State.biteData
  split
  · exact h.bite (fun _ h => hk _ h)
  · exact hk _ h

theorem Keeps.storeFrom (h : Keeps s₀ s) {n gs a size k ecc} : Keeps s₀ (s.storeFrom n gs a size k ecc) := by
  unfold State.storeFrom
  refine h.biteData (fun _ ht => ?_)
  refine ht.checked (fun _ h => ?_)
  split
  · exact h.storeCtl
  · exact h.storeBytes.advance

theorem Keeps.storeImm (h : Keeps s₀ s) {n gs ga imm size k ecc} : Keeps s₀ (s.storeImm n gs ga imm size k ecc) :=
  h.bite (fun _ h => h.storeFrom)

theorem Keeps.zeroHalf (h : Keeps s₀ s) {n a ecc} : Keeps s₀ (s.zeroHalf n a ecc) :=
  .either h.update h.settleHalf.update

theorem Keeps.zeroBlock (h : Keeps s₀ s) {n a ecc} : Keeps s₀ (s.zeroBlock n a ecc) := by
  unfold State.zeroBlock
  exact .foldl (.either h.zeroHalf h) fun _ _ h => .encode (h.withMem (Mem.wf_writeDouble _ _ _))

theorem Keeps.atomicOn (h : Keeps s₀ s) {n gd a new ecc} : Keeps s₀ (s.atomicOn n gd a new ecc) := by
  unfold State.atomicOn
  extract_lets +onlyGivenNames k₁ r₁
  have h₁ : KeepsFst s₀ r₁ := h.loadBytes
  refine .either h₁.fst.result (.result ?_)
  split
  · exact .encode (h₁.fst.withMem (Mem.wf_writeDouble _ _ _))
  · exact h₁.fst

theorem Keeps.atomic (h : Keeps s₀ s) {n gd ga gb op ecc} : Keeps s₀ (s.atomic n gd ga gb op ecc) :=
  h.bite (fun _ ht => ht.bite (fun _ ht => ht.checked (fun _ h => h.atomicOn)))

theorem Keeps.illegal (h : Keeps s₀ s) {n detail w} : Keeps s₀ (s.illegal n detail w) :=
  h.trap

theorem Keeps.branch (h : Keeps s₀ s) {n ga gb off cond} : Keeps s₀ (s.branch n ga gb off cond) :=
  h.bite (fun _ ht => ht.bite (fun _ h => .either h.goto h.advance))

/-! ### The functions of Machine/FacetOps.lean -/

theorem Keeps.buffer (h : Keeps s₀ s) {n a k} (hk : ∀ t, Keeps s₀ t → Keeps s₀ (k t)) : Keeps s₀ (s.buffer n a k) := by
  unfold State.buffer
  split
  · exact h.trap
  · exact hk _ h

theorem Keeps.putPayload (h : Keeps s₀ s) {n a p} : Keeps s₀ (s.putPayload n a p) :=
  h.withMem (Mem.wf_writeDoubles _ _)

theorem Keeps.sendOut (h : Keeps s₀ s) {n w mbx p sent waits} (hsent : ∀ t, Keeps s₀ t → Keeps s₀ (sent t))
    (hwaits : ∀ t, Keeps s₀ t → Keeps s₀ (waits t)) :
    Keeps s₀ (s.sendOut n w mbx p sent waits) :=
  .either (.either h.trap (hsent _ h.setCore)) (.either (hwaits _ h) (hsent _ h.chainSend))

theorem Keeps.sendFrom (h : Keeps s₀ s) {n gr ge mbx ecc sent waits} (hsent : ∀ t, Keeps s₀ t → Keeps s₀ (sent t))
    (hwaits : ∀ t, Keeps s₀ t → Keeps s₀ (waits t)) :
    Keeps s₀ (s.sendFrom n gr ge mbx ecc sent waits) := by
  unfold State.sendFrom
  refine h.bite (fun _ ht => ?_)
  refine ht.bite (fun _ ht => ?_)
  refine ht.buffer (fun _ ht => ?_)
  extract_lets +onlyGivenNames r₁
  have h₁ : KeepsFst s₀ r₁ := ht.readOutcome
  refine .either h₁.fst.trap ?_
  extract_lets s₁ w₁
  have h₂ : Keeps s₀ s₁ := h₁.fst
  split
  · exact h₂.trap
  · exact h₂.sendOut (fun _ h => hsent _ h) (fun _ h => hwaits _ h)

theorem Keeps.setStatus (h : Keeps s₀ s) {n st} : Keeps s₀ (s.setStatus n st) :=
  h.setCore

theorem Keeps.csendDone (h : Keeps s₀ s) {n} : Keeps s₀ (s.csendDone n) :=
  h.setStatus.advance

theorem Keeps.csend (h : Keeps s₀ s) {n gr ge mbx ecc} : Keeps s₀ (s.csend n gr ge mbx ecc) :=
  h.sendFrom (fun _ h => h.csendDone) (fun _ h => h.setStatus)

theorem Keeps.badHead (h : Keeps s₀ s) {n mbx m rest} : Keeps s₀ (s.badHead n mbx m rest) :=
  h.setBox.incSat.setFld.logAll.trap

theorem Keeps.takeMessage (h : Keeps s₀ s) {n gr ge mbx m rest} : Keeps s₀ (s.takeMessage n gr ge mbx m rest) :=
  .either h.trap (.result (.setStatus (.putPayload (.setBox (.either h.setCore h)))))

theorem Keeps.receive (h : Keeps s₀ s) {n gr ge mbx empty} (hempty : ∀ t, Keeps s₀ t → Keeps s₀ (empty t)) :
    Keeps s₀ (s.receive n gr ge mbx empty) := by
  unfold State.receive
  refine h.bite (fun _ ht => ?_)
  refine ht.buffer (fun _ h => ?_)
  split
  · exact hempty _ h
  · exact .either h.takeMessage h.badHead

theorem Keeps.crecv (h : Keeps s₀ s) {n gr ge mbx} : Keeps s₀ (s.crecv n gr ge mbx) :=
  h.receive (fun _ h => h.setStatus)

theorem Keeps.cwait (h : Keeps s₀ s) {n gr ge} : Keeps s₀ (s.cwait n gr ge) :=
  h.bite (fun _ h => .either h.setStatus.result h.setStatus)

theorem Keeps.settleRecv (h : Keeps s₀ s) {n} : Keeps s₀ (s.settleRecv n) := by
  unfold State.settleRecv
  split
  · exact h.crecv
  · exact h.cwait
  · exact h

theorem Keeps.settleSend (h : Keeps s₀ s) {n} : Keeps s₀ (s.settleSend n) := by
  unfold State.settleSend
  split
  · exact h.csend
  · exact h

theorem Keeps.settle (h : Keeps s₀ s) : Keeps s₀ s.settle :=
  .either (.foldl (h.foldl fun _ _ h => h.settleRecv) fun _ _ h => h.settleSend) h

theorem Keeps.applyEffect (h : Keeps s₀ s) {n a} : Keeps s₀ (State.applyEffect n s a) := by
  unfold State.applyEffect
  split
  · exact h.releaseBead
  · exact h.giveBead
  · exact h.dropPin
  · exact h
  · exact h

theorem Keeps.commit (h : Keeps s₀ s) {n} : Keeps s₀ (s.commit n) :=
  .foldl (.foldl (h.writeCheckpoint.setCore.incWrap.advance.foldl fun _ _ h => h.applyEffect) fun _ _ h => h.ctlStore)
    fun _ _ h => h.chainSend

theorem Keeps.track (h : Keeps s₀ s) {n e} : Keeps s₀ (s.track n e) :=
  .either h.setCore h

theorem Keeps.mlookOp (h : Keeps s₀ s) {n gd mpn op dir} : Keeps s₀ (s.mlookOp n gd mpn op dir) := by
  unfold State.mlookOp
  extract_lets +onlyGivenNames ep₁ set₁ d₁
  have h₁ : KeepsFst s₀ d₁ := h.readOutcome
  refine .either (.result (.either h₁.fst.dirError h₁.fst)) ?_
  extract_lets +onlyGivenNames s₁
  have h₂ : Keeps s₀ s₁ := h₁.fst
  refine .either h₂.result ?_
  extract_lets r₁
  have h₃ : KeepsFst s₀ r₁ := h₂.mlook
  split
  · exact .either (.either h₂.trap h₃.fst.track.result) h₃.fst.result
  · exact h₃.fst.result

theorem Keeps.blockAt (h : Keeps s₀ s) {n a ecc} : KeepsFst s₀ (s.blockAt n a ecc) := by
  unfold State.blockAt
  split
  · exact .mk h.lkLoad.fst
  · exact .mk h.readOutcome.fst

/-! ### The functions of Machine/Filigree.lean -/

theorem Keeps.newRoot (h : Keeps s₀ s) {system} : Keeps s₀ (s.newRoot system) :=
  h.withFw

theorem Keeps.openBlocks (h : Keeps s₀ s) {use bs} : Keeps s₀ (s.openBlocks use bs) :=
  Keeps.andThen (.foldl (.stripeJournal (.withFw
    (h.foldl fun _ _ h => h.setBlk.withFw.journal))) fun _ _ h => h.stripeJournal) fun h =>
    .either h.stripeJournal.newRoot h.stripeJournal

theorem Keeps.openBand (h : Keeps s₀ s) {use} : Keeps s₀ (s.openBand use) :=
  .either h h.openBlocks

theorem Keeps.moveWindow (h : Keeps s₀ s) {serial row} : Keeps s₀ (s.moveWindow serial row) := by
  unfold State.moveWindow
  split
  · exact .either h.setBand.stripeJournal h
  · exact h

theorem Keeps.programPages (h : Keeps s₀ s) {bd row dies slots} : Keeps s₀ (s.programPages bd row dies slots) :=
  h.withFw

theorem Keeps.putPads (h : Keeps s₀ s) {bd row dies} : Keeps s₀ (s.putPads bd row dies) :=
  h.tick.programPages

theorem Keeps.rowEnds (h : Keeps s₀ s) {serial row} : Keeps s₀ (s.rowEnds serial row) := by
  unfold State.rowEnds
  split
  · exact h
  · exact .either (h.setBand.stripeJournal.andThen fun h => .either h.closeBand h) h

theorem Keeps.putStripe (h : Keeps s₀ s) {fence use serial row j direct us} :
    KeepsSomeFst s₀ (s.putStripe fence use serial row j direct us) := by
  unfold State.putStripe
  split
  · exact .none
  · exact .either .none (.some (.mk (.rowEnds (.either h.moveWindow.programPages.putPads h.moveWindow.programPages))))

theorem Keeps.putRows (h : Keeps s₀ s) {use serial j l} : KeepsSomeFst s₀ (s.putRows use serial j l) := by
  induction l generalizing s with
  | nil => exact .some (.mk h)
  | cons r l ih =>
    obtain ⟨row, direct, us⟩ := r
    unfold State.putRows
    split
    · exact .none
    · next heq => exact .map (ih (h.putStripe.of_eq heq)) fun _ h => h

theorem Keeps.memberFailed (h : Keeps s₀ s) {use w b} : Keeps s₀ (s.memberFailed use w b) :=
  h.withFw.retire

theorem Keeps.putAt (h : Keeps s₀ s) {use w us} : KeepsSomeFst s₀ (s.putAt use w us) := by
  unfold State.putAt
  refine .either (.map h.putRows fun p hp => ?_) .none
  split
  · exact .mk hp.fst.memberFailed
  · exact hp

theorem Keeps.readyBand (h : Keeps s₀ s) {use w} : Keeps s₀ (s.readyBand use w) :=
  .either h (.either h h.openBand)

/-! ### The functions of Machine/FwJournal.lean -/

theorem Keeps.takeRanges (h : Keeps s₀ s) {l} : Keeps s₀ (s.takeRanges l) := by
  induction l generalizing s with
  | nil => exact h
  | cons r l ih =>
    unfold State.takeRanges
    exact .either (ih (.withFw (h.takeSeqs.fst.foldl fun _ _ h => h.journal))) (ih h)

theorem Keeps.flushStart (h : Keeps s₀ s) {clean pfail} : Keeps s₀ (s.flushStart clean pfail) := by
  unfold State.flushStart
  split
  · exact h.wantFlush
  · exact .either (.wantFlush (.either h h.openBand)) (.withFw (KeepsFst.fst (.takeEach (.takeRanges (.either h h.openBand)))))

theorem Keeps.copyTo (h : Keeps s₀ s) {i d} : KeepsSome s₀ (s.copyTo i d) := by
  unfold State.copyTo
  refine .ofMap fun b => ?_
  extract_lets s₁ s₂ old s₃
  have h₂ : Keeps s₀ s₂ := h.setBlk.journal
  have h₃ : Keeps s₀ s₃ := by
    unfold s₃
    clear_value old
    split
    · exact .either h₂.setBlk.journal.withFw h₂
    · exact h₂
  exact h₃.stripeJournal.withFw.newRoot

theorem Keeps.stripeWrite (h : Keeps s₀ s) {failed d} : Keeps s₀ (s.stripeWrite failed d) := by
  unfold State.stripeWrite
  extract_lets s₁
  have h₁ : Keeps s₀ s₁ := by
    unfold s₁
    split
    · split
      · next heq => exact .withFw (KeepsSome.of_eq (.either h.copyTo .none) heq)
      · exact h
    · exact h
  exact Keeps.andThen (h₁.foldl fun _ _ h => .either (KeepsSome.getD h.copyTo h) h) fun h => .either h.withFw.withFw h.withFw

theorem Keeps.stripeSync (h : Keeps s₀ s) : Keeps s₀ s.stripeSync := by
  unfold State.stripeSync
  exact .stripeWrite (.either (.stripeWrite (.either (.stripeWrite (.either h.stripeWrite h)) (.either h.stripeWrite h))) (.either
    (.stripeWrite (.either h.stripeWrite h)) (.either h.stripeWrite h)))

theorem Keeps.putJournal (h : Keeps s₀ s) {fuel us} : KeepsSomeFst s₀ (s.putJournal fuel us) := by
  induction fuel generalizing s us with
  | zero =>
    unfold State.putJournal
    exact .either (.some (.mk h)) .none
  | succ n ih =>
    unfold State.putJournal
    refine .either (.some (.mk h)) ?_
    extract_lets fence
    clear_value fence
    split
    · exact .none
    · extract_lets room
      split
      · exact .none
      · next heq => exact .map (ih (h.putStripe.of_eq heq)) fun _ h => h

theorem Keeps.snapshotRecorded (h : Keeps s₀ s) : Keeps s₀ s.snapshotRecorded :=
  h.withFw

theorem Keeps.releaseUnused (h : Keeps s₀ s) {use p} : Keeps s₀ (s.releaseUnused use p) :=
  h.foldl fun _ _ h => h.releaseBand

theorem Keeps.snapshotDurable (h : Keeps s₀ s) {seq} : Keeps s₀ (s.snapshotDurable seq) := by
  unfold State.snapshotDurable
  split
  · exact .releaseUnused (.releaseUnused (h.withFw.foldl fun _ _ h => h.closeBand))
  · exact h

theorem Keeps.rangeCommits (h : Keeps s₀ s) {r} : Keeps s₀ (s.rangeCommits r) :=
  .withFw (h.applyRange.foldl fun _ _ h => h.newEntry.releaseBead)

theorem Keeps.flushDurable (h : Keeps s₀ s) : Keeps s₀ s.flushDurable := by
  unfold State.flushDurable
  split
  · exact h
  · extract_lets us₁
    split
    · exact h
    · next heq => exact .foldl (.withFw (.foldl (.foldl (.snapshotRecorded (.withFw
        (h.putJournal.of_eq heq))) fun _ _ h => h.snapshotDurable) fun _ _ h => h.rangeCommits)) fun _ _ h => h.slotDone

theorem Keeps.flushNow (h : Keeps s₀ s) {clean} : Keeps s₀ (s.flushNow clean) :=
  h.flushDurable.flushStart.flushDurable

theorem Keeps.flushAll (h : Keeps s₀ s) {clean} : KeepsSome s₀ (s.flushAll clean) :=
  .either .none (.some (.flushDurable (.either h.flushDurable h.flushDurable.flushStart)))

theorem Keeps.durably (h : Keeps s₀ s) {f wait} (hf : ∀ t, Keeps s₀ t → Keeps s₀ (f t)) (hwait : Keeps s₀ wait) :
    Keeps s₀ (s.durably f wait) := by
  unfold State.durably
  exact KeepsSome.getD (.flushAll (hf _ h)) hwait

/-! ### The functions of Machine/HqeData.lean -/

theorem Keeps.handled (h : Keeps s₀ s) {ep src sub} : Keeps s₀ (s.handled ep src sub) := by
  unfold State.handled
  split
  · exact h.setBox
  · exact h

theorem Keeps.saveStamp (h : Keeps s₀ s) : Keeps s₀ s.saveStamp :=
  .either h.update h

theorem Keeps.saveLife (h : Keeps s₀ s) : Keeps s₀ s.saveLife :=
  h.update

theorem Keeps.shutdownStep (h : Keeps s₀ s) : Keeps s₀ s.shutdownStep :=
  .either (.either (.either h h.flushStart) (.setFld (.saveLife (.counterWord (.saveStamp (.either h.saveAssay h)))))) h

theorem Keeps.execWriteDataGrant (h : Keeps s₀ s) {slot} : KeepsOut s₀ (Machine.execWriteDataGrant slot s) := by
  unfold Machine.execWriteDataGrant
  refine .next ?_
  split
  · exact .either h.requestGroups.decideWaiting h
  · exact h

theorem Keeps.fillBead (h : Keeps s₀ s) {e i b u} : KeepsFst s₀ (s.fillBead e i b u) := by
  unfold State.fillBead
  refine .either (.mk (h.withMem (Mem.wf_writeDoubles _ _))) ?_
  extract_lets +onlyGivenNames n₁ fmt₁ pi₁ first₁ lba₁ own₁ hmeta₁ bad₁
  clear_value bad₁
  split
  · exact .mk h
  · extract_lets mask₁
    split
    · exact .mk h
    · exact .mk (h.withMem fun k => Mem.wf_writeDoubles _ _ (Mem.wf_writeDoubles _ _ k))

theorem Keeps.writeReady (h : Keeps s₀ s) {k e first beads flags status} : Keeps s₀ (s.writeReady k e first beads flags status) :=
  .hwSend (h.foldl fun _ _ h => h.giveBead)

theorem Keeps.writeReadyAll (h : Keeps s₀ s) {k e first beads fuel} : Keeps s₀ (s.writeReadyAll k e first beads fuel) := by
  induction fuel generalizing s first beads with
  | zero => exact h
  | succ n ih =>
    unfold State.writeReadyAll
    exact .either h (ih h.writeReady)

theorem Keeps.fillGroup (h : Keeps s₀ s) {e i beads us} : KeepsFst s₀ (s.fillGroup e i beads us) := by
  induction beads generalizing s i us with
  | nil => exact .mk h
  | cons b beads ih =>
    cases us with
    | nil => exact .mk h
    | cons u us =>
      unfold State.fillGroup
      split
      · next heq => exact .mk (h.fillBead.of_eq heq)
      · next heq => exact .mk (ih (h.fillBead.of_eq heq)).fst

theorem Keeps.groupEnds (h : Keeps s₀ s) {k e g filled fail} : Keeps s₀ (s.groupEnds k e g filled fail) := by
  unfold State.groupEnds
  extract_lets others₁ e₁ s₁ _ s₂ s₃
  have h₁ : Keeps s₀ s₁ := h.setSlot
  have h₂ : Keeps s₀ s₂ := .either h₁.update h₁
  have h₃ : Keeps s₀ s₃ := .either (.either h₂ h₂.writeReady) h₂.writeReadyAll
  split
  · exact h₃
  · exact h₃.writeReady.foldl fun _ _ h => .either h.releaseBead h

theorem Keeps.execWriteDataPullDone (h : Keeps s₀ s) {slot units} : KeepsOut s₀ (Machine.execWriteDataPullDone slot units s) := by
  unfold Machine.execWriteDataPullDone
  refine .next ?_
  split
  · exact h
  · split
    · exact h
    · exact .either h (.either h.update h.fillGroup.fst.groupEnds)

theorem Keeps.execRepull (h : Keeps s₀ s) {src slot unit bead} : KeepsOut s₀ (Machine.execRepull src slot unit bead s) := by
  unfold Machine.execRepull
  refine .next ?_
  extract_lets s₁ k₁ b₁ ok₁
  have h₁ : Keeps s₀ s₁ := h.handled
  split
  · exact .either h₁.setSlot.update (.stray (.either h₁.releaseBead h₁))
  · exact .stray (.either h₁.releaseBead h₁)

theorem Keeps.execReadData (h : Keeps s₀ s) {src slot count entries} :
    KeepsOut s₀ (Machine.execReadData src slot count entries s) := by
  unfold Machine.execReadData
  refine .next ?_
  extract_lets s₁ k₁ l₁ good₁ ok₁
  have h₁ : Keeps s₀ s₁ := h.handled
  split
  · exact .either (.setSlot (.either h₁.update h₁)) (.stray (h₁.foldl fun _ _ h => .either h.releaseBead h))
  · exact .stray (h₁.foldl fun _ _ h => .either h.releaseBead h)

theorem Keeps.beadErrorAt (h : Keeps s₀ s) {k e t d} : Keeps s₀ (s.beadErrorAt k e t d) :=
  h.giveBead.setSlot.hwSend

theorem Keeps.transferEnds (h : Keeps s₀ s) {k e t} : Keeps s₀ (s.transferEnds k e t) := by
  unfold State.transferEnds
  extract_lets +onlyGivenNames n₁ fmt₁ pi₁ first₁ lba₁ raw₁ mask₁ plain₁ opened₁ rest₁
  clear_value opened₁
  split
  · exact h.setSlot.releaseBead
  · extract_lets hmeta₁ bad₁ data₁ out₁ _ s₁
    have h₁ : Keeps s₀ s₁ := h.update
    clear_value bad₁
    split
    · exact h₁.setSlot.releaseBead
    · exact h₁.setSlot.releaseBead.tell

theorem Keeps.execReadTransferDone (h : Keeps s₀ s) {slot bead errors} :
    KeepsOut s₀ (Machine.execReadTransferDone slot bead errors s) := by
  unfold Machine.execReadTransferDone
  refine .next ?_
  extract_lets +onlyGivenNames k₁
  split
  · exact h
  · split
    · exact h
    · extract_lets l₁ ds₁ bad₁ read₁ s₁
      have h₁ : Keeps s₀ s₁ := h.meetErrors
      clear_value bad₁
      split
      · exact h₁.beadErrorAt
      · exact h₁.transferEnds.post.shutdownStep

theorem Keeps.execCompletion (h : Keeps s₀ s) {src slot status flags dw0 dw1} :
    KeepsOut s₀ (Machine.execCompletion src slot status flags dw0 dw1 s) := by
  unfold Machine.execCompletion
  refine .next ?_
  extract_lets s₁ k₁
  have h₁ : Keeps s₀ s₁ := h.handled
  split
  · exact h₁.stray
  · exact .either h₁ (.either h₁.stray (.either h₁.endSlot.shutdownStep h₁.setSlot.post.shutdownStep))

theorem Keeps.execEncryptRequest (h : Keeps s₀ s) {src req errors} :
    KeepsOut s₀ (Machine.execEncryptRequest src req errors s) := by
  unfold Machine.execEncryptRequest
  refine .next ?_
  extract_lets +onlyGivenNames s₁ b ns fmt valid raw _ r
  have h₁ : Keeps s₀ s₁ := h.handled
  have hr : KeepsFst s₀ r := by
    unfold r
    refine .either ?_ (.mk h₁)
    split
    · exact .mk (.withMem h₁.meetErrors fun k => Mem.wf_sAdds _ _ (Mem.wf_rewriteDoubles _ _ k))
    · exact .mk h₁
  exact .hwSend (.either hr.fst.giveBead hr.fst)

/-! ### The functions of Machine/FwMoves.lean -/

theorem Keeps.postAll (h : Keeps s₀ s) : Keeps s₀ s.postAll :=
  .shutdownStep (h.foldl fun _ _ h => h.post)

theorem Keeps.putUnits (h : Keeps s₀ s) {use ws us} : KeepsFst s₀ (s.putUnits use ws us) := by
  induction ws generalizing s us with
  | nil => exact .mk h
  | cons w ws ih =>
    unfold State.putUnits
    refine .either (.mk h) ?_
    extract_lets s₁ n
    have h₁ : Keeps s₀ s₁ := h.readyBand
    split
    · exact .mk h₁
    · next heq => exact .mk (ih (h₁.putAt.of_eq heq)).fst

theorem Keeps.inBeads (h : Keeps s₀ s) {cls n ep f} (hf : ∀ t, Keeps s₀ t → Keeps s₀ (f t)) : Keeps s₀ (s.inBeads cls n ep f) :=
  .either h (.foldl (hf _ h.takeBeads.fst.poolRefresh) fun _ _ h => h.releaseBead)

theorem Keeps.countRead (h : Keeps s₀ s) {ppa} : Keeps s₀ (s.countRead ppa) :=
  h.setBlk.withFw

theorem Keeps.earlyWarning (h : Keeps s₀ s) {ppa} : Keeps s₀ (s.earlyWarning ppa) :=
  h.setBlk.withFw

theorem Keeps.moveAll (h : Keeps s₀ s) {l ps} : Keeps s₀ (s.moveAll l ps) := by
  induction l generalizing s ps with
  | nil => exact h
  | cons x l ih =>
    cases ps with
    | nil => exact h
    | cons p ps => exact ih h.moveUnit

theorem Keeps.readFor (h : Keeps s₀ s) {l warned} : Keeps s₀ (s.readFor l warned) :=
  h.foldl fun _ _ h => .either h.countRead.earlyWarning h.countRead

theorem Keeps.relocate (h : Keeps s₀ s) {use kind cls ws warned ps} : Keeps s₀ (s.relocate use kind cls ws warned ps) := by
  unfold State.relocate
  exact h.inBeads (fun _ ht => .moveAll (KeepsFst.fst (.putUnits (ht.readFor.foldl fun _ _ h => h.loseUnit))))

theorem Keeps.releaseIfEmpty (h : Keeps s₀ s) {n} : Keeps s₀ (s.releaseIfEmpty n) := by
  unfold State.releaseIfEmpty
  split
  · exact .either h.releaseBand h
  · exact h

theorem Keeps.foldInto (h : Keeps s₀ s) {w warned} : Keeps s₀ (s.foldInto w warned) := by
  unfold State.foldInto
  extract_lets s₁
  have h₁ : Keeps s₀ s₁ := h.readyBand
  split
  · exact h₁
  · exact h₁.relocate.withFw.releaseIfEmpty

theorem Keeps.mergeBatch (h : Keeps s₀ s) {before l} : Keeps s₀ (s.mergeBatch before l) := by
  induction l generalizing s before with
  | nil => exact h
  | cons w l ih =>
    unfold State.mergeBatch
    refine .either (ih h) ?_
    extract_lets old new m
    refine ih (h.rewrite fun k => ?_)
    unfold m
    clear_value old
    split
    · exact Mem.wf_writeDoubles _ _ k
    · exact k

theorem Keeps.dropPortion (h : Keeps s₀ s) {w} : Keeps s₀ (s.dropPortion w) :=
  .slotDone (.orderFails (.withFw (h.foldl fun _ _ h => h.releaseBead)))

theorem Keeps.dropUnmergeable (h : Keeps s₀ s) {l} : Keeps s₀ (s.dropUnmergeable l) :=
  h.foldl fun _ _ h => .either h.dropPortion h

theorem Keeps.numberPortion (h : Keeps s₀ s) {w} : Keeps s₀ (s.numberPortion w) :=
  h.takeSeqs.fst.withFw

theorem Keeps.numberBatch (h : Keeps s₀ s) {l} : Keeps s₀ (s.numberBatch l) :=
  h.foldl fun _ _ h => .either h.numberPortion h

theorem Keeps.commitAll (h : Keeps s₀ s) {use l} : Keeps s₀ (s.commitAll use l) :=
  .foldl (.foldl (h.foldl fun _ _ h => h.updateUnit) fun _ _ h => h.releaseBead) fun _ _ h => h.slotDone

theorem Keeps.commitReady (h : Keeps s₀ s) : Keeps s₀ s.commitReady :=
  .either h.withFw.commitAll.flushStart h.withFw.commitAll

theorem Keeps.issueStaging (h : Keeps s₀ s) {w} : Keeps s₀ (s.issueStaging w) := by
  unfold State.issueStaging
  refine .either h.readyBand ?_
  extract_lets +onlyGivenNames s₁ s₂
  have h₁ : Keeps s₀ s₁ := h.readyBand.dropUnmergeable
  have h₂ : Keeps s₀ s₂ := h₁.numberBatch
  refine .either h₂ ?_
  extract_lets s₃
  have h₃ : Keeps s₀ s₃ := h₂.mergeBatch
  split
  · exact h₃
  · next heq => exact .commitReady (.withFw (h₃.putAt.of_eq heq))

theorem Keeps.putGroup (h : Keeps s₀ s) {ps fill first i ws} : KeepsSomeFst s₀ (s.putGroup ps fill first i ws) := by
  induction ws generalizing s i with
  | nil => exact .some (.mk h)
  | cons w ws ih =>
    unfold State.putGroup
    extract_lets k rows
    refine .either .none ?_
    split
    · exact .none
    · next heq => exact .map (ih (h.putRows.of_eq heq)) fun _ h => h

theorem Keeps.issueDirect (h : Keeps s₀ s) {ws} : Keeps s₀ (s.issueDirect ws) := by
  unfold State.issueDirect
  split
  · exact h
  · extract_lets +onlyGivenNames s₁ group₁ k₁ room₁ source₁
    have h₁ : Keeps s₀ s₁ := h.readyBand
    refine .either h₁ ?_
    extract_lets +onlyGivenNames _ t₁ q₁
    have h₂ : Keeps s₀ t₁ := h₁.withFw
    have h₃ : KeepsFst s₀ q₁ := .foldl (.mk h₂) fun _ _ h => .mk h.fst.takeSeqs.fst
    split
    · exact h₁
    · next heq =>
        split
        · exact .memberFailed (.withFw (h₃.fst.putGroup.of_eq heq))
        · extract_lets hosts₁ moved₁ t₂
          have h₄ : Keeps s₀ t₂ := .moveAll (.commitAll (h₃.fst.putGroup.of_eq heq))
          clear_value source₁
          split
          · exact .either h₄ h₄.releaseIfEmpty
          · exact h₄

theorem Keeps.issueGroups (h : Keeps s₀ s) {fuel ws} : Keeps s₀ (s.issueGroups fuel ws) := by
  induction fuel generalizing s ws with
  | zero => exact h
  | succ n ih =>
    unfold State.issueGroups
    exact .either h (ih h.issueDirect)

theorem Keeps.fillFrame (h : Keeps s₀ s) {mpn} : Keeps s₀ (s.fillFrame mpn) := by
  unfold State.fillFrame
  split
  · exact h
  · exact .either h h.putFrame

theorem Keeps.writePage (h : Keeps s₀ s) {mpn w} : KeepsSomeFst s₀ (s.writePage mpn w) := by
  unfold State.writePage
  refine .either .none ?_
  extract_lets +onlyGivenNames b₁ img₁ r₁ seq₁ u₁
  have h₁ : KeepsFst s₀ b₁ := h.readyBand.takeBeads
  have h₂ : KeepsFst s₀ r₁ := h₁.fst.poolRefresh.takeSeqs
  split
  · exact .none
  · next heq => exact .some (.mk (.foldl (h₂.fst.putAt.of_eq heq) fun _ _ h => h.releaseBead))
  · next heq =>
      extract_lets +onlyGivenNames e₁ old₁ t₁ t₂ t₃ _ t₄
      have h₃ : Keeps s₀ t₁ := .foldl (h₂.fst.putAt.of_eq heq) fun _ _ h => h.releaseBead
      have h₄ : Keeps s₀ t₂ := h₃.journal
      have h₅ : Keeps s₀ t₃ := by
        unfold t₃
        refine .fresh ?_
        refine .fresh ?_
        clear_value old₁
        split
        · exact h₄.stale.stale
        · exact h₄
      have h₆ : Keeps s₀ t₄ := h₅.withFw
      refine .some ?_
      refine .mk ?_
      clear_value old₁
      split
      · split
        · exact h₆.releaseIfEmpty
        · exact h₆
      · exact h₆

theorem Keeps.writeBack (h : Keeps s₀ s) {mpn w} : Keeps s₀ (s.writeBack mpn w) := by
  unfold State.writeBack
  split
  · exact h.writePage.fst.getD h
  · extract_lets +onlyGivenNames s₁ t₁
    have h₁ : Keeps s₀ s₁ := .either h.fillFrame h
    have h₂ : Keeps s₀ t₁ := h₁.mapSnap
    refine .either h₂ ?_
    split
    · next heq => exact .mapWritten (h₂.mapCopied.writePage.of_eq heq)
    · next heq => exact .mapWritten (.putFrame (h₂.mapCopied.writePage.of_eq heq))
    · exact h₁

theorem Keeps.movePages (h : Keeps s₀ s) {ws ps} : Keeps s₀ (s.movePages ws ps) := by
  induction ws generalizing s ps with
  | nil => exact h
  | cons w ws ih =>
    cases ps with
    | nil => exact h
    | cons p ps =>
      unfold State.movePages
      exact ih (.either h.writeBack (h.writePage.fst.getD h))

theorem Keeps.rebuildPage (h : Keeps s₀ s) {mpn} : Keeps s₀ (s.rebuildPage mpn) := by
  unfold State.rebuildPage
  extract_lets +onlyGivenNames good₁ recs₁ base₁ reach₁ t₁ _ s₁
  have h₁ : Keeps s₀ s₁ := h.withFw
  refine .fillFrame ?_
  refine .either h₁ ?_
  split
  · exact h₁
  · exact .tell (h₁.foldl fun _ _ h => h.loseUnit)

theorem Keeps.wearSummary (h : Keeps s₀ s) : Keeps s₀ s.wearSummary :=
  h.logFw

/-! ### The functions of Machine/SvcOps.lean -/

theorem Keeps.withSig (h : Keeps s₀ s) {g} : Keeps s₀ (s.withSig g) :=
  h.update

theorem Keeps.svcReply (h : Keeps s₀ s) {dst service status tag rest} : Keeps s₀ (s.svcReply dst service status tag rest) :=
  .hwSend (.either h.incSat h)

theorem Keeps.svcTake (h : Keeps s₀ s) {src service} : KeepsSomeFst s₀ (s.svcTake src service) := by
  unfold State.svcTake
  split
  · exact .either (.some (.mk h.setBox.incWrap)) .none
  · exact .none

theorem Keeps.serve (h : Keeps s₀ s) {src service f} (hf : ∀ t a, Keeps s₀ t → KeepsFst s₀ (f t a)) :
    Keeps s₀ (s.serve src service f) := by
  unfold State.serve
  split
  · exact h
  · next heq => exact .either (.svcReply (h.svcTake.of_eq heq)) (.svcReply (KeepsFst.fst (hf _ _ (h.svcTake.of_eq heq))))

theorem Keeps.sigTurnAway (h : Keeps s₀ s) : Keeps s₀ s.sigTurnAway := by
  unfold State.sigTurnAway
  extract_lets l₁
  split
  · exact h
  · exact .either h (.either h.setBox.incWrap.svcReply (.either h.setBox.incWrap.svcReply h))

theorem Keeps.setLock (h : Keeps s₀ s) {r rl wl} : Keeps s₀ (s.setLock r rl wl) :=
  .either h (.either h.setReg.setReg.incWrap.hwSend h.setReg.setReg.incWrap)

theorem Keeps.setLocks (h : Keeps s₀ s) {rl wl} : Keeps s₀ (s.setLocks rl wl) :=
  h.foldl fun _ _ h => h.setLock

theorem Keeps.opalDiscard (h : Keeps s₀ s) : Keeps s₀ s.opalDiscard := by
  unfold State.opalDiscard
  split
  · exact h
  · exact .either h h.withSig.setLocks

theorem Keeps.opalClose (h : Keeps s₀ s) : Keeps s₀ s.opalClose :=
  h.opalDiscard.withSig.setFld

theorem Keeps.hostGone (h : Keeps s₀ s) : Keeps s₀ s.hostGone :=
  h.opalClose.update

/-! ### The functions of Machine/Control.lean -/

theorem Keeps.writeBy (h : Keeps s₀ s) {who off v} : Keeps s₀ (s.writeBy who off v) :=
  h.ctlStore.settle

theorem Keeps.turnAway (h : Keeps s₀ s) {dst} : Keeps s₀ (s.turnAway dst) :=
  .either h.psqTurnAway (.either h.parTurnAway (.either h.sigTurnAway h))

theorem Keeps.mapWrite (h : Keeps s₀ s) {who op mpn} : Keeps s₀ (s.mapWrite who op mpn) :=
  h.writeBy

/-! ### The functions of Machine/Monitors.lean -/

theorem Keeps.copyDouble (h : Keeps s₀ s) {a b d} : Keeps s₀ (s.copyDouble a b d) :=
  h.withMem (Mem.wf_writeDouble _ _ _)

theorem Keeps.execBeadCopy (h : Keeps s₀ s) {src fromBead toBead mbx errors} :
    KeepsOut s₀ (Machine.execBeadCopy src fromBead toBead mbx errors s) := by
  unfold Machine.execBeadCopy
  exact .next (.hwSend (KeepsFst.fst (.either
    (.mk (.withMem (h.handled.meetErrors.foldl fun _ _ h => h.copyDouble) (Mem.wf_sAdds _ _))) (.mk h.handled))))

theorem Keeps.scrubPin (h : Keeps s₀ s) {p} : Keeps s₀ (s.scrubPin p) := by
  unfold State.scrubPin
  extract_lets w₁
  split
  · exact .either (h.withMem (Mem.wf_sAdd · _)) h.poisonBlock
  · exact .either h (h.withMem (Mem.wf_sAdd · _))

theorem Keeps.scrubNext (h : Keeps s₀ s) {p} : Keeps s₀ (s.scrubNext p) := by
  unfold State.scrubNext
  extract_lets ms₁
  split
  · exact .either h.setFld.update h.update
  · exact .update (.either h.setFld.update h)

theorem Keeps.execScrubAccess (h : Keeps s₀ s) {place ecc} : KeepsOut s₀ (Machine.execScrubAccess place ecc s) := by
  unfold Machine.execScrubAccess
  refine .next ?_
  refine .either h ?_
  extract_lets w₁ r₁
  have h₁ : KeepsFst s₀ r₁ := by
    unfold r₁
    split
    · exact .either (.mk h.countHidden) h.readOutcome
    · exact h.readOutcome
  exact .scrubNext (.either h₁.fst.scrubPin h₁.fst)

theorem Keeps.execStallReport (h : Keeps s₀ s) {place} : KeepsOut s₀ (Machine.execStallReport place s) := by
  unfold Machine.execStallReport
  refine .next ?_
  split
  · exact .either (.settle (h.blaming (fun _ h => h.coreFail))) h
  · split
    · exact h.claspBreak.claspBreak.seqFail
    · exact h
  · exact h.claspBreak.claspBreak
  · exact .either h h.update.faultNow
  · exact h.claspBreak.claspBreak.tick.fatalFault
  · exact h.fatalFault

theorem Keeps.recordMessage (h : Keeps s₀ s) {src mbx sub p} : Keeps s₀ (s.recordMessage src mbx sub p) := by
  unfold State.recordMessage
  extract_lets d₁ held₁ _ s₁ bad₁ pair₁ s₂
  have h₁ : Keeps s₀ s₁ := h.update
  have h₂ : Keeps s₀ s₂ := .either h₁.dropped h₁
  clear_value held₁
  clear_value pair₁
  split
  · exact h₂.logAll
  · exact .either h₂.dropped (.either h₂.update h₂.logAll)

theorem Keeps.execEvrLogMessage (h : Keeps s₀ s) {src mbx sub payload} :
    KeepsOut s₀ (Machine.execEvrLogMessage src mbx sub payload s) := by
  unfold Machine.execEvrLogMessage
  refine .next ?_
  refine .recordMessage ?_
  split
  · exact h.setBox
  · exact h

/-! ### The functions of Machine/Firmware.lean -/

theorem Keeps.snapshotStart (h : Keeps s₀ s) : Keeps s₀ s.snapshotStart := by
  unfold State.snapshotStart
  split
  · exact h.openBand
  · split
    · exact h
    · exact h.takeSeqs.fst.journal.withFw.asyCopies

theorem Keeps.snapshotPast (h : Keeps s₀ s) {n rows} : Keeps s₀ (s.snapshotPast n rows) := by
  unfold State.snapshotPast
  split
  · exact h
  · exact .either h.withFw.closeBand h.withFw

theorem Keeps.snapshotEnd (h : Keeps s₀ s) : Keeps s₀ s.snapshotEnd := by
  unfold State.snapshotEnd
  split
  · exact h
  · refine .either h ?_
    extract_lets row₁ rows₁ rest₁
    split
    · next heq => exact .either (.journal (.withFw (.snapshotPast (h.putStripe.of_eq heq)))) h.withFw
    · exact h.withFw

theorem Keeps.snapshotStep (h : Keeps s₀ s) : Keeps s₀ s.snapshotStep :=
  .either h.snapshotEnd h.snapshotStart

theorem Keeps.freshSnapshot (h : Keeps s₀ s) : Keeps s₀ s.freshSnapshot := by
  unfold State.freshSnapshot
  exact h.withFw.andThen fun h => .either (.either (.either h h.snapshotStep.stripeSync.flushNow) (.flushNow (.stripeSync
    (.snapshotStep (.either h h.snapshotStep.stripeSync.flushNow))))) (.flushNow (.stripeSync (.snapshotStep (.either
    (.either h h.snapshotStep.stripeSync.flushNow) (.flushNow (.stripeSync (.snapshotStep
    (.either h h.snapshotStep.stripeSync.flushNow))))))))

theorem Keeps.startBands (h : Keeps s₀ s) {uses} : Keeps s₀ (s.startBands uses) := by
  unfold State.startBands
  exact .flushNow (.stripeSync (h.openBand.stripeSync.flushNow.foldl fun _ _ h => h.openBand))

theorem Keeps.moveOut (h : Keeps s₀ s) {use cls ws warned ps} : Keeps s₀ (s.moveOut use cls ws warned ps) := by
  unfold State.moveOut
  exact .either h.relocate (.either h.movePages (.either h.snapshotStep h.relocate))

theorem Keeps.execReclamation (h : Keeps s₀ s) {place warned} : KeepsOut s₀ (Machine.execReclamation place warned s) := by
  unfold Machine.execReclamation
  refine .next ?_
  refine .either h ?_
  extract_lets any₁ map₁
  split
  · exact h
  · exact h.moveOut.releaseIfEmpty

theorem Keeps.execBandRefreshDue (h : Keeps s₀ s) {band} : KeepsOut s₀ (Machine.execBandRefreshDue band s) := by
  unfold Machine.execBandRefreshDue
  refine .next ?_
  split
  · exact h
  · exact .either h.setBand h

theorem Keeps.evictHot (h : Keeps s₀ s) {h'} : Keeps s₀ (s.evictHot h') :=
  h.releaseBead.withFw

theorem Keeps.execHotCacheEvict (h : Keeps s₀ s) {ns unit} : KeepsOut s₀ (Machine.execHotCacheEvict ns unit s) := by
  unfold Machine.execHotCacheEvict
  refine .next ?_
  split
  · exact .either h.evictHot h
  · exact h

theorem Keeps.replayRec (h : Keeps s₀ s) {r} : Keeps s₀ (s.replayRec r) := by
  unfold State.replayRec
  split
  · split
    · exact .either h h.buildPage.noteDirty.withFw
    · exact h
  · exact h.applyRange
  · exact .either h.withFw h
  · exact h

theorem Keeps.loadPages (h : Keeps s₀ s) : Keeps s₀ s.loadPages :=
  h.foldl fun _ _ h => h.withFw

theorem Keeps.applyUnit (h : Keeps s₀ s) {x} : Keeps s₀ (s.applyUnit x) :=
  h.replayRec.journal

theorem Keeps.scanAll (h : Keeps s₀ s) {recs} : Keeps s₀ (s.scanAll recs) := by
  unfold State.scanAll
  refine .tell ?_
  refine .foldl (.foldl (.loadPages (h.foldl fun _ _ h => .either h.withFw.journal h)) fun _ _ h => h.replayRec) fun _ _ h => ?_
  refine .either ?_ h
  split
  · exact .either h.applyUnit h
  · exact h

theorem Keeps.countValid (h : Keeps s₀ s) : Keeps s₀ s.countValid :=
  h.withFw

theorem Keeps.settleBand (h : Keeps s₀ s) {n} : Keeps s₀ (s.settleBand n) := by
  unfold State.settleBand
  split
  · exact h
  · exact .either (.either h.setBand h) (.either h.setBand.stripeJournal (.either h.closeBand h))

theorem Keeps.eraseOn (h : Keeps s₀ s) {failed d n} : Keeps s₀ (s.eraseOn failed d n) := by
  induction n generalizing s with
  | zero => exact h
  | succ n ih =>
    unfold State.eraseOn
    split
    · exact h
    · exact ih (.either h.eraseBegins.retire h.eraseBegins.blockErased)

theorem Keeps.putNext (h : Keeps s₀ s) {use fuel us} : KeepsFst s₀ (s.putNext use fuel us) := by
  induction fuel generalizing s us with
  | zero => exact .mk h
  | succ n ih =>
    unfold State.putNext
    refine .either (.mk h) ?_
    split
    · exact .mk h
    · extract_lets w
      split
      · exact .mk h
      · next heq => exact .mk (ih (h.putAt.of_eq heq)).fst

theorem Keeps.reconcile (h : Keeps s₀ s) {ns} : KeepsFst s₀ (s.reconcile ns) := by
  unfold State.reconcile
  extract_lets +onlyGivenNames l₁ r₁ put₁ _ s₁
  have h₁ : KeepsFst s₀ r₁ := h.putNext
  have h₂ : Keeps s₀ s₁ := h₁.fst.withFw
  refine .either (.mk h₂) ?_
  refine .mk ?_
  refine h₂.foldl fun _ _ h => ?_
  split
  · exact h.setBand.stripeJournal
  · exact h

theorem Keeps.rebuildMap (h : Keeps s₀ s) {f p} : KeepsFst s₀ (s.rebuildMap f p) :=
  .mk (.withFw (.foldl (.foldl
    (.either h.withFw.withFw.scanAll (h.withFw.withFw.loadPages.foldl fun _ _ h => h.replayRec))
    fun _ _ ht => ht.foldl fun _ _ h => h.applyUnit) fun _ _ h => h.rebuildPage))

theorem Keeps.recover (h : Keeps s₀ s) {bad warned failed rebuilt again} :
    Keeps s₀ (s.recover bad warned failed rebuilt again) := by
  unfold State.recover
  exact .andThen (.flushNow (.stripeSync (KeepsFst.fst (.reconcile (.startBands (.foldl (.countValid (.foldl (.withFw (.foldl
    (.foldl (KeepsFst.fst (.rebuildMap (.withFw (h.asyPrepare.foldl fun _ _ h => h.markDevice))))
      fun _ _ h => h.setBlk) fun _ _ h => h.eraseIndet)) fun _ _ h => h.settleBand)) fun _ _ h => h.eraseOn))))))
    fun h => .either h.logFw h.logFw.addLife

theorem Keeps.execMapPageReplay (h : Keeps s₀ s) {mpn} : KeepsOut s₀ (Machine.execMapPageReplay mpn s) := by
  unfold Machine.execMapPageReplay
  refine .next ?_
  split
  · exact h
  · exact h.withFw.fillFrame

/-! ### The functions of Machine/Redundancy.lean -/

theorem Keeps.moveStripe (h : Keeps s₀ s) {n ws warned} : Keeps s₀ (s.moveStripe n ws warned) :=
  h.moveOut.releaseIfEmpty

theorem Keeps.execStripeRepair (h : Keeps s₀ s) {places warned} : KeepsOut s₀ (Machine.execStripeRepair places warned s) := by
  unfold Machine.execStripeRepair
  refine .next ?_
  split
  · exact h
  · exact .either h (.either h.moveStripe.withFw h.moveStripe)

theorem Keeps.execRebuild (h : Keeps s₀ s) {places warned} : KeepsOut s₀ (Machine.execRebuild places warned s) := by
  unfold Machine.execRebuild
  refine .next ?_
  refine .either h ?_
  split
  · exact h
  · exact h.moveStripe.andThen fun ht => .either ht (Keeps.andThen (.either ht.withFw.stripeJournal ht.withFw) fun h => .checkHealth
      (.either h.withFw.stripeJournal h))

theorem Keeps.reshapeRecord (h : Keeps s₀ s) : Keeps s₀ s.reshapeRecord :=
  h.stripeJournal

theorem Keeps.reshapeStep (h : Keeps s₀ s) : Keeps s₀ s.reshapeStep :=
  Keeps.andThen (.either h.withFw.reshapeRecord h) fun h => .either h.withFw.reshapeRecord h

theorem Keeps.reshapePlan (h : Keeps s₀ s) {k} : Keeps s₀ (s.reshapePlan k) :=
  h.withFw.reshapeRecord.withFw.reshapeRecord

theorem Keeps.reshapeMove (h : Keeps s₀ s) {places warned} : Keeps s₀ (s.reshapeMove places warned) := by
  unfold State.reshapeMove
  split
  · exact h.reshapeStep
  · exact h.moveStripe.andThen fun h => .either h (.reshapeStep (.checkHealth (.either h.withFw.reshapeRecord h.withFw)))

theorem Keeps.execReshape (h : Keeps s₀ s) {target places warned} : KeepsOut s₀ (Machine.execReshape target places warned s) :=
  .next (.either (.either h h.withFw.reshapeRecord) (Keeps.andThen (.either h.withFw h) fun h => .either
    (.either h.reshapePlan.reshapeStep.checkHealth h) (.either h.reshapeMove h.reshapeStep.checkHealth)))

theorem Keeps.repairLater (h : Keeps s₀ s) {n} : Keeps s₀ (s.repairLater n) :=
  .either h h.withFw

theorem Keeps.patrolActs (h : Keeps s₀ s) {f} : Keeps s₀ (s.patrolActs f) := by
  unfold State.patrolActs
  extract_lets +onlyGivenNames s₁ s₂
  have h₁ : Keeps s₀ s₁ := by
    unfold s₁
    refine h.foldl fun _ _ h => ?_
    extract_lets _ t₁
    have h₂ : Keeps s₀ t₁ := h.withFw
    split
    · exact h₂.repairLater
    · exact h₂
  have h₃ : Keeps s₀ s₂ := by
    unfold s₂
    refine h₁.foldl fun _ _ h => ?_
    extract_lets _ t₂
    have h₄ : Keeps s₀ t₂ := h.withFw
    split
    · exact h₄.repairLater.tell
    · exact h₄
  exact .foldl (h₃.foldl fun _ _ h => h.repairLater.tell) fun _ _ h => h.earlyWarning

theorem Keeps.patrolRecord (h : Keeps s₀ s) {p} : Keeps s₀ (s.patrolRecord p) :=
  h.logAll

/-! ### The functions of Machine/NvmIo.lean -/

theorem Keeps.finish (h : Keeps s₀ s) {k status dw0} : Keeps s₀ (s.finish k status dw0) :=
  h.complete.post.shutdownStep

theorem Keeps.freeAll (h : Keeps s₀ s) {l ep} : Keeps s₀ (s.freeAll l ep) :=
  h.foldl fun _ _ h => .either h.releaseBead h

theorem Keeps.execNvmFlush (h : Keeps s₀ s) {slot} : KeepsOut s₀ (Machine.execNvmFlush slot s) := by
  unfold Machine.execNvmFlush
  refine .next ?_
  split
  · exact h
  · exact h.finish

theorem Keeps.addPortion (h : Keeps s₀ s) {e l} : Keeps s₀ (s.addPortion e l) :=
  .either h.withFw h.withFw

theorem Keeps.fillStaging (h : Keeps s₀ s) {ws} : Keeps s₀ (s.fillStaging ws) := by
  induction ws generalizing s with
  | nil => exact h
  | cons w ws ih =>
    unfold State.fillStaging
    exact .either h (ih h.issueStaging)

theorem Keeps.pulled (h : Keeps s₀ s) {k e bs f} (hf : ∀ t, Keeps s₀ t → Keeps s₀ (f t)) : Keeps s₀ (s.pulled k e bs f) := by
  unfold State.pulled
  split
  · exact h.freeAll.finish
  · exact .either h (hf _ h)

theorem Keeps.execNvmWrite (h : Keeps s₀ s) {slot beads directAt stagingAt} :
    KeepsOut s₀ (Machine.execNvmWrite slot beads directAt stagingAt s) := by
  unfold Machine.execNvmWrite
  refine .next ?_
  extract_lets +onlyGivenNames k₁
  split
  · exact h
  · extract_lets bs₁
    split
    · exact h.freeAll.finish
    · exact h.pulled (fun _ ht => .either ht (.postAll (.fillStaging (.issueGroups (ht.foldl fun _ _ h => h.addPortion)))))

theorem Keeps.slotFailed (h : Keeps s₀ s) {p} : Keeps s₀ (s.slotFailed p) :=
  h.withFw.tick

theorem Keeps.readFailed (h : Keeps s₀ s) {p rebuilt} : Keeps s₀ (s.readFailed p rebuilt) := by
  unfold State.readFailed
  extract_lets +onlyGivenNames stripe₁
  refine .either ?_ ?_
  · clear_value stripe₁
    split
    · exact .either h h.withFw
    · exact h
  · extract_lets s₁ r₁ s₂
    have h₁ : Keeps s₀ s₁ := h.slotFailed
    have h₂ : Keeps s₀ s₂ := .either h₁.setBlk h₁
    clear_value stripe₁
    split
    · exact h₂.repairLater
    · exact h₂

theorem Keeps.mirrorTurn (h : Keeps s₀ s) {k u} : KeepsFst s₀ (s.mirrorTurn k u) := by
  unfold State.mirrorTurn
  split
  · exact .mk h
  · exact .mk h.withFw

theorem Keeps.gotStored (h : Keeps s₀ s) {k u e r} : KeepsFst s₀ (s.gotStored k u e r) := by
  unfold State.gotStored
  extract_lets +onlyGivenNames m₁ copy₁
  have h₁ : KeepsFst s₀ m₁ := h.mirrorTurn
  clear_value copy₁
  split
  · exact .mk h₁.fst.countRead
  · extract_lets _ s₁ p₁ s₂ _ s₃ s₄
    have h₂ : Keeps s₀ s₁ := .either h₁.fst.withFw h₁.fst
    have h₃ : Keeps s₀ s₂ := h₂.countRead
    have h₄ : Keeps s₀ s₃ := .either h₃.withFw h₃
    have h₅ : Keeps s₀ s₄ := .either h₄.earlyWarning h₄
    split
    · exact .mk (.either h₅.readFailed h₅)
    · exact .mk h₅.readFailed.loseUnit

theorem Keeps.gotUnit (h : Keeps s₀ s) {k u r} : KeepsFst s₀ (s.gotUnit k u r) := by
  unfold State.gotUnit
  split
  · exact .mk h
  · extract_lets +onlyGivenNames s₁ s₂
    have h₁ : Keeps s₀ s₁ := h.buildPage
    have h₂ : Keeps s₀ s₂ := .either h₁ h₁.rebuildPage
    refine .either (.mk h₂) ?_
    refine .either (.mk h₂) ?_
    split
    · exact .mk h₂
    · exact h₂.gotStored

theorem Keeps.gotAll (h : Keeps s₀ s) {k us rs} : KeepsFst s₀ (s.gotAll k us rs) := by
  induction us generalizing s rs with
  | nil => exact .mk h
  | cons u us ih => exact .mk (ih h.gotUnit.fst).fst

theorem Keeps.loadBead (h : Keeps s₀ s) {b data hmeta tag plain} : Keeps s₀ (s.loadBead b data hmeta tag plain) := by
  unfold State.loadBead
  refine h.withMem fun k => Mem.wf_writeDouble _ _ _ ?_
  have hplain {a a' l l'} : ((s.mem.writeDoubles a l).writeDoubles a' l').wf = true :=
    Mem.wf_writeDoubles _ _ (Mem.wf_writeDoubles _ _ k)
  split
  · exact hplain
  · exact Mem.wf_writeDoubles _ _ hplain

theorem Keeps.copyBead (h : Keeps s₀ s) {a b} : Keeps s₀ (s.copyBead a b) :=
  h.foldl fun _ _ h => h.copyDouble

theorem Keeps.countHot (h : Keeps s₀ s) {ep k u} : KeepsFst s₀ (s.countHot ep k u) :=
  .mk h.withFw

theorem Keeps.mirror (h : Keeps s₀ s) {k u w} : Keeps s₀ (s.mirror k u w) := by
  unfold State.mirror
  split
  · exact h
  · split
    · exact h
    · split
      · next heq => exact .either h (.withFw (h.readyBand.putAt.of_eq heq))
      · next heq => exact (h.readyBand.putAt.of_eq heq)
      · exact h.readyBand

theorem Keeps.admitHot (h : Keeps s₀ s) {ep k u bead w} : Keeps s₀ (s.admitHot ep k u bead w) := by
  unfold State.admitHot
  extract_lets +onlyGivenNames lately₁
  clear_value lately₁
  split
  · exact h
  · exact h.mirror
  · extract_lets +onlyGivenNames room₁ s₁
    have h₁ : Keeps s₀ s₁ := by
      unfold s₁
      refine .either h ?_
      split
      · exact h.evictHot
      · exact h
    exact .either h₁.takeBead.fst.poolRefresh.copyBead.withFw h₁

theorem Keeps.heat (h : Keeps s₀ s) {ep k u bead g w} : Keeps s₀ (s.heat ep k u bead g w) := by
  unfold State.heat
  split
  · exact h.withFw
  · exact .either h.countHot.fst.admitHot h.countHot.fst
  · exact h

theorem Keeps.readOut (h : Keeps s₀ s) {k e fmt first w i l} : Keeps s₀ (s.readOut k e fmt first w i l) := by
  induction l generalizing s i with
  | nil => exact h
  | cons g l ih =>
    unfold State.readOut
    extract_lets fill r u u' run s₁
    have hfill {t b} (h : Keeps s₀ t) : Keeps s₀ (fill t b) := by
      unfold fill
      split
      · exact h.loadBead
      · exact h.copyBead
      · exact h.loadBead
    have h₁ : Keeps s₀ s₁ := by
      unfold s₁
      split
      · exact h
      · have hu : Keeps s₀ u' := (hfill h.takeBead.fst.poolRefresh).heat.giveBead
        split
        · exact hu.setSlot
        · exact hu
    exact ih h₁

theorem Keeps.execNvmRead (h : Keeps s₀ s) {slot reads mirrorAt} : KeepsOut s₀ (Machine.execNvmRead slot reads mirrorAt s) := by
  unfold Machine.execNvmRead
  refine .next ?_
  extract_lets k₁
  split
  · exact h
  · split
    · exact h.finish
    · exact .either h h.gotAll.fst.readOut.finish

theorem Keeps.execNvmVerify (h : Keeps s₀ s) {slot reads} : KeepsOut s₀ (Machine.execNvmVerify slot reads s) := by
  unfold Machine.execNvmVerify
  refine .next ?_
  extract_lets k₁
  split
  · exact h
  · split
    · exact h.finish
    · exact h.gotAll.fst.finish

theorem Keeps.compareAll (h : Keeps s₀ s) {e fmt first i bs rs} : KeepsFst s₀ (s.compareAll e fmt first i bs rs) := by
  induction bs generalizing s i rs with
  | nil => exact .mk h
  | cons b bs ih =>
    unfold State.compareAll
    extract_lets g
    have hg : KeepsFst s₀ g := h.gotUnit
    split
    · exact .mk hg.fst
    · exact ih hg.fst

theorem Keeps.execNvmCompare (h : Keeps s₀ s) {slot beads reads} : KeepsOut s₀ (Machine.execNvmCompare slot beads reads s) := by
  unfold Machine.execNvmCompare
  refine .next ?_
  extract_lets +onlyGivenNames k₁
  split
  · exact h
  · extract_lets bs₁
    split
    · exact h.freeAll.finish
    · exact h.pulled (fun _ h => h.compareAll.fst.freeAll.finish)

theorem Keeps.addRange (h : Keeps s₀ s) {e kind first count} : Keeps s₀ (s.addRange e kind first count) :=
  .either h h.withFw

theorem Keeps.flushFor (h : Keeps s₀ s) {e} : Keeps s₀ (s.flushFor e) :=
  h.flushStart.slotDone.postAll

theorem Keeps.execWriteUncorrectable (h : Keeps s₀ s) {slot} : KeepsOut s₀ (Machine.execWriteUncorrectable slot s) := by
  unfold Machine.execWriteUncorrectable
  refine .next ?_
  extract_lets +onlyGivenNames k₁
  split
  · exact h
  · extract_lets lba₁ n₁ fmt₁
    split
    · exact h.finish
    · exact .either h.finish h.addRange.flushFor

theorem Keeps.addZeroUnit (h : Keeps s₀ s) {e fmt whole i} : Keeps s₀ (s.addZeroUnit e fmt whole i) := by
  unfold State.addZeroUnit
  extract_lets u₁ mask₁ first₁ last₁ ranged₁
  split
  · exact h.orderFails
  · exact h.takeBead.fst.poolRefresh.loadBead.withFw

theorem Keeps.execWriteZeroes (h : Keeps s₀ s) {slot} : KeepsOut s₀ (Machine.execWriteZeroes slot s) := by
  unfold Machine.execWriteZeroes
  refine .next ?_
  extract_lets +onlyGivenNames k₁
  split
  · exact h
  · extract_lets fmt₁
    split
    · exact h.finish
    · exact .either h (.flushFor (h.addRange.foldl fun _ _ h => h.addZeroUnit))

theorem Keeps.execDatasetManagement (h : Keeps s₀ s) {slot} : KeepsOut s₀ (Machine.execDatasetManagement slot s) := by
  unfold Machine.execDatasetManagement
  refine .next ?_
  extract_lets +onlyGivenNames k₁
  split
  · exact h
  · extract_lets fmt₁ lbas₁ list₁ s₁
    have h₁ : Keeps s₀ s₁ := by
      unfold s₁
      split
      · exact h.freeAll.setSlot
      · exact h
    split
    · exact h₁.finish
    · exact .either h₁.finish (.either h₁.finish (.flushFor (h₁.foldl fun _ _ h => h.addRange)))

/-! ### The functions of Machine/SigOps.lean -/

theorem Keeps.setLoaded (h : Keeps s₀ s) {t} : Keeps s₀ (s.setLoaded t) :=
  h.withSig.setFld

theorem Keeps.loadUnlocked (h : Keeps s₀ s) : Keeps s₀ s.loadUnlocked :=
  h.setLoaded

theorem Keeps.replaceMek (h : Keeps s₀ s) {r} : Keeps s₀ (s.replaceMek r) :=
  h.withSig.incWrap

theorem Keeps.deallocRuns (h : Keeps s₀ s) {k runs} : Keeps s₀ (s.deallocRuns k runs) :=
  h.foldl fun _ _ h => .either h h.takeSeqs.fst.journal.applyRange

theorem Keeps.eraseRange (h : Keeps s₀ s) {r} : Keeps s₀ (s.eraseRange r) :=
  h.replaceMek.deallocRuns.andThen fun h => .either h.setLoaded h

theorem Keeps.dropRange (h : Keeps s₀ s) {r} : Keeps s₀ (s.dropRange r) :=
  h.replaceMek.setLock.withSig.setLoaded

theorem Keeps.nsKeys (h : Keeps s₀ s) {op k} : Keeps s₀ (s.nsKeys op k) :=
  .either h.replaceMek.withSig.setLoaded (.either (h.foldl fun _ _ h => h.dropRange) (h.foldl fun _ _ h => h.eraseRange))

theorem Keeps.deallocEverything (h : Keeps s₀ s) : Keeps s₀ s.deallocEverything :=
  h.foldl fun _ _ h => h.deallocRuns

theorem Keeps.clearFrames (h : Keeps s₀ s) : Keeps s₀ s.clearFrames :=
  h.foldl fun _ _ h => h.setFrame

theorem Keeps.clearMap (h : Keeps s₀ s) : Keeps s₀ s.clearMap :=
  h.withFw.countValid.clearFrames

theorem Keeps.clearCopies (h : Keeps s₀ s) : Keeps s₀ s.clearCopies := by
  unfold State.clearCopies
  exact .freshSnapshot (.withMem (.withFw (h.foldl fun _ _ h => h.releaseBead)) (Mem.wf_keep _))

theorem Keeps.replaceAll (h : Keeps s₀ s) : Keeps s₀ s.replaceAll :=
  h.foldl fun _ _ h => h.replaceMek

theorem Keeps.setAuth (h : Keeps s₀ s) {a x} : Keeps s₀ (s.setAuth a x) :=
  h.withSig

theorem Keeps.opalMade (h : Keeps s₀ s) {sid} : Keeps s₀ (s.opalMade sid) :=
  h.setLocks.withSig

theorem Keeps.zeroise (h : Keeps s₀ s) {owner} : Keeps s₀ (s.zeroise owner) :=
  h.opalClose.opalMade.replaceAll.andThen fun h => .loadUnlocked (.clearCopies (.clearMap (.deallocEverything
    (.either h.withSig h))))

theorem Keeps.fatalStop (h : Keeps s₀ s) {event arg} : Keeps s₀ (s.fatalStop event arg) :=
  h.setFld.setFld.setCfs.logAll

theorem Keeps.showSan (h : Keeps s₀ s) : Keeps s₀ s.showSan :=
  h.setReg

theorem Keeps.sanFails (h : Keeps s₀ s) : Keeps s₀ s.sanFails :=
  .either h.withSig.showSan h

theorem Keeps.signetError (h : Keeps s₀ s) {row} : Keeps s₀ (s.signetError row) :=
  h.setLoaded.setFld.setFld.secRecord.sanFails.fatalStop

theorem Keeps.showKs (h : Keeps s₀ s) : Keeps s₀ s.showKs := by
  unfold State.showKs
  split
  · exact h.setFld.setFld.setFld
  · exact h.setFld.setFld.setFld

theorem Keeps.ksEnd (h : Keeps s₀ s) : Keeps s₀ s.ksEnd := by
  unfold State.ksEnd
  split
  · exact h
  · exact .either h.withSig.showKs.modeRequest h.withSig.showKs

/-! ### The functions of Machine/HallmarkOps.lean -/

theorem Keeps.withBoot (h : Keeps s₀ s) {b} : Keeps s₀ (s.withBoot b) :=
  h.update

theorem Keeps.compactLog (h : Keeps s₀ s) : Keeps s₀ s.compactLog := by
  unfold State.compactLog
  exact .either h.update (.either h.update h)

theorem Keeps.hallmark (h : Keeps s₀ s) {type cause source flags p} : Keeps s₀ (s.hallmark type cause source flags p) :=
  h.compactLog.update

/-! ### The functions of Machine/LogPages.lean -/

theorem Keeps.tickBy (h : Keeps s₀ s) {n} : Keeps s₀ (s.tickBy n) :=
  h.update

theorem Keeps.setCursor (h : Keeps s₀ s) {mgmt n} : Keeps s₀ (s.setCursor mgmt n) :=
  h.setFld

theorem Keeps.readSnap (h : Keeps s₀ s) {mgmt lsp rae off n} : KeepsFst s₀ (s.readSnap mgmt lsp rae off n) := by
  unfold State.readSnap
  extract_lets +onlyGivenNames old₁ s₁ p₁ _ s₂
  have h₁ : Keeps s₀ s₁ := .either (.either h.setCursor h) h
  have h₂ : Keeps s₀ s₂ := .either h₁.update h₁.update
  refine .mk ?_
  split
  · exact .either h₂.setCursor h₂
  · exact h₂

theorem Keeps.readPage (h : Keeps s₀ s) {mgmt lid lsp rae off n} : KeepsSomeFst s₀ (s.readPage mgmt lid lsp rae off n) := by
  unfold State.readPage
  refine .either (.some h.readSnap) ?_
  split
  · exact .none
  · exact .some (.mk (.either h.tickBy.update h.tickBy))

/-! ### The functions of Machine/AdminOps.lean -/

theorem Keeps.adminCmd (h : Keeps s₀ s) {k op f} (hf : ∀ a0, Keeps s₀ (f a0)) : Keeps s₀ (s.adminCmd k op f) := by
  unfold State.adminCmd
  split
  · exact h
  · split
    · exact h.finish
    · exact hf _

theorem Keeps.adminPull (h : Keeps s₀ s) {k op beads f} (hf : ∀ t a b, Keeps s₀ t → Keeps s₀ (f t a b)) :
    Keeps s₀ (s.adminPull k op beads f) := by
  unfold State.adminPull
  split
  · exact h
  · extract_lets bs₁
    split
    · exact h.freeAll.finish
    · split
      · exact h.freeAll.finish
      · exact .either h (hf _ _ _ h.freeAll)

theorem Keeps.returnPiece (h : Keeps s₀ s) {k cls i l} : Keeps s₀ (s.returnPiece k cls i l) := by
  unfold State.returnPiece
  extract_lets r₁ u₁
  have h₁ : KeepsFst s₀ r₁ := h.takeBead
  have h₂ : Keeps s₀ u₁ := h₁.fst.poolRefresh.loadBead
  split
  · exact h₂.setSlot
  · exact h₂

theorem Keeps.adminReturn (h : Keeps s₀ s) {t k l dw0} (ht : Keeps s₀ t) : Keeps s₀ (s.adminReturn t k l dw0) :=
  .either h (.finish (ht.foldl fun _ _ h => h.returnPiece))

theorem Keeps.finishOrder (h : Keeps s₀ s) {o status dw0} : Keeps s₀ (s.finishOrder o status dw0) := by
  unfold State.finishOrder
  split
  · exact .either h h.finish
  · exact h

theorem Keeps.nsNotice (h : Keeps s₀ s) {ids} : Keeps s₀ (s.nsNotice ids) :=
  .either h.update.asyncEvent h.update

theorem Keeps.dropHeld (h : Keeps s₀ s) {k status} : Keeps s₀ (s.dropHeld k status) := by
  unfold State.dropHeld
  refine h.foldl fun _ _ h => ?_
  split
  · exact .either h.setSlot.finish h
  · exact h

theorem Keeps.formatNow (h : Keeps s₀ s) {k n f} : Keeps s₀ (s.formatNow k n f) :=
  .update (.deallocRuns (.either h.dropHeld.nsKeys h.dropHeld))

theorem Keeps.formatOne (h : Keeps s₀ s) {k n f} : Keeps s₀ (s.formatOne k n f) :=
  .either h.formatNow (.finishOrder (.nsNotice (.either h.formatNow.withFw h.formatNow)))

theorem Keeps.formatAdvance (h : Keeps s₀ s) : Keeps s₀ s.formatAdvance := by
  unfold State.formatAdvance
  refine h.foldl fun _ _ ht => ?_
  split
  · split
    · exact .either ht (ht.durably (fun _ h => h.formatOne) ht)
    · exact ht
  · exact ht

theorem Keeps.deleteNow (h : Keeps s₀ s) {k n} : Keeps s₀ (s.deleteNow k n) :=
  h.nsKeys.deallocRuns.journal.update

theorem Keeps.leaveNow (h : Keeps s₀ s) {k n order delete} : Keeps s₀ (s.leaveNow k n order delete) :=
  .andThen (.nsNotice (.checkHealth (.either h.dropHeld.deleteNow h.dropHeld.update))) fun h => .either h h.finishOrder

theorem Keeps.leaveAdvance (h : Keeps s₀ s) : Keeps s₀ s.leaveAdvance := by
  unfold State.leaveAdvance
  refine h.foldl fun _ _ ht => ?_
  split
  · split
    · exact .either ht (.either (ht.durably (fun _ h => h.leaveNow) ht) ht.leaveNow)
    · exact ht
  · exact ht

theorem Keeps.sanAdvance (h : Keeps s₀ s) : Keeps s₀ s.sanAdvance :=
  .either h (.either h h.dropHeld.modeRequest)

theorem Keeps.dropHot (h : Keeps s₀ s) : Keeps s₀ s.dropHot :=
  .withFw (h.foldl fun _ _ h => h.releaseBead)

theorem Keeps.sleepAdvance (h : Keeps s₀ s) : Keeps s₀ s.sleepAdvance := by
  unfold State.sleepAdvance
  refine .either h ?_
  split
  · exact h
  · next heq => exact .modeRequest (.withPwr (.either (.saveLife (.counterWord (.saveStamp (.saveAssay (.dropHot
      (h.flushAll.of_eq heq)))))) (.dropHot (h.flushAll.of_eq heq))))

theorem Keeps.fwAdvance (h : Keeps s₀ s) : Keeps s₀ s.fwAdvance :=
  h.formatAdvance.leaveAdvance.sanAdvance.sleepAdvance

/-! ### The functions of Machine/Admin.lean -/

theorem Keeps.execGetLogPage (h : Keeps s₀ s) {slot} : KeepsOut s₀ (Machine.execGetLogPage slot s) := by
  unfold Machine.execGetLogPage
  refine .next ?_
  refine h.adminCmd (fun _ => ?_)
  refine .either h.finish ?_
  split
  · exact h.finish
  · next heq => exact h.adminReturn (KeepsFst.fst (h.readPage.of_eq heq))

theorem Keeps.execIdentify (h : Keeps s₀ s) {slot} : KeepsOut s₀ (Machine.execIdentify slot s) := by
  unfold Machine.execIdentify
  refine .next ?_
  refine h.adminCmd (fun _ => ?_)
  split
  · exact h.finish
  · exact h.adminReturn h.tickBy

theorem Keeps.execAsyncEventRequest (h : Keeps s₀ s) {slot} : KeepsOut s₀ (Machine.execAsyncEventRequest slot s) := by
  unfold Machine.execAsyncEventRequest
  refine .next ?_
  refine h.adminCmd (fun _ => ?_)
  refine .either h ?_
  refine .either h.finish ?_
  extract_lets _ t₁
  have h₁ : Keeps s₀ t₁ := h.update
  split
  · exact h₁
  · exact h₁.update.asyncEvent

theorem Keeps.setFeature (h : Keeps s₀ s) {key v save} : Keeps s₀ (s.setFeature key v save) :=
  h.update

theorem Keeps.execSetFeatures (h : Keeps s₀ s) {slot} : KeepsOut s₀ (Machine.execSetFeatures slot s) :=
  .next (h.adminCmd (fun _ => .either h (.either h.finish (.either (.either h.finish h.finish) (.either (.either (.finish
    (h.foldl fun _ _ h => h.setFeature)) (.either h.finish h.setFeature.finish)) h.setFeature.finish)))))

theorem Keeps.execGetFeatures (h : Keeps s₀ s) {slot} : KeepsOut s₀ (Machine.execGetFeatures slot s) := by
  unfold Machine.execGetFeatures
  refine .next ?_
  refine h.adminCmd (fun _ => ?_)
  split
  · exact h.finish
  · exact .either h.finish (h.adminReturn h)

theorem Keeps.execPowerManagementFeature (h : Keeps s₀ s) {slot l12} :
    KeepsOut s₀ (Machine.execPowerManagementFeature slot l12 s) := by
  unfold Machine.execPowerManagementFeature
  refine .next ?_
  refine h.adminCmd (fun _ => ?_)
  refine .either h ?_
  refine .either h.finish ?_
  refine .either h.setFeature.withPwr.finish ?_
  refine .either h.finish ?_
  extract_lets +onlyGivenNames s₁
  have h₁ : Keeps s₀ s₁ := h.setFeature.finish
  refine .fwAdvance (.withPwr (.setFld ?_))
  split
  · exact h₁.update.finishOrder
  · exact h₁

theorem Keeps.addUnpowered (h : Keeps s₀ s) {hours} : Keeps s₀ (s.addUnpowered hours) :=
  h.withFw

theorem Keeps.execTimestampFeature (h : Keeps s₀ s) {slot beads} : KeepsOut s₀ (Machine.execTimestampFeature slot beads s) := by
  unfold Machine.execTimestampFeature
  refine .next ?_
  extract_lets +onlyGivenNames k₁
  split
  · exact h
  · refine .either h ?_
    refine h.adminPull (fun _ _ _ h => ?_)
    refine .either h.finish ?_
    refine .finish (.setStamp ?_)
    split
    · exact .withPwr (.addUnpowered (.either h.asyAcq h))
    · exact h

theorem Keeps.nsCreated (h : Keeps s₀ s) {k i n} : Keeps s₀ (s.nsCreated k i n) :=
  h.update.journal.nsKeys.checkHealth.finish

theorem Keeps.createNs (h : Keeps s₀ s) {wait k l} (hwait : Keeps s₀ wait) : Keeps s₀ (s.createNs wait k l) := by
  unfold State.createNs
  extract_lets nsze₁ ncap₁ flbas₁ dps₁ fmt₁ pi₁
  split
  · exact h.finish
  · exact .either h.finish (.either h.finish (.either h.finish (.either h.finish (h.durably (fun _ h => h.nsCreated) hwait))))

theorem Keeps.nsResized (h : Keeps s₀ s) {k i n m} : Keeps s₀ (s.nsResized k i n m) := by
  unfold State.nsResized
  extract_lets +onlyGivenNames s₁
  have h₁ : Keeps s₀ s₁ := .either h.deallocRuns h
  refine .finish (.nsNotice (.checkHealth (.journal ?_)))
  split
  · exact h₁.update.withSig
  · exact h₁.update

theorem Keeps.resizeNs (h : Keeps s₀ s) {wait k i n l} (hwait : Keeps s₀ wait) : Keeps s₀ (s.resizeNs wait k i n l) :=
  .either h.finish (.either h.finish (.either h.finish (.either h.finish (.either h.finish (.either hwait (h.durably
    (fun _ h => h.nsResized) hwait))))))

theorem Keeps.execNamespaceManagement (h : Keeps s₀ s) {slot beads} :
    KeepsOut s₀ (Machine.execNamespaceManagement slot beads s) := by
  unfold Machine.execNamespaceManagement
  refine .next ?_
  refine h.adminPull (fun _ _ _ ht => ?_)
  extract_lets +onlyGivenNames wait₁ s₁
  have h₁ : Keeps s₀ wait₁ := h
  have h₂ : Keeps s₀ s₁ := ht
  refine .either (h₂.createNs h₁) ?_
  refine .either ?_ ?_
  · split
    · exact h₂.finish
    · exact h₂.resizeNs h₁
  · refine .either ?_ h₂.finish
    refine .either (.either h₂.update.fwAdvance h₂.update.finish) ?_
    refine .either h₂.finish ?_
    split
    · exact h₂.finish
    · exact .either h₂.finish h₂.update.fwAdvance

theorem Keeps.execNamespaceAttachment (h : Keeps s₀ s) {slot beads} :
    KeepsOut s₀ (Machine.execNamespaceAttachment slot beads s) := by
  unfold Machine.execNamespaceAttachment
  refine .next ?_
  refine h.adminPull (fun _ _ _ h => ?_)
  extract_lets +onlyGivenNames sel₁ nsid₁ n₁
  refine .either h.finish ?_
  clear_value n₁
  split
  · exact h.finish
  · exact .either h.finish (.either (.either h.finish h.update.nsNotice.finish) (.either h.finish
      (.either h.finish h.update.fwAdvance)))

theorem Keeps.execFormatNvm (h : Keeps s₀ s) {slot} : KeepsOut s₀ (Machine.execFormatNvm slot s) :=
  .next (h.adminCmd (fun _ => .either h.finish (.either h.finish (.either h.finish (.either h.fwAdvance
    (.either h.finish h.update.fwAdvance))))))

/-! ### The functions of Machine/Sanitize.lean -/

theorem Keeps.sanCommand (h : Keeps s₀ s) {k act f} (hf : ∀ a0, Keeps s₀ (f a0)) : Keeps s₀ (s.sanCommand k act f) :=
  h.adminCmd (fun _ => .either (hf _) (.either h h.finish))

theorem Keeps.sanAccept (h : Keeps s₀ s) {k act e} : Keeps s₀ (s.sanAccept k act e) :=
  .either h.finish h.withSig.showSan.finish.fwAdvance

theorem Keeps.execSanitizeExitFailureMode (h : Keeps s₀ s) {slot} : KeepsOut s₀ (Machine.execSanitizeExitFailureMode slot s) :=
  .next (h.sanCommand (fun _ => .either h.finish (.either h.finish (.finish
    (.either h.withSig.showSan.modeRequest h.withSig.showSan)))))

theorem Keeps.eraseFlash (h : Keeps s₀ s) {bad} : Keeps s₀ (s.eraseFlash bad) :=
  .withFw (.foldl (h.foldl fun _ _ h => h.releaseBand) fun _ _ h => .either h.eraseBegins.retire h.eraseBegins.blockErased)

theorem Keeps.patternPass (h : Keeps s₀ s) : Keeps s₀ s.patternPass :=
  h.foldl fun _ _ h => h.setBlk

theorem Keeps.patternUnits (h : Keeps s₀ s) {pattern} : KeepsFst s₀ (s.patternUnits pattern) :=
  .mk h.takeSeqs.fst

theorem Keeps.writePattern (h : Keeps s₀ s) {ws us} : KeepsSome s₀ (s.writePattern ws us) := by
  induction ws generalizing s us with
  | nil =>
    cases us with
    | nil => exact .some h
    | cons u us => exact .none
  | cons w ws ih =>
    cases us with
    | nil => exact .some h
    | cons u us =>
      unfold State.writePattern
      exact ih (.flushNow (.stripeSync (h.putUnits.fst.foldl fun _ _ h => h.updateUnit)))

theorem Keeps.overwrite (h : Keeps s₀ s) {bad n} : Keeps s₀ (s.overwrite bad n) := by
  induction n generalizing s with
  | zero => exact h.eraseFlash
  | succ n ih =>
    unfold State.overwrite
    exact ih h.eraseFlash.patternPass

theorem Keeps.sanFlash (h : Keeps s₀ s) {bad ats} : KeepsSome s₀ (s.sanFlash bad ats) := by
  unfold State.sanFlash
  refine .either (.either (.either (.some h.movePages.clearFrames) .none) (.some h.deallocEverything.clearMap)) ?_
  refine .either (.some h.eraseFlash.clearMap.startBands) ?_
  have hover {n a g} : Keeps s₀ ((((s.overwrite bad n).clearMap).startBands a).withSig g) :=
    h.overwrite.clearMap.startBands.withSig
  refine .either (.bind (.writePattern (KeepsFst.fst (.patternUnits hover))) fun t ht => ?_) (.some hover)
  exact .either (.some ht.movePages.clearFrames) .none

theorem Keeps.sanEnds (h : Keeps s₀ s) {bad} : Keeps s₀ (s.sanEnds bad) :=
  .checkHealth (.modeRequest (.loadUnlocked (.either h.clearCopies.withSig.showSan h.clearCopies.withSig.showSan.tell)))

theorem Keeps.execSvcSanstep (h : Keeps s₀ s) {src ok bad ats} : KeepsOut s₀ (Machine.execSvcSanstep src ok bad ats s) := by
  unfold Machine.execSvcSanstep
  refine .next ?_
  refine h.serve (fun _ _ h => ?_)
  extract_lets +onlyGivenNames s₁
  have h₁ : Keeps s₀ s₁ := h.sanAdvance
  refine .either (.mk h₁) ?_
  refine .either (.either (.mk h₁.replaceAll.setLoaded.withSig.showSan) (.mk h₁.sanFails)) ?_
  split
  · next heq => exact .mk (.sanEnds (h₁.sanFlash.of_eq heq))
  · exact .mk h₁

/-! ### The functions of Machine/Security.lean -/

theorem Keeps.secReceive (h : Keeps s₀ s) {secp spsp n} : KeepsFst s₀ (s.secReceive secp spsp n) := by
  unfold State.secReceive
  refine .either (.mk h) ?_
  refine .either (.mk h) ?_
  split
  · exact .either (.mk h.withSig) (.mk h)
  · exact .mk h

theorem Keeps.execSecuritySend (h : Keeps s₀ s) {slot beads} : KeepsOut s₀ (Machine.execSecuritySend slot beads s) :=
  .next (h.adminPull (fun _ _ _ h => .either h.finish (.either h.incWrap.incSat.finish h.incWrap.finish)))

theorem Keeps.execSecurityReceive (h : Keeps s₀ s) {slot} : KeepsOut s₀ (Machine.execSecurityReceive slot s) :=
  .next (h.adminCmd (fun _ => .either h.finish (.either h.incWrap.incSat.finish (h.adminReturn h.incWrap.secReceive.fst))))

theorem Keeps.returnBeads (h : Keeps s₀ s) {p src} : Keeps s₀ (s.returnBeads p src) :=
  h.foldl fun _ _ h => .either h.giveBead h

theorem Keeps.fillBeads (h : Keeps s₀ s) {p l} : Keeps s₀ (s.fillBeads p l) := by
  unfold State.fillBeads
  exact h.foldl fun _ _ h => .either (h.withMem (Mem.wf_writeDoubles _ _)) h

theorem Keeps.execSvcSecrecv (h : Keeps s₀ s) {src} : KeepsOut s₀ (Machine.execSvcSecrecv src s) :=
  .next (h.serve (fun _ _ h => .either (.mk h.returnBeads) (.mk h.secReceive.fst.fillBeads.returnBeads)))

theorem Keeps.raiseFloors (h : Keeps s₀ s) : Keeps s₀ s.raiseFloors :=
  .either h h.withBoot

theorem Keeps.execSvcReady (h : Keeps s₀ s) {src} : KeepsOut s₀ (Machine.execSvcReady src s) :=
  .next (h.serve (fun _ _ h => .either (.mk h) (.either (.mk h) (.either (.mk h.withSig.bootEnds)
    (.mk h.withSig.bootEnds.raiseFloors.formatAdvance)))))

/-! ### The functions of Machine/BootOps.lean -/

theorem Keeps.putLocks (h : Keeps s₀ s) {l} : Keeps s₀ (s.putLocks l) :=
  h.foldl fun _ _ h => h.setReg.setReg

theorem Keeps.afterReset (h : Keeps s₀ s) {p} : Keeps s₀ (s.afterReset p) := by
  unfold State.afterReset
  extract_lets +onlyGivenNames s₁ locks _ _ t
  have h₁ : Keeps s₀ s₁ := h.opalDiscard.lkInterrupted
  have ht : Keeps s₀ t := ⟨fun _ => rfl, h₁.part, h₁.dramMiB⟩
  exact ht.putLocks

theorem Keeps.deviceReset (h : Keeps s₀ s) {cause} : Keeps s₀ (s.deviceReset cause) :=
  h.afterReset.withBoot

theorem Keeps.startCounters (h : Keeps s₀ s) {fresh} : Keeps s₀ (s.startCounters fresh) :=
  .counterWord (.setFld (.setFld (.setFld (.setFld (.update (.setFld (.setFld (.either h.setFld.setFld h))))))))

theorem Keeps.startCore (h : Keeps s₀ s) {n st entry} : Keeps s₀ (s.startCore n st entry) :=
  h.setCore

theorem Keeps.startCluster (h : Keeps s₀ s) {entry failed release c} : Keeps s₀ (s.startCluster entry failed release c) :=
  .setReg (h.foldl fun _ _ h => h.startCore)

theorem Keeps.startCores (h : Keeps s₀ s) {entry failed release} : Keeps s₀ (s.startCores entry failed release) :=
  h.setFld.update.foldl fun _ _ h => h.startCluster

theorem Keeps.seqLoadGood (h : Keeps s₀ s) {q} : Keeps s₀ (s.seqLoadGood q) :=
  .either h.setFld.setFld h.setFld.setFld.setFld

theorem Keeps.seqLoadBad (h : Keeps s₀ s) {q} : Keeps s₀ (s.seqLoadBad q) := by
  unfold State.seqLoadBad
  refine .either h ?_
  extract_lets +onlyGivenNames s₁
  have h₁ : Keeps s₀ s₁ := h.setFld.setFld
  refine .either h₁.faultNow.psqFenceOut ?_
  split
  · exact .either h₁ h₁.psqSwitch
  · exact h₁.faultNow.psqFenceOut.psqLost

theorem Keeps.loadSeqs (h : Keeps s₀ s) {failed} : Keeps s₀ (s.loadSeqs failed) :=
  .foldl (h.foldl fun _ _ h => h.seqLoadGood) fun _ _ h => h.seqLoadBad

theorem Keeps.romRecovery (h : Keeps s₀ s) {cause} : Keeps s₀ (s.romRecovery cause) :=
  h.hallmark.modeRequest.setReg.setFld

theorem Keeps.signetReady (h : Keeps s₀ s) : Keeps s₀ s.signetReady :=
  h.setFld.setFld.showSan.loadUnlocked

theorem Keeps.warnIndet (h : Keeps s₀ s) : Keeps s₀ s.warnIndet :=
  h.foldl fun _ _ h => h.tell

theorem Keeps.startSlot (h : Keeps s₀ s) {cause r k p fallback} : Keeps s₀ (s.startSlot cause r k p fallback) :=
  .either h.signetReady.loadSeqs.fatalStop h.signetReady.loadSeqs.hallmark.log.startCores.withBoot.warnIndet

theorem Keeps.bootFrom (h : Keeps s₀ s) {r} : Keeps s₀ (s.bootFrom r) := by
  unfold State.bootFrom
  extract_lets +onlyGivenNames cause₁ _ s₁ s₂ s₃
  have h₁ : Keeps s₀ s₁ := h.withPwr
  have h₂ : Keeps s₀ s₂ := h₁.setFld.setFld
  have h₃ : Keeps s₀ s₃ := h₂.startCores
  refine .either h₃.romRecovery ?_
  extract_lets order₁ bad₁
  split
  · exact h₃.romRecovery
  · split
    · exact h₃.romRecovery
    · exact Keeps.andThen (h₃.foldl fun _ _ h => h.tell) fun h => .either h.signetError h.startSlot

theorem Keeps.bootStart (h : Keeps s₀ s) {r} : Keeps s₀ (s.bootStart r) := by
  unfold State.bootStart
  exact .bootFrom (.startCounters (.deviceReset h))

theorem Keeps.deepWake (h : Keeps s₀ s) {r} : Keeps s₀ (s.deepWake r) := by
  unfold State.deepWake
  extract_lets +onlyGivenNames keep old _ t₁ _ _ t₂ _ t₃ t₄
  have h₁ : Keeps s₀ t₁ := h.afterReset
  clear_value t₁
  have h₂ : Keeps s₀ t₂ := ⟨h.wf, h₁.part, h₁.dramMiB⟩
  have h₄ : Keeps s₀ t₄ := .setReg h₂.update
  exact .bootFrom (.modeTo (.startCounters h₄.withBoot))

/-! ### The functions of Machine/Opal.lean -/

theorem Keeps.opalSays (h : Keeps s₀ s) {st} : Keeps s₀ (s.opalSays st) :=
  h.withSig

theorem Keeps.execOpalStartSession (h : Keeps s₀ s) {authority pin write} :
    KeepsOut s₀ (Machine.execOpalStartSession authority pin write s) :=
  .next (.either h.opalSays (.either h.opalSays (.either h.opalSays (.either h.secRecord.opalSays (.either h.secRecord.opalSays
    (.either h.setAuth.secRecord.opalSays h.setAuth.withSig.setFld.opalSays))))))

theorem Keeps.setRange (h : Keeps s₀ s) {r x} : Keeps s₀ (s.setRange r x) :=
  h.withSig

theorem Keeps.opalLocks (h : Keeps s₀ s) {r x rl wl} : Keeps s₀ (s.opalLocks r x rl wl) :=
  .either h.setLock h.setLock.setLoaded

theorem Keeps.opalSetRange (h : Keeps s₀ s) {r k start len} : KeepsSome s₀ (s.opalSetRange r k start len) :=
  .either .none (.either (.some h.dropRange) (.either .none (.some (.either h.setRange h.setRange.setLoaded))))

theorem Keeps.opalGenKey (h : Keeps s₀ s) {o r} : Keeps s₀ (s.opalGenKey o r) :=
  .either h.withSig h.eraseRange

theorem Keeps.opalRevertSp (h : Keeps s₀ s) : Keeps s₀ s.opalRevertSp :=
  h.opalClose.opalMade.replaceAll.deallocEverything.loadUnlocked

theorem Keeps.opalRun (h : Keeps s₀ s) {o m} : KeepsFst s₀ (s.opalRun o m) := by
  unfold State.opalRun
  extract_lets +onlyGivenNames a admin only onRange
  have hOnly {ok t} (ht : Keeps s₀ t) : KeepsFst s₀ (only ok t) := .either (.mk h) (.either (.mk ht) (.mk h))
  have hRange {r f} (hf : ∀ x, KeepsFst s₀ (f x)) : KeepsFst s₀ (onRange r f) := by
    unfold onRange
    split
    · exact hf _
    · exact .mk h
  clear_value only onRange
  split
  · exact hRange fun _ => hOnly h.opalLocks
  · exact hRange fun _ => hOnly h.setRange.opalLocks
  · split
    · next heq => exact hOnly (h.opalSetRange.of_eq heq)
    · exact .mk h
  · exact hRange fun _ => hOnly h.setRange
  · exact hRange fun _ => hOnly h.opalGenKey
  · exact hOnly h.setAuth
  · exact hOnly h.setAuth
  · exact hOnly h.setAuth
  · exact hOnly h.setAuth
  · exact hOnly h.withSig
  · exact .either (.mk h) (.mk h.withSig)
  · exact .either (.mk h) (.either (.mk (h.withSig.foldl fun _ _ h => h.eraseRange)) (.mk h.opalDiscard))
  · exact .mk h.opalClose
  · exact .either (.mk h.zeroise) (.mk h)
  · exact .either (.mk h.opalRevertSp) (.mk h)
  · exact .either (.mk h.zeroise) (.mk h)
  · exact .mk h.withSig
  · exact .either (.mk h) (.mk h.withSig)
  · exact .either (.mk h) (hOnly h.withSig)

theorem Keeps.execOpalMethod (h : Keeps s₀ s) {m} : KeepsOut s₀ (Machine.execOpalMethod m s) := by
  unfold Machine.execOpalMethod
  refine .next ?_
  refine .either h.opalSays ?_
  split
  · split
    · exact h.withSig.opalSays
    · exact h.opalSays
  · exact h.withSig.opalRun.fst.opalSays

/-! ### The functions of Machine/Sessions.lean -/

theorem Keeps.busSays (h : Keeps s₀ s) {e} : Keeps s₀ (s.busSays e) :=
  h.update

theorem Keeps.onBus (h : Keeps s₀ s) {f} (hf : ∀ t, Keeps s₀ t → Keeps s₀ (f t)) : Keeps s₀ (s.onBus f) :=
  .either h.busSays (.either h.busSays (hf _ h))

theorem Keeps.carried (h : Keeps s₀ s) {via f} (hf : ∀ t, Keeps s₀ t → Keeps s₀ (f t)) : Keeps s₀ (s.carried via f) := by
  unfold State.carried
  split
  · exact h.onBus (fun _ h => hf _ h)
  · exact .either h (hf _ h)

theorem Keeps.ksSays (h : Keeps s₀ s) {via code body} : Keeps s₀ (s.ksSays via code body) := by
  unfold State.ksSays
  split
  · exact h.busSays
  · exact h.withSig

theorem Keeps.ksFails (h : Keeps s₀ s) {via reason} : Keeps s₀ (s.ksFails via reason) :=
  h.ksSays

theorem Keeps.execKsOpen (h : Keeps s₀ s) {via keyId privs nr} : KeepsOut s₀ (Machine.execKsOpen via keyId privs nr s) := by
  unfold Machine.execKsOpen
  refine .next ?_
  refine h.carried (fun _ h => ?_)
  refine .either h.ksFails ?_
  refine .either h.ksFails ?_
  split
  · exact h.ksFails
  · exact .either h.ksFails h.tickBy.withSig.ksSays

theorem Keeps.ksPrivileges (h : Keeps s₀ s) {asked} : KeepsFst s₀ (s.ksPrivileges asked) :=
  KeepsFst.andThen (.either (.mk h.modeRequest) (.mk h)) fun h => .either (.mk h.fst.modeRequest) h

theorem Keeps.execKsProve (h : Keeps s₀ s) {via proof} : KeepsOut s₀ (Machine.execKsProve via proof s) := by
  unfold Machine.execKsProve
  refine .next ?_
  refine h.carried (fun _ h => ?_)
  refine .either h.ksFails ?_
  split
  · exact h.ksFails
  · split
    · exact h.ksFails
    · exact .either h.ksFails (.either h.ksPrivileges.fst.withSig.showKs.secRecord.ksSays h.withSig.showKs.incSat.secRecord.ksFails)

theorem Keeps.ksMessage (h : Keeps s₀ s) {via seq macOk priv f} (hf : ∀ t a, Keeps s₀ t → KeepsFst s₀ (f t a)) :
    Keeps s₀ (s.ksMessage via seq macOk priv f) := by
  unfold State.ksMessage
  refine h.carried (fun _ h => ?_)
  refine .either h.ksFails ?_
  split
  · exact h.ksFails
  · exact .either h.ksFails (.either h.ksEnd.ksFails (.either h.withSig.ksFails (.either (.ksSays (KeepsFst.fst (hf _ _ h.withSig)))
      (.ksFails (KeepsFst.fst (hf _ _ h.withSig))))))

theorem Keeps.execKsLogRead (h : Keeps s₀ s) {via seq macOk lid lsp rae off len} :
    KeepsOut s₀ (Machine.execKsLogRead via seq macOk lid lsp rae off len s) := by
  unfold Machine.execKsLogRead
  refine .next ?_
  refine h.ksMessage (fun _ _ h => ?_)
  refine .either (.mk h) ?_
  split
  · next heq => exact .mk (KeepsFst.fst (h.readPage.of_eq heq))
  · exact .mk h

theorem Keeps.execKsEnrol (h : Keeps s₀ s) {via seq macOk what} : KeepsOut s₀ (Machine.execKsEnrol via seq macOk what s) := by
  unfold Machine.execKsEnrol
  refine .next ?_
  refine h.ksMessage (fun _ _ h => ?_)
  split
  · exact .either (.mk h) (.mk h.withSig.secRecord)
  · exact .either (.mk h) (.mk h.withSig.secRecord)

theorem Keeps.spdmSays (h : Keeps s₀ s) {via code body} : Keeps s₀ (s.spdmSays via code body) := by
  unfold State.spdmSays
  split
  · exact h.busSays
  · exact h.withSig

theorem Keeps.spdmFails (h : Keeps s₀ s) {via code} : Keeps s₀ (s.spdmFails via code) :=
  h.spdmSays

theorem Keeps.spdmRequest (h : Keeps s₀ s) {via ready f} (hf : ∀ t, Keeps s₀ t → Keeps s₀ (f t)) :
    Keeps s₀ (s.spdmRequest via ready f) :=
  h.carried (fun _ h => .either h (.either h.spdmFails (.either h.spdmFails (hf _ h))))

theorem Keeps.setSpdm (h : Keeps s₀ s) {v c a} : Keeps s₀ (s.setSpdm v c a) :=
  h.withSig

theorem Keeps.execSpdmGetCertificate (h : Keeps s₀ s) {via slot off len} :
    KeepsOut s₀ (Machine.execSpdmGetCertificate via slot off len s) := by
  unfold Machine.execSpdmGetCertificate
  refine .next ?_
  refine h.spdmRequest (fun _ h => ?_)
  split
  · exact h.spdmFails
  · exact .either h.spdmFails h.spdmSays

theorem Keeps.spdmSigned (h : Keeps s₀ s) {via code nonce body} : Keeps s₀ (s.spdmSigned via code nonce body) :=
  h.tickBy.spdmSays

theorem Keeps.execSpdmChallenge (h : Keeps s₀ s) {via slot nonce summary} :
    KeepsOut s₀ (Machine.execSpdmChallenge via slot nonce summary s) := by
  unfold Machine.execSpdmChallenge
  refine .next ?_
  refine h.spdmRequest (fun _ h => ?_)
  split
  · exact h.spdmFails
  · exact h.spdmSigned

/-! ### The functions of Machine/Boot.lean -/

theorem Keeps.romSays (h : Keeps s₀ s) {via code} : Keeps s₀ (s.romSays via code) := by
  unfold State.romSays
  split
  · exact h.busSays
  · exact h

theorem Keeps.romOp (h : Keeps s₀ s) {via code f} (hf : ∀ t, Keeps s₀ t → Keeps s₀ (f t)) : Keeps s₀ (s.romOp via code f) := by
  unfold State.romOp
  refine .either h ?_
  split
  · exact h.onBus (fun _ h => .romSays (hf _ h))
  · exact hf _ h

theorem Keeps.romFails (h : Keeps s₀ s) {why} : Keeps s₀ (s.romFails why) :=
  h.withBoot

theorem Keeps.execRomBegin (h : Keeps s₀ s) {via len target} : KeepsOut s₀ (Machine.execRomBegin via len target s) :=
  .next (h.romOp (fun _ ht => .either ht (ht.withBoot.andThen fun h => .either h.romFails (.either h.romFails h))))

theorem Keeps.execRomEnd (h : Keeps s₀ s) {via package} : KeepsOut s₀ (Machine.execRomEnd via package s) := by
  unfold Machine.execRomEnd
  refine .next ?_
  refine h.romOp (fun _ h => ?_)
  refine .either h ?_
  refine .either h.romFails ?_
  split
  · exact h.romFails
  · exact .either h.romFails (.either h.romFails (.either h.romFails h.withBoot))

theorem Keeps.execRomStatus (h : Keeps s₀ s) {via} : KeepsOut s₀ (Machine.execRomStatus via s) := by
  unfold Machine.execRomStatus
  refine .next ?_
  split
  · exact h.romOp fun _ h => h
  · exact .either h.update h

theorem Keeps.execRomPackageWritten (h : Keeps s₀ s) {good copies} : KeepsOut s₀ (Machine.execRomPackageWritten good copies s) := by
  unfold Machine.execRomPackageWritten
  refine .next ?_
  extract_lets b₁
  split
  · exact h
  · exact .either h (.either h.romFails (.either h.withBoot (.either h h.withBoot)))

/-! ### The functions of Machine/FacetAssist.lean -/

theorem Keeps.legal (h : Keeps s₀ s) {n bad w k} (hk : ∀ t, Keeps s₀ t → Keeps s₀ (k t)) : Keeps s₀ (s.legal n bad w k) :=
  .either h.illegal (hk _ h)

theorem Keeps.execBalloc (h : Keeps s₀ s) {core f gd ga} : KeepsOut s₀ (Machine.execBalloc core f gd ga s) := by
  unfold Machine.execBalloc
  refine .next ?_
  refine h.facet (fun _ ht => ?_)
  refine ht.legal (fun _ ht => ?_)
  refine ht.bite (fun _ h => ?_)
  extract_lets r₁
  have h₁ : KeepsFst s₀ r₁ := h.balloc
  split
  · exact h₁.fst.result
  · exact .either h.trap h₁.fst.track.result

theorem Keeps.execBfree (h : Keeps s₀ s) {core f ga} : KeepsOut s₀ (Machine.execBfree core f ga s) :=
  .next (h.facet (fun _ ht => ht.legal (fun _ ht => ht.bite (fun _ h => .either h.trap (.either h.trap
    (.either h.track.advance h.releaseBead.advance))))))

theorem Keeps.execBgive (h : Keeps s₀ s) {core f gd ga gb} : KeepsOut s₀ (Machine.execBgive core f gd ga gb s) :=
  .next (h.facet (fun _ ht => ht.legal (fun _ ht => ht.bite (fun _ ht => ht.bite (fun _ h => .either h.trap (.either h.result
    (.either h.trap (.either h.track.result h.giveBead.result))))))))

theorem Keeps.execCrcl (h : Keeps s₀ s) {core f gd ga gb ecc} : KeepsOut s₀ (Machine.execCrcl core f gd ga gb ecc s) := by
  unfold Machine.execCrcl
  refine .next ?_
  refine h.facet (fun _ ht => ?_)
  refine ht.bite (fun _ ht => ?_)
  refine ht.bite (fun _ ht => ?_)
  extract_lets a₁
  split
  · exact ht.trap
  · exact ht.checked (fun _ h => h.blockAt.fst.result)

theorem Keeps.execCrcbd (h : Keeps s₀ s) {core f gd ga gb ecc} : KeepsOut s₀ (Machine.execCrcbd core f gd ga gb ecc s) :=
  .next (h.facet (fun _ ht => ht.legal (fun _ ht => ht.bite (fun _ ht => ht.bite (fun _ ht => ht.checked
    (fun _ h => h.readOutcome.fst.result))))))

/-! ### The functions of Machine/FacetChain.lean -/

theorem Keeps.execSendLimitExpiry (h : Keeps s₀ s) {core} : KeepsOut s₀ (Machine.execSendLimitExpiry core s) := by
  unfold Machine.execSendLimitExpiry
  refine .next ?_
  split
  · exact .either h h.trap
  · exact h

/-! ### The functions of Machine/FacetMem.lean -/

theorem Keeps.execCas (h : Keeps s₀ s) {core f gd ga gb ecc} : KeepsOut s₀ (Machine.execCas core f gd ga gb ecc s) :=
  .next (h.facet (fun _ ht => ht.bite (fun _ ht => ht.bite (fun _ ht => ht.bite (fun _ ht => ht.checked (fun _ h => h.atomicOn))))))

/-! ### The functions of Machine/FacetSystem.lean -/

theorem Keeps.setCr (h : Keeps s₀ s) {n cr v} : Keeps s₀ (s.setCr n cr v) :=
  .either h.setCore (.either h.setCore (.either h.setCore (.either h.setCore (.either h.setCore (.either h.setCore
    (.either h.setCore (.either h.setCore h)))))))

theorem Keeps.ctlReg (h : Keeps s₀ s) {n cr ga w op} : Keeps s₀ (s.ctlReg n cr ga w op) :=
  .either h.illegal (h.bite (fun _ h => h.setCr.advance))

theorem Keeps.execCtlget (h : Keeps s₀ s) {core f gd cr} : KeepsOut s₀ (Machine.execCtlget core f gd cr s) := by
  unfold Machine.execCtlget
  refine .next ?_
  refine h.facet (fun _ h => ?_)
  split
  · exact .result (.either h.laneRead h)
  · exact h.illegal

theorem Keeps.execIllegalOpcode (h : Keeps s₀ s) {core f word} : KeepsOut s₀ (Machine.execIllegalOpcode core f word s) := by
  unfold Machine.execIllegalOpcode
  split
  · exact .fault
  · exact .next (h.facet (fun _ h => h.illegal))

/-! ### The functions of Machine/FlashFault.lean -/

theorem Keeps.injectRequest (h : Keeps s₀ s) {q r} : Keeps s₀ (s.injectRequest q r) := by
  unfold State.injectRequest
  extract_lets chan₁ l₁ e₁
  have h₁ : KeepsFst s₀ e₁ := h.injEvent
  split
  · exact h₁.fst
  · exact .either (h₁.fst.blaming (fun _ h => h.claspBreak.claspBreak.seqFail)) h₁.fst.update

theorem Keeps.psqTake (h : Keeps s₀ s) {q isOp lookup} : Keeps s₀ (s.psqTake q isOp lookup) := by
  unfold State.psqTake
  extract_lets before₁ s₁
  have h₁ : Keeps s₀ s₁ := h.psqAccept
  split
  · exact h₁.injectRequest
  · exact h₁

theorem Keeps.disarmFlash (h : Keeps s₀ s) {p} : Keeps s₀ (s.disarmFlash p) :=
  h.update

theorem Keeps.faultyCapture (h : Keeps s₀ s) {chan bytes} : KeepsFst s₀ (s.faultyCapture chan bytes) := by
  unfold State.faultyCapture
  split
  · exact .mk h
  · split
    · exact .mk h
    · split
      · exact .mk h
      · exact .mk h.tick

theorem Keeps.slotFaultsEnd (h : Keeps s₀ s) {chan} : Keeps s₀ (s.slotFaultsEnd chan) := by
  unfold State.slotFaultsEnd
  split
  · exact h
  · exact h.disarmFlash

/-! ### The functions of Machine/Flash.lean -/

theorem Keeps.performed (h : Keeps s₀ s) {q l} : Keeps s₀ (s.performed q l) :=
  h.foldl fun _ _ h => .either h.withFw (.either h.withFw h)

theorem Keeps.execDieOperationComplete (h : Keeps s₀ s) {q lun busyNs pass data errors} :
    KeepsOut s₀ (Machine.execDieOperationComplete q lun busyNs pass data errors s) :=
  .next (.either h (.blaming (.either (.disarmFlash (.either h.performed h)) (.either h.performed h))
    (fun _ ht => ht.dieDone.foldl fun _ _ h => h.retire)))

/-! ### The functions of Machine/HqeQueue.lean -/

theorem Keeps.badDoorbell (h : Keeps s₀ s) {code y} : Keeps s₀ (s.badDoorbell code y) :=
  h.incSat.hqeNotice.asyncEvent

theorem Keeps.execSqTailDoorbell (h : Keeps s₀ s) {y value} : KeepsOut s₀ (Machine.execSqTailDoorbell y value s) := by
  unfold Machine.execSqTailDoorbell
  refine .next ?_
  refine .either h ?_
  split
  · exact h.badDoorbell
  · exact .either h.badDoorbell h.update

theorem Keeps.execCqHeadDoorbell (h : Keeps s₀ s) {y value} : KeepsOut s₀ (Machine.execCqHeadDoorbell y value s) := by
  unfold Machine.execCqHeadDoorbell
  refine .next ?_
  refine .either h ?_
  split
  · exact h.badDoorbell
  · exact .either h.badDoorbell h.update.postWaiting.shutdownStep

theorem Keeps.fetchFrom (h : Keeps s₀ s) {sq cls q} : Keeps s₀ (s.fetchFrom sq cls q) :=
  h.update

theorem Keeps.execFetchTurn (h : Keeps s₀ s) : KeepsOut s₀ (Machine.execFetchTurn s) := by
  unfold Machine.execFetchTurn
  refine .next ?_
  refine .either h ?_
  extract_lets adminOne₁
  clear_value adminOne₁
  split
  · exact h.fetchFrom
  · split
    · split
      · exact h.fetchFrom
      · exact h
    · exact h

theorem Keeps.completionDropped (h : Keeps s₀ s) : KeepsSome s₀ s.completionDropped :=
  .either .none (.some h.update)

theorem Keeps.parseFails (h : Keeps s₀ s) {k st} : Keeps s₀ (s.parseFails k st) := by
  unfold State.parseFails
  split
  · exact h
  · exact h.incSat.setSlot.post.shutdownStep

theorem Keeps.execSqEntryArrival (h : Keeps s₀ s) {sq cmd} : KeepsOut s₀ (Machine.execSqEntryArrival sq cmd s) := by
  unfold Machine.execSqEntryArrival
  refine .next ?_
  split
  · split
    · next heq => exact (h.completionDropped.of_eq heq)
    · extract_lets +onlyGivenNames bad₁ e₁ _ s₁ s₂
      have h₁ : Keeps s₀ s₁ := h.update
      have h₂ : Keeps s₀ s₂ := h₁.setSlot
      refine .slotCounts ?_
      clear_value bad₁
      split
      · exact .parseFails (.either h₂.incSat h₂)
      · exact .either h₂.dispatchSlot h₂.enterReady
  · exact h

theorem Keeps.execDsmRangeListArrival (h : Keeps s₀ s) {slot ranges err} :
    KeepsOut s₀ (Machine.execDsmRangeListArrival slot ranges err s) := by
  unfold Machine.execDsmRangeListArrival
  refine .next ?_
  extract_lets +onlyGivenNames k₁
  split
  · exact h
  · refine .either h (.either h.incSat.parseFails.enterReady.slotCounts ?_)
    split
    · next heq => exact h.completionDropped.of_eq heq
    · split
      · exact Keeps.andThen (.setSlot (h.takeBead.fst.poolRefresh.withMem (Mem.wf_writeDoubles _ _))) fun h =>
          .slotCounts (.enterReady (.either h.dispatchSlot h))
      · exact h

theorem Keeps.queueDone (h : Keeps s₀ s) {k st notice} : Keeps s₀ (s.queueDone k st notice) := by
  unfold State.queueDone
  split
  · exact h
  · exact h.setSlot.post

theorem Keeps.execCreateIoCq (h : Keeps s₀ s) {slot} : KeepsOut s₀ (Machine.execCreateIoCq slot s) := by
  unfold Machine.execCreateIoCq
  refine .next ?_
  extract_lets k₁
  split
  · exact h
  · split
    · exact h.queueDone
    · exact .either h.queueDone (.either h.queueDone (.either h.queueDone (.either h.queueDone h.update.queueDone)))

theorem Keeps.execCreateIoSq (h : Keeps s₀ s) {slot} : KeepsOut s₀ (Machine.execCreateIoSq slot s) := by
  unfold Machine.execCreateIoSq
  refine .next ?_
  extract_lets k₁
  split
  · exact h
  · split
    · exact h.queueDone
    · exact .either h.queueDone (.either h.queueDone (.either h.queueDone (.either h.queueDone
        (.either h.queueDone h.update.queueDone))))

theorem Keeps.execDeleteIoCq (h : Keeps s₀ s) {slot} : KeepsOut s₀ (Machine.execDeleteIoCq slot s) := by
  unfold Machine.execDeleteIoCq
  refine .next ?_
  extract_lets k₁
  split
  · exact h
  · split
    · exact h.queueDone
    · exact .either h.queueDone (.either h.queueDone h.update.queueDone)

theorem Keeps.sqDeleted (h : Keeps s₀ s) {k qid} : Keeps s₀ (s.sqDeleted k qid) :=
  .either h h.update.queueDone

theorem Keeps.cancelPortions (h : Keeps s₀ s) {orders} : Keeps s₀ (s.cancelPortions orders) :=
  .postWaiting (.foldl (h.dropWaiting.foldl fun _ _ h => h.orderEnds) fun _ _ h => h.slotDone)

theorem Keeps.execDeleteIoSq (h : Keeps s₀ s) {slot} : KeepsOut s₀ (Machine.execDeleteIoSq slot s) := by
  unfold Machine.execDeleteIoSq
  refine .next ?_
  extract_lets +onlyGivenNames k₁
  split
  · exact h
  · split
    · exact h.queueDone
    · extract_lets qid₁
      split
      · exact h.queueDone
      · exact .either h.queueDone (.either h (.slotCounts (.sqDeleted (.cancelPortions
          (h.update.foldl fun _ _ h => h.setSlot.hwSend)))))

theorem Keeps.execDeleteIoSqDone (h : Keeps s₀ s) {slot} : KeepsOut s₀ (Machine.execDeleteIoSqDone slot s) := by
  unfold Machine.execDeleteIoSqDone
  refine .next ?_
  split
  · exact h.sqDeleted
  · exact h

theorem Keeps.setUpAdmin (h : Keeps s₀ s) {aqa} : Keeps s₀ (s.setUpAdmin aqa) :=
  .either h h.update

theorem Keeps.execCcWrite (h : Keeps s₀ s) {value aqa} : KeepsOut s₀ (Machine.execCcWrite value aqa s) :=
  .next (.either h.update.controllerReset.hostGone.hqeNotice.update (Keeps.andThen
    (.either h.update.update.setUpAdmin h.update) fun ht => Keeps.andThen (.either ht.hqeNotice ht) fun h =>
    .either h.update.setFld.shutdownStep h))

theorem Keeps.functionReset (h : Keeps s₀ s) : Keeps s₀ s.functionReset :=
  h.update

theorem Keeps.execControllerReset (h : Keeps s₀ s) {cause} : KeepsOut s₀ (Machine.execControllerReset cause s) := by
  unfold Machine.execControllerReset
  refine .next ?_
  extract_lets s₁
  have h₁ : Keeps s₀ s₁ := h.controllerReset.hostGone.hqeNotice
  split
  · exact h₁
  · exact h₁.functionReset
  · exact h₁.functionReset.setReg
  · exact h₁.setReg

theorem Keeps.hostReadFails (h : Keeps s₀ s) {target} : Keeps s₀ (s.hostReadFails target) := by
  unfold State.hostReadFails
  extract_lets s₁
  have h₁ : Keeps s₀ s₁ := h.incSat
  split
  · exact h₁.update.setCfs
  · split
    · exact .either h₁.parseFails.enterReady.slotCounts h₁
    · exact h₁
  · split
    · split
      · exact h₁.groupEnds
      · exact h₁
    · exact h₁

theorem Keeps.readErrorLog (h : Keeps s₀ s) {err} : Keeps s₀ (s.readErrorLog err) := by
  unfold State.readErrorLog
  split
  · exact h.aerLog
  · exact h.update
  · exact h.update

theorem Keeps.msixFlush (h : Keeps s₀ s) : Keeps s₀ s.msixFlush :=
  h.foldl fun _ _ h => h.update.msixSend

theorem Keeps.hostAnswer (h : Keeps s₀ s) {e} : Keeps s₀ (s.hostAnswer e) :=
  h.update

theorem Keeps.setLink (h : Keeps s₀ s) {l} : Keeps s₀ (s.setLink l) :=
  h.update

theorem Keeps.hostAccess (h : Keeps s₀ s) {a} : Keeps s₀ (s.hostAccess a) := by
  unfold State.hostAccess
  extract_lets l₁ lock₁
  split
  · exact h.hostAnswer
  · exact h.setLink.hostAnswer
  · exact h.setLink.hostAnswer
  · exact h.setLink.msixFlush.hostAnswer
  · exact h.setLink.hostAnswer
  · exact .either h.hostAnswer (.either h.setLink.aerLog.hostAnswer h.hostAnswer)
  · exact .either h h.setLink.msixFlush

/-! ### The functions of Machine/Locket.lean -/

theorem Keeps.lkRefreshDue (h : Keeps s₀ s) {sector} : Keeps s₀ (s.lkRefreshDue sector) :=
  .tell (.either h.lkNotice h)

/-! ### The functions of Machine/Mgmt.lean -/

theorem Keeps.mctpSays (h : Keeps s₀ s) {cmd code body} : Keeps s₀ (s.mctpSays cmd code body) :=
  h.onBus (fun _ h => h.busSays)

theorem Keeps.execMctpGetVersionSupport (h : Keeps s₀ s) {type} : KeepsOut s₀ (Machine.execMctpGetVersionSupport type s) :=
  .next (h.onBus (fun _ h => .either h.busSays (.either h.busSays (.either h.tick.busSays h.busSays))))

theorem Keeps.miBus (h : Keeps s₀ s) {op f} (hf : ∀ t, Keeps s₀ t → KeepsFst s₀ (f t)) : Keeps s₀ (s.miBus op f) :=
  h.onBus (fun _ h => .busSays (KeepsFst.fst (.either (.mk h) (hf _ h))))

theorem Keeps.miRead (h : Keeps s₀ s) {nmd0} : KeepsFst s₀ (s.miRead nmd0) :=
  .either (.mk h) (.either (.either (.mk h.tickBy) (.either (.mk h) (.mk h))) (.either (.mk h) (.either (.either (.mk h.tickBy)
    (.mk h)) (.either (.mk h) (.mk h)))))

theorem Keeps.miSet (h : Keeps s₀ s) {nmd0 nmd1} : KeepsFst s₀ (s.miSet nmd0 nmd1) :=
  .either (.either (.mk h.update) (.mk h)) (.either (.either (.mk h.update) (.mk h)) (.mk h))

theorem Keeps.miAdmin (h : Keeps s₀ s) {c} : KeepsFst s₀ (s.miAdmin c) := by
  unfold State.miAdmin
  refine .either ?_ ?_
  · split
    · exact .mk h
    · exact .mk h.tickBy
  · refine .either ?_ ?_
    · split
      · exact .mk h
      · exact .mk h
    · refine .either ?_ (.mk h)
      refine .either (.mk h) ?_
      split
      · exact .mk h
      · next heq => exact .mk (KeepsFst.fst (h.readPage.of_eq heq))

theorem Keeps.execNvmeMiReceive (h : Keeps s₀ s) {slot} : KeepsOut s₀ (Machine.execNvmeMiReceive slot s) :=
  .next (h.adminCmd (fun _ => KeepsFst.andThen (.either h.miRead (.mk h)) fun ht => .either ht.fst.finish (h.adminReturn ht.fst)))

/-! ### The functions of Machine/Power.lean -/

theorem Keeps.abandonEntry (h : Keeps s₀ s) : Keeps s₀ s.abandonEntry :=
  .either h h.update.withPwr.setFld.tell

theorem Keeps.wakeAttempt (h : Keeps s₀ s) : Keeps s₀ s.wakeAttempt :=
  h.withPwr.setFld.avsRequest

theorem Keeps.wakeStart (h : Keeps s₀ s) {cause} : Keeps s₀ (s.wakeStart cause) :=
  h.setFld.setFld.setFld.setFld.setFld.withPwr.wakeAttempt

theorem Keeps.wakeEvent (h : Keeps s₀ s) {cause} : Keeps s₀ (s.wakeEvent cause) :=
  .either h.wakeStart (.either h.sleepStep5.wakeStart h.abandonEntry)

theorem Keeps.addSleep (h : Keeps s₀ s) {count} : Keeps s₀ (s.addSleep count) :=
  h.withPwr.update.setFld.setFld.setFld

theorem Keeps.sendBuffer (h : Keeps s₀ s) : Keeps s₀ s.sendBuffer :=
  .either h h.hwSend.withPwr

theorem Keeps.idleWake (h : Keeps s₀ s) : Keeps s₀ s.idleWake :=
  h.sendBuffer.modeRequest.andThen fun h => .either h.withPwr h.update

theorem Keeps.wakeDone (h : Keeps s₀ s) {count crystal r} : Keeps s₀ (s.wakeDone count crystal r) :=
  h.addSleep.setFld.withPwr.setFld.setFld.andThen fun h => .either h.setFld.update.deepWake.sendBuffer
    (.either h.setFld.idleWake h.setFld.idleWake.tell.alert)

theorem Keeps.wakeFails (h : Keeps s₀ s) {tries} : Keeps s₀ (s.wakeFails tries) :=
  h.setFld.setFld.setFld.withPwr.alert

theorem Keeps.execWakeAttemptFail (h : Keeps s₀ s) {count report} : KeepsOut s₀ (Machine.execWakeAttemptFail count report s) :=
  .next (.either h.wakeFails (.either h (.either h.setFld.withPwr.setFld.wakeAttempt
    (.either h.setFld.wakeFails h.setFld.wakeDone.settle))))

/-! ### The functions of Machine/Update.lean -/

theorem Keeps.execFirmwareImageDownload (h : Keeps s₀ s) {slot beads} :
    KeepsOut s₀ (Machine.execFirmwareImageDownload slot beads s) :=
  .next (h.adminPull (fun _ _ _ h => .either h.finish (.either h.finish h.withBoot.finish)))

theorem Keeps.fwCommit (h : Keeps s₀ s) {k ca f} (hf : ∀ a0, Keeps s₀ (f a0)) : Keeps s₀ (s.fwCommit k ca f) :=
  h.adminCmd (fun _ => .either h.finish (.either h (hf _)))

theorem Keeps.dropScheduled (h : Keeps s₀ s) {slot} : Keeps s₀ (s.dropScheduled slot) := by
  unfold State.dropScheduled
  split
  · exact .either h.withBoot.finishOrder h
  · exact h

theorem Keeps.commitWrite (h : Keeps s₀ s) {k fs next package copies} : Keeps s₀ (s.commitWrite k fs next package copies) := by
  unfold State.commitWrite
  refine .either h.finish ?_
  refine .either h.finish ?_
  split
  · exact h.withBoot.finish
  · exact .either h.withBoot.finish (.either h.withBoot.finish (.either h h.withBoot.dropScheduled.finish))

theorem Keeps.nextStart (h : Keeps s₀ s) {t} : Keeps s₀ (s.nextStart t) :=
  h.withBoot

theorem Keeps.execFirmwareCommitNextStart (h : Keeps s₀ s) {slot readable} :
    KeepsOut s₀ (Machine.execFirmwareCommitNextStart slot readable s) := by
  unfold Machine.execFirmwareCommitNextStart
  refine .next ?_
  refine h.fwCommit (fun _ => ?_)
  split
  · exact h.finish
  · exact h.nextStart.finish

theorem Keeps.refusedBySanitize (h : Keeps s₀ s) : Keeps s₀ s.refusedBySanitize :=
  .either h.modeRefused h

theorem Keeps.startActivation (h : Keeps s₀ s) {slot order scheduled} : Keeps s₀ (s.startActivation slot order scheduled) :=
  h.modeRequest.andThen fun h => .either h.finishOrder (.withBoot (.either h.update.asyncEvent h.update))

theorem Keeps.refuseActivation (h : Keeps s₀ s) {k x} : Keeps s₀ (s.refuseActivation k x) := by
  unfold State.refuseActivation
  refine .finish ?_
  split
  · exact h.nextStart
  · exact h

theorem Keeps.execFirmwareCommitActivate (h : Keeps s₀ s) {slot readable} :
    KeepsOut s₀ (Machine.execFirmwareCommitActivate slot readable s) := by
  unfold Machine.execFirmwareCommitActivate
  refine .next ?_
  extract_lets +onlyGivenNames k₁ s₁
  have h₁ : Keeps s₀ s₁ := .either h.refusedBySanitize h
  refine h₁.fwCommit (fun _ => ?_)
  refine .either h₁.finish ?_
  refine .either h₁ ?_
  split
  · exact h₁.refuseActivation
  · exact h₁.startActivation

theorem Keeps.execScheduledActivation (h : Keeps s₀ s) {slot readable} :
    KeepsOut s₀ (Machine.execScheduledActivation slot readable s) := by
  unfold Machine.execScheduledActivation
  refine .next ?_
  refine h.adminCmd (fun _ => ?_)
  refine .either h ?_
  refine .either h.finish ?_
  refine .either h.finish ?_
  split
  · exact h.refuseActivation
  · exact h.withBoot

theorem Keeps.execScheduledActivationTime (h : Keeps s₀ s) : KeepsOut s₀ (Machine.execScheduledActivationTime s) := by
  unfold Machine.execScheduledActivationTime
  refine .next ?_
  split
  · exact h
  · exact .either h.update (.either h.update.withBoot.refusedBySanitize.finishOrder h.update.withBoot.startActivation)

theorem Keeps.execCorePark (h : Keeps s₀ s) {core} : KeepsOut s₀ (Machine.execCorePark core s) := by
  unfold Machine.execCorePark
  refine .next ?_
  refine .either h ?_
  split
  · exact h.setBox.setCore
  · exact h

theorem Keeps.activationOver (h : Keeps s₀ s) : Keeps s₀ s.activationOver :=
  .withBoot (.update (.either h.modeRequest h))

theorem Keeps.execActivationDrainTimeout (h : Keeps s₀ s) : KeepsOut s₀ (Machine.execActivationDrainTimeout s) := by
  unfold Machine.execActivationDrainTimeout
  refine .next ?_
  split
  · exact h
  · exact .either h h.activationOver.finishOrder

theorem Keeps.activationMem (h : Keeps s₀ s) : Keeps s₀ s.activationMem :=
  h.withMem (Mem.wf_keep _)

theorem Keeps.activationCore (h : Keeps s₀ s) {entry n} : Keeps s₀ (s.activationCore entry n) := by
  unfold State.activationCore
  extract_lets c₁ _ z₁
  split
  · exact h.setCore
  · exact h.setCore
  · exact h

theorem Keeps.activationSeq (h : Keeps s₀ s) {q} : Keeps s₀ (s.activationSeq q) :=
  h.setSq.psqResume

theorem Keeps.release (h : Keeps s₀ s) {a p failed} : Keeps s₀ (s.release a p failed) :=
  Keeps.andThen (h.withBoot.hallmark.update.activationMem.foldl fun _ _ h => .either h.activationCore h) fun ht => .finishOrder
    (.activationOver (.either (.foldl (ht.update.foldl fun _ _ h => h.activationSeq) fun _ _ h => h.seqLoadBad) ht.update))

theorem Keeps.execActivationRelease (h : Keeps s₀ s) {seqFailed recordOk} :
    KeepsOut s₀ (Machine.execActivationRelease seqFailed recordOk s) := by
  unfold Machine.execActivationRelease
  refine .next ?_
  split
  · exact h
  · refine .either h ?_
    refine .either h.activationOver.fatalStop ?_
    split
    · exact h.release
    · exact h.activationOver.finishOrder

/-! ### One command -/

theorem Keeps.exec (h : Keeps s₀ s) {i} : KeepsOut s₀ (Machine.exec i s) := by
  cases i with
  | powerOn => exact .next (.either h h.deviceReset.withPwr.update)
  | powerOnResetEnd => exact .next (.either h (.either h.withPwr h.withPwr.bootStart))
  | perstNAssert => exact .next (.either h (.either h.withPwr.deviceReset h.withPwr))
  | perstNRelease => exact .next (.either h (.either h.withPwr.bootStart h.withPwr))
  | railBelowMinimum => exact .next (.either h h.deviceReset.withPwr)
  | vlktLow => exact .next (.either h.setFld.setFld h)
  | modeRequest => exact .next h.writeBy
  | paceUpdate => exact .next (.either h.setFld.setFld h.setFld)
  | operatingPointUpdate => exact .next (.either h.writeBy h)
  | avsVoltageWrite => exact .next h.writeBy
  | avsTransactionDone => exact .next (.either h.avsDone.tell h.avsDone)
  | chainDelivery => exact .next h.deliver.turnAway.settle
  | sendLimitExpiry => exact h.execSendLimitExpiry
  | txLimitExpiry => exact .next (.either h.trap.settle h)
  | watchdogExpiry => exact .next (.either h (.either h.setCore.trap.settle (.either h.coreFail.settle h.setCore)))
  | illegalOpcode => exact h.execIllegalOpcode
  | add => exact .next (h.facet (fun _ h => h.alu2))
  | sub => exact .next (h.facet (fun _ h => h.alu2))
  | and => exact .next (h.facet (fun _ h => h.alu2))
  | or => exact .next (h.facet (fun _ h => h.alu2))
  | xor => exact .next (h.facet (fun _ h => h.alu2))
  | nor => exact .next (h.facet (fun _ h => h.alu2))
  | sll => exact .next (h.facet (fun _ h => h.alu2))
  | srl => exact .next (h.facet (fun _ h => h.alu2))
  | sra => exact .next (h.facet (fun _ h => h.alu2))
  | rol => exact .next (h.facet (fun _ h => h.alu2))
  | slt => exact .next (h.facet (fun _ h => h.alu2))
  | sltu => exact .next (h.facet (fun _ h => h.alu2))
  | mul => exact .next (h.facet (fun _ h => h.alu2))
  | mulh => exact .next (h.facet (fun _ h => h.alu2))
  | mulhu => exact .next (h.facet (fun _ h => h.alu2))
  | div => exact .next (h.facet (fun _ h => h.alu2))
  | rem => exact .next (h.facet (fun _ h => h.alu2))
  | divu => exact .next (h.facet (fun _ h => h.alu2))
  | remu => exact .next (h.facet (fun _ h => h.alu2))
  | min => exact .next (h.facet (fun _ h => h.alu2))
  | max => exact .next (h.facet (fun _ h => h.alu2))
  | minu => exact .next (h.facet (fun _ h => h.alu2))
  | maxu => exact .next (h.facet (fun _ h => h.alu2))
  | clz => exact .next (h.facet (fun _ h => h.alu1))
  | ctz => exact .next (h.facet (fun _ h => h.alu1))
  | popc => exact .next (h.facet (fun _ h => h.alu1))
  | bswap => exact .next (h.facet (fun _ h => h.alu1))
  | ptest => exact .next (h.facet (fun _ h => h.result))
  | pclr => exact .next (h.facet (fun _ h => h.result))
  | jr => exact .next (h.facet (fun _ ht => ht.bite (fun _ h => h.jumpTo)))
  | callr => exact .next (h.facet (fun _ ht => ht.bite (fun _ h => h.setG.jumpTo)))
  | addi => exact .next (h.facet (fun _ h => h.alu1))
  | andi => exact .next (h.facet (fun _ h => h.alu1))
  | ori => exact .next (h.facet (fun _ h => h.alu1))
  | xori => exact .next (h.facet (fun _ h => h.alu1))
  | slti => exact .next (h.facet (fun _ h => h.alu1))
  | sltiu => exact .next (h.facet (fun _ h => h.alu1))
  | slli => exact .next (h.facet (fun _ h => h.alu1))
  | srli => exact .next (h.facet (fun _ h => h.alu1))
  | srai => exact .next (h.facet (fun _ h => h.alu1))
  | lui => exact .next (h.facet (fun _ h => h.result))
  | ins32 => exact .next (h.facet (fun _ h => h.alu1))
  | ins48 => exact .next (h.facet (fun _ h => h.alu1))
  | muli => exact .next (h.facet (fun _ h => h.alu1))
  | lpa => exact .next (h.facet (fun _ h => h.result))
  | cmpeqi => exact .next (h.facet (fun _ h => h.alu1))
  | lb => exact .next (h.facet (fun _ h => h.loadImm))
  | lbu => exact .next (h.facet (fun _ h => h.loadImm))
  | lh => exact .next (h.facet (fun _ h => h.loadImm))
  | lhu => exact .next (h.facet (fun _ h => h.loadImm))
  | lw => exact .next (h.facet (fun _ h => h.loadImm))
  | lwu => exact .next (h.facet (fun _ h => h.loadImm))
  | ld => exact .next (h.facet (fun _ h => h.loadImm))
  | ldr => exact .next (h.facet (fun _ ht => ht.bite (fun _ ht => ht.bite (fun _ h => h.loadInto))))
  | sb => exact .next (h.facet (fun _ h => h.storeImm))
  | sh => exact .next (h.facet (fun _ h => h.storeImm))
  | sw => exact .next (h.facet (fun _ h => h.storeImm))
  | sd => exact .next (h.facet (fun _ h => h.storeImm.settle))
  | sdr => exact .next (h.facet (fun _ ht => .settle (ht.bite (fun _ ht => ht.bite (fun _ h => h.storeFrom)))))
  | sdp => exact .next (h.facet (fun _ h => h.storeImm))
  | zl => exact .next (h.facet (fun _ ht => ht.bite (fun _ ht => ht.checked (fun _ h => h.zeroBlock.advance))))
  | beq => exact .next (h.facet (fun _ h => h.branch))
  | bne => exact .next (h.facet (fun _ h => h.branch))
  | blt => exact .next (h.facet (fun _ h => h.branch))
  | bge => exact .next (h.facet (fun _ h => h.branch))
  | bltu => exact .next (h.facet (fun _ h => h.branch))
  | bgeu => exact .next (h.facet (fun _ h => h.branch))
  | bpo => exact .next (h.facet (fun _ h => .either h.goto h.advance))
  | jump => exact .next (h.facet (fun _ h => h.goto))
  | call => exact .next (h.facet (fun _ h => h.setG.goto))
  | aswap => exact .next (h.facet (fun _ h => h.atomic))
  | aadd => exact .next (h.facet (fun _ h => h.atomic))
  | aand => exact .next (h.facet (fun _ h => h.atomic))
  | aor => exact .next (h.facet (fun _ h => h.atomic))
  | axor => exact .next (h.facet (fun _ h => h.atomic))
  | amaxu => exact .next (h.facet (fun _ h => h.atomic))
  | aminu => exact .next (h.facet (fun _ h => h.atomic))
  | cas => exact h.execCas
  | svc => exact .next (h.facet (fun _ h => h.trap.settle))
  | brk => exact .next (h.facet (fun _ h => h.trap))
  | leave => exact .next (h.facet (fun _ h => .either h.illegal (.either h.setCore.trap.settle h.setCore)))
  | fence => exact .next (h.facet (fun _ h => h.advance))
  | ctlget => exact h.execCtlget
  | ctlput => exact .next (h.facet (fun _ h => h.ctlReg))
  | ctlset => exact .next (h.facet (fun _ h => h.ctlReg))
  | ctlclr => exact .next (h.facet (fun _ h => h.ctlReg))
  | csend => exact .next (h.facet (fun _ h => h.csend))
  | csendnb => exact .next (h.facet (fun _ ht => ht.sendFrom (fun _ h => h.result) (fun _ h => h.result)))
  | crecv => exact .next (h.facet (fun _ h => h.crecv.settle))
  | crecvnb => exact .next (h.facet (fun _ ht => .settle (ht.receive (fun _ h => h.result))))
  | cpoll => exact .next (h.facet (fun _ h => h.result))
  | cwait => exact .next (h.facet (fun _ h => h.cwait))
  | tbegin => exact .next (h.facet (fun _ h => .either h.trap h.setCore.advance))
  | tcommit => exact .next (h.facet (fun _ h => .either h.commit.settle h.trap))
  | tabort => exact .next (h.facet (fun _ ht => ht.bite (fun _ h => h.trap.settle)))
  | tresume => exact .next (h.facet (fun _ h => h.endTx.resume.goto))
  | tstate => exact .next (h.facet (fun _ h => h.result))
  | mlook => exact .next (h.facet (fun _ ht => ht.bite (fun _ ht => ht.bite (fun _ h => .either h.result h.mlookOp))))
  | balloc => exact h.execBalloc
  | bfree => exact h.execBfree
  | bgive => exact h.execBgive
  | crcl => exact h.execCrcl
  | crcbd => exact h.execCrcbd
  | crcd => exact .next (h.facet (fun _ ht => ht.bite (fun _ ht => ht.bite (fun _ h => h.result))))
  | crcw => exact .next (h.facet (fun _ ht => ht.bite (fun _ ht => ht.bite (fun _ h => h.result))))
  | khash => exact .next (h.facet (fun _ ht => ht.legal (fun _ ht => ht.bite (fun _ ht => ht.bite (fun _ h => h.result)))))
  | gfmul => exact .next (h.facet (fun _ ht => ht.bite (fun _ ht => ht.bite (fun _ h => h.result))))
  | gfmulv => exact .next (h.facet (fun _ ht => ht.bite (fun _ ht => ht.bite (fun _ h => h.result))))
  | fctMbxWrite => exact .next h.writeBy
  | fctHkeyWrite => exact .next h.writeBy
  | registerWrite => exact .next h.writeBy
  | claspBreak => exact .next h.claspBreak
  | clpClose => exact .next h.writeBy
  | clpOpen => exact .next h.writeBy
  | islandLeavesReset => exact .next (.either h.islandLeaves (.either h h.update.islandLeaves))
  | closeHandshakeDone => exact .next h.claspCloses
  | eventLaneToggle => exact .next h.eventPulse
  | sqTailDoorbell => exact h.execSqTailDoorbell
  | cqHeadDoorbell => exact h.execCqHeadDoorbell
  | fetchTurn => exact h.execFetchTurn
  | sqEntryArrival => exact h.execSqEntryArrival
  | dsmRangeListArrival => exact h.execDsmRangeListArrival
  | hqeDispWrite => exact .next h.ctlStore
  | writeDataGrant => exact h.execWriteDataGrant
  | writeDataPullDone => exact h.execWriteDataPullDone
  | repull => exact h.execRepull
  | readData => exact h.execReadData
  | readTransferDone => exact h.execReadTransferDone
  | completion => exact h.execCompletion
  | completionPost => exact .next h.post.shutdownStep
  | ccWrite => exact h.execCcWrite
  | controllerReset => exact h.execControllerReset
  | encryptRequest => exact h.execEncryptRequest
  | configRequest => exact .next (.either h.hostAnswer h.hostAccess)
  | pcidLockTimeout => exact .next (.either h h.update)
  | linkStateChange => exact .next (.either h h.setReg.hqeNotice)
  | createIoSq => exact h.execCreateIoSq
  | createIoCq => exact h.execCreateIoCq
  | deleteIoSq => exact h.execDeleteIoSq
  | deleteIoSqDone => exact h.execDeleteIoSqDone
  | deleteIoCq => exact h.execDeleteIoCq
  | getLogPage => exact h.execGetLogPage
  | identify => exact h.execIdentify
  | abort => exact .next (h.adminCmd (fun _ => .either h.finish h.finish))
  | setFeatures => exact h.execSetFeatures
  | powerManagementFeature => exact h.execPowerManagementFeature
  | timestampFeature => exact h.execTimestampFeature
  | getFeatures => exact h.execGetFeatures
  | asyncEventRequest => exact h.execAsyncEventRequest
  | namespaceManagement => exact h.execNamespaceManagement
  | namespaceAttachment => exact h.execNamespaceAttachment
  | firmwareImageDownload => exact h.execFirmwareImageDownload
  | firmwareCommitReplace => exact .next (h.fwCommit (fun _ => h.commitWrite))
  | firmwareCommitReplaceNext => exact .next (h.fwCommit (fun _ => h.commitWrite))
  | firmwareCommitNextStart => exact h.execFirmwareCommitNextStart
  | firmwareCommitActivate => exact h.execFirmwareCommitActivate
  | deviceSelfTest => exact .next (h.adminCmd (fun _ => .either h.finish h.finish))
  | nvmeMiSend => exact .next (h.adminCmd (fun _ => .finish (KeepsFst.fst (.either h.miSet (.mk h)))))
  | nvmeMiReceive => exact h.execNvmeMiReceive
  | formatNvm => exact h.execFormatNvm
  | securitySend => exact h.execSecuritySend
  | securityReceive => exact h.execSecurityReceive
  | sanitizeBlockErase => exact .next (h.sanCommand (fun _ => h.sanAccept))
  | sanitizeOverwrite => exact .next (h.sanCommand (fun _ => h.sanAccept))
  | sanitizeCryptoErase => exact .next (h.sanCommand (fun _ => h.sanAccept))
  | sanitizeExitFailureMode => exact h.execSanitizeExitFailureMode
  | scheduledActivation => exact h.execScheduledActivation
  | scheduledActivationCancel => exact .next (h.adminCmd (fun _ => .either h h.dropScheduled.finish))
  | nvmFlush => exact h.execNvmFlush
  | nvmWrite => exact h.execNvmWrite
  | nvmRead => exact h.execNvmRead
  | writeUncorrectable => exact h.execWriteUncorrectable
  | nvmCompare => exact h.execNvmCompare
  | writeZeroes => exact h.execWriteZeroes
  | datasetManagement => exact h.execDatasetManagement
  | nvmVerify => exact h.execNvmVerify
  | bpmEnable => exact .next h.writeBy
  | freelistReady => exact .next h.freelistReady
  | bpmRetireWrite => exact .next h.writeBy
  | beadCopy => exact h.execBeadCopy
  | mapFilled => exact .next h.mapWrite
  | mapBuilt => exact .next h.mapWrite
  | mapAbandon => exact .next h.mapWrite
  | mapSnap => exact .next h.mapWrite
  | mapCopied => exact .next h.mapWrite
  | mapWritten => exact .next h.mapWrite
  | mapEvict => exact .next h.mapWrite
  | mapPrefetch => exact .next h.mapWrite
  | mapReinit => exact .next h.mapWrite
  | mapWriteback => exact .next (.either h.writeBack h)
  | journalFlushStart => exact .next (.either h.flushStart h)
  | journalFlushDurable => exact .next h.flushDurable.postAll
  | mapTableSnapshot => exact .next (.either h.snapshotStep h)
  | fold => exact .next (.either h.foldInto h)
  | reclamation => exact h.execReclamation
  | bandRefreshDue => exact h.execBandRefreshDue
  | blockRelocation => exact .next (.either (.either h.moveOut.setBlk h.moveOut) h)
  | blockErase => exact .next (.either (.either h.eraseBegins.blockErased h.eraseBegins.retire) h)
  | sketchClear => exact .next h.withFw
  | hotCacheEvict => exact h.execHotCacheEvict
  | wearStageRise => exact .next (.either h h.withFw.tell.wearSummary)
  | wearSummary => exact .next h.wearSummary.withFw
  | recovery => exact .next (.either h.recover h)
  | mapPageReplay => exact h.execMapPageReplay
  | pfailNAssert => exact .next (.either h.withFw h.withFw.withFw.flushStart.counterWord.saveLife)
  | pfailNRelease => exact .next h.withFw
  | pfailNStuck => exact .next (.either h.withFw.tell h)
  | psqBringUp => exact .next h.writeBy
  | psqApplyRate => exact .next h.writeBy
  | psqTrainFull => exact .next h.writeBy
  | psqRetrim => exact .next h.writeBy
  | retrimPeriodic => exact .next h.startRetrim
  | retrimTemperature => exact .next h.startRetrim
  | trainingDone => exact .next (h.disarmFlash.trainingDone.foldl fun _ _ h => h.noteOffline)
  | psqRead => exact .next h.psqTake
  | psqProg => exact .next h.psqTake
  | psqErase => exact .next h.psqTake
  | psqFeats => exact .next h.psqTake
  | psqFeatg => exact .next h.psqTake
  | psqStatus => exact .next h.psqTake
  | psqResetLun => exact .next h.psqTake
  | psqParam => exact .next h.psqTake
  | psqCustomer => exact .next h.psqTake
  | dieOperationComplete => exact h.execDieOperationComplete
  | planeHoldTimeout => exact .next h.planeHoldOver
  | dieTimeout => exact .next (h.disarmFlash.blaming (fun _ h => h.dieTimedOut.noteOffline))
  | sequencerFailure => exact .next h.seqFail
  | spareLoadDone => exact .next h.spareLoaded
  | microNext => exact .next h.microStep
  | microBr => exact .next h.microStep
  | microWait => exact .next h.microStep
  | microLoop => exact .next h.microStep
  | microFar => exact .next h.microStep
  | microCall => exact .next h.microStep
  | microRet => exact .next h.microStep
  | microEnd => exact .next h.microStep
  | slotCapture => exact .next h.faultyCapture.fst.slotCapture
  | slotDecodeDone => exact .next h.slotDecodeDone.slotFaultsEnd
  | asyRecord => exact .next h.asyNext
  | asyLoad => exact .next h.writeBy
  | asyLoadDone => exact .next h.asyLoadDone
  | asySnap => exact .next h.writeBy
  | asySnapDone => exact .next h.asySnapDone
  | asyAcq => exact .next h.writeBy
  | asyFreeze => exact .next h.writeBy
  | asyThaw => exact .next h.writeBy
  | asyReseed => exact .next h.writeBy
  | parEnc => exact .next h.parTake
  | parRec1 => exact .next h.parTake
  | parRec2 => exact .next h.parTake
  | parCheck => exact .next h.parTake
  | parJobDone => exact .next h.parDone
  | lunOfflineTimeout => exact .next (.either (h.blaming (fun _ h => h.loseDie)) h)
  | stripeRepair => exact h.execStripeRepair
  | rebuild => exact h.execRebuild
  | reshape => exact h.execReshape
  | patrolLap => exact .next (.either h h.patrolActs.withFw.patrolRecord)
  | rangePass => exact .next (.either h h.patrolActs.withFw)
  | stripeJournalWrite => exact .next h.stripeWrite
  | scrubAccess => exact h.execScrubAccess
  | mecDmarkWrite => exact .next h.writeBy
  | ceSummary => exact .next (.either h.update h.update.logFw)
  | scrubLapWarning => exact .next (.either (.either h h.update.log) (.either h h.update.log))
  | stallReport => exact h.execStallReport
  | fltDeclWrite => exact .next h.writeBy
  | ddr5RetrainDone => exact .next (h.foldl fun _ _ h => .either h.claspRecloses h)
  | injectorArm => exact .next h.writeBy
  | injectorTick => exact .next h.injTick.settle
  | svcRandom => exact .next (h.serve (fun _ _ h => .mk h.tickBy))
  | svcSecsend => exact .next (h.serve (fun _ _ h => .mk h.returnBeads))
  | svcSecrecv => exact h.execSvcSecrecv
  | svcMgmt => exact .next (h.serve (fun _ _ h => .mk h.fillBeads.returnBeads))
  | svcNskey => exact .next (h.serve (fun _ _ h => .either (.mk h) (.mk h.nsKeys)))
  | svcSanstep => exact h.execSvcSanstep
  | svcReload => exact .next (h.serve (fun _ _ h => .either (.mk h) (.mk h.withSig)))
  | svcSelftest => exact .next (h.serve (fun _ _ h => .either (.mk h) (.either (.mk h) (.mk h.signetError))))
  | svcReady => exact h.execSvcReady
  | entropyHealthFail => exact .next (.either h h.signetError)
  | opalStartSession => exact h.execOpalStartSession
  | opalMethod => exact h.execOpalMethod
  | opalSessionTimeout => exact .next h.opalClose
  | ksOpen => exact h.execKsOpen
  | ksProve => exact h.execKsProve
  | ksClose => exact .next (h.ksMessage (fun _ _ h => .mk h.ksEnd))
  | ksIdleTimeout => exact .next h.ksEnd
  | ksLifetimeExpiry => exact .next h.ksEnd
  | ksLogRead => exact h.execKsLogRead
  | ksDrain => exact .next (h.ksMessage (fun _ _ h => .either (.mk h.modeRequest) (.mk h)))
  | ksRelease => exact .next (h.ksMessage (fun _ _ h => .either (.mk h.modeRequest) (.mk h)))
  | ksInject => exact .next (h.ksMessage (fun _ _ h => .either (.mk h.hwSend) (.mk h)))
  | ksEnrol => exact h.execKsEnrol
  | ksRevoke => exact .next (h.ksMessage (fun _ _ h => .either (.mk h) (.mk h.withSig.secRecord)))
  | ksApprovedMode => exact .next (h.ksMessage (fun _ _ h => .either (.mk h) (.mk h.zeroise.withSig.setFld)))
  | ksZeroise => exact .next (h.ksMessage (fun _ _ h => .mk h.zeroise))
  | ksPsidRead => exact .next (h.ksMessage (fun _ _ h => .mk h))
  | spdmGetVersion => exact .next (h.spdmRequest (fun _ h => h.setSpdm.spdmSays))
  | spdmGetCapabilities => exact .next (h.spdmRequest (fun _ h => .either h.spdmFails h.setSpdm.spdmSays))
  | spdmNegotiateAlgorithms => exact .next (h.spdmRequest (fun _ h => .either h.setSpdm.spdmSays h.spdmFails))
  | spdmGetDigests => exact .next (h.spdmRequest (fun _ h => h.spdmSays))
  | spdmGetCertificate => exact h.execSpdmGetCertificate
  | spdmChallenge => exact h.execSpdmChallenge
  | spdmGetMeasurements => exact .next (h.spdmRequest (fun _ h => .either h.spdmFails (.either h.spdmSigned h.spdmSays)))
  | spdmSetCertificate => exact .next (h.spdmRequest (fun _ h => .either h.withSig.spdmSays h.spdmFails))
  | corePark => exact h.execCorePark
  | activationDrainTimeout => exact h.execActivationDrainTimeout
  | activationRelease => exact h.execActivationRelease
  | scheduledActivationTime => exact h.execScheduledActivationTime
  | romBegin => exact h.execRomBegin
  | romData => exact .next (h.romOp (fun _ h => .either h (.either h.romFails (.either h.romFails h.withBoot))))
  | romEnd => exact h.execRomEnd
  | romStatus => exact h.execRomStatus
  | romReset => exact .next (.either h (.bootStart (.withBoot (h.romOp fun _ h => h))))
  | romPackageWritten => exact h.execRomPackageWritten
  | locketWindowLoad => exact .next (.either (h.facet (fun _ h => h.loadImm)) h)
  | lktUnlock => exact .next h.writeBy
  | lktSequenceTimeout => exact .next (.either h h.lkSeqError)
  | lktProgram => exact .next h.writeBy
  | lktProgramDone => exact .next (.either h.lkProgramDone.sleepWhenQuiet h.lkProgramDone)
  | lktErase => exact .next h.writeBy
  | lktEraseDone => exact .next h.lkEraseDone
  | lktEraseResume => exact .next (.either h h.lkEraseResume)
  | lktCheck => exact .next h.ctlStore.settle
  | lktWaitUpdate => exact .next h.setFld.setFld.setFld.lkMargin.writeBy
  | locketScan => exact .next (.foldl (h.foldl fun _ _ h => h.lkCheck) fun _ _ h => h.lkRefreshDue)
  | pwrSleepGo => exact .next h.sleepAdvance.writeBy
  | sleepEntryOverrun => exact .next h.abandonEntry
  | wakeManagementBus => exact .next (.either h (.either h.wakeEvent h.wakeEvent.withPwr.setReg))
  | wakePcie => exact .next (.either h.wakeEvent h)
  | wakeAlarm => exact .next (.either h.wakeEvent h)
  | wakePowerGood => exact .next (.either h h.avsDone.withPwr)
  | wakeCrystalStable => exact .next (.either h.wakeDone.settle h)
  | wakeAttemptFail => exact h.execWakeAttemptFail
  | padHoldRelease => exact .next h.writeBy
  | tmrStampWrite => exact .next h.writeBy
  | evrLogMessage => exact h.execEvrLogMessage
  | evrContinuationTimeout => exact .next (.either h.update.dropped h)
  | evrEnable => exact .next h.writeBy
  | counterCodewordWrite => exact .next h.counterWord
  | logSnapshotExpiry => exact .next (.either h.update h.update)
  | lifetimeCountSave => exact .next h.saveLife
  | alertResponseRead => exact .next (.either h.update.setFld h.update)
  | mctpSetEndpointId => exact .next (h.onBus (fun _ h => .either h.busSays h.update.busSays))
  | mctpGetEndpointId => exact .next h.mctpSays
  | mctpGetVersionSupport => exact h.execMctpGetVersionSupport
  | mctpGetMessageTypeSupport => exact .next h.mctpSays
  | mctpGetVendorMessageSupport => exact .next (.either h.mctpSays h.mctpSays)
  | miReadDataStructure => exact .next (h.miBus (fun _ h => h.miRead))
  | miSubsystemHealthPoll => exact .next (h.miBus (fun _ h => .mk h))
  | miControllerHealthPoll => exact .next (h.miBus (fun _ h => .mk h))
  | miConfigurationGet => exact .next (h.miBus (fun _ h => .mk h))
  | miConfigurationSet => exact .next (h.miBus (fun _ h => h.miSet))
  | miTunnelledAdmin => exact .next (h.miBus (fun _ h => h.miAdmin))
  | thermalLimit => exact .next (.either h.withPwr.tell h.withPwr)
  | thermalTrip => exact .next (.either h h.withPwr.fatalStop)
  | nvmSubsystemReset => exact .next (.either h h.withBoot.bootStart.update)
  | hostReadError => exact .next (.either h.readErrorLog.hostReadFails h)
  | completionTimeout => exact .next (.either h.aerLog.hostReadFails h)
  | interruptCoalescingTime => exact .next (.either h.update.msixSend h)
  | directGroupTimeout => exact .next (.either h.issueDirect.postAll h)
  | stagingStripeTimeout => exact .next (.either h.issueStaging.postAll h)
  | healthSummary => exact .next h.logFw
  | vlktRestored => exact .next (.either h.setFld.setFld.recorderOp.lkRun h)
  | mbTransactionDuringWake => exact .next (.either h.withPwr.busSays h)
  | nvmeMiInvalidOpcode => exact .next (.either h (h.miBus (fun _ h => .mk h)))

/-! ### One step -/

theorem Keeps.goesOn (h : Keeps s₀ s) : Keeps s₀ s.goesOn := by
  unfold State.goesOn
  exact .fwAdvance (.lkRun (.recorderOp (h.foldl fun _ _ h => h.psqRun)))

theorem Keeps.idleTick (h : Keeps s₀ s) : Keeps s₀ s.idleTick :=
  .either h h.update.goesOn

/-- A step runs the command in front on the rest of the queue, or goes on by one tick. -/
theorem Keeps.step (h : Machine.step s = .next t) : Keeps s t := by
  unfold Machine.step at h
  split at h
  · cases h
    exact (Keeps.refl s).idleTick
  · exact Keeps.exec (Keeps.refl s).update t h

/-- Settles O60: every function a step is made of keeps the memory's form, the part and the installed DRAM. -/
theorem everyStepKeepsTheInvariant : Obligations.EveryStepKeepsTheInvariant := by
  intro s t h
  have k : Keeps s t := .step h
  exact ⟨k.wf, k.part, k.dramMiB⟩

end Sys2Proof.Machine
end
